-- ==== Sys2Proof/Word.lean ====
section
/-! DEFINITION. The value types of the Kralis: words, bytes, lines and masks (spec/00 R2, spec/02 R24-R31), and the
sparse table `SMap` every indexed piece of state is held in. Operations on them stand in Machine/Bits.lean. -/

namespace Sys2Proof

/-- A 32-bit register word (R31). -/
abbrev Word := BitVec 32

/-- One byte of memory. -/
abbrev Byte := BitVec 8

/-- The 128 bytes of one coherence line, byte k at bits [8k+7:8k] (R2, R181). -/
abbrev Line := BitVec 1024

/-- One bit per thread of a group, bit t for thread t (R24, R25). -/
abbrev Mask := BitVec 96

/-- A table from natural numbers to values: pairs with rising keys. An absent key has the table's own default value. -/
abbrev SMap (α : Type) := List (Nat × α)

end Sys2Proof
end

