-- ==== Sys2Proof/Machine/Bits.lean ====
section
/-! DEFINITION. Bit fields, tables, byte order and the small integer functions every other file of the model uses. -/

namespace Sys2Proof.Machine

open Sys2Proof

/-! ## Fields of numbers -/

/-- The `len` bits of `w` from bit `lo` up. -/
def fld (w lo len : Nat) : Nat := w / 2 ^ lo % 2 ^ len

/-- Whether bit `n` of `w` is 1. -/
def bit (w n : Nat) : Bool := w / 2 ^ n % 2 == 1

/-- `w` with the `len` bits from `lo` up replaced by `v`. -/
def setFld (w lo len v : Nat) : Nat := w % 2 ^ lo + v % 2 ^ len * 2 ^ lo + w / 2 ^ (lo + len) * 2 ^ (lo + len)

def b2n (b : Bool) : Nat := if b then 1 else 0

def b2w (b : Bool) : Word := if b then 1 else 0

/-- A number read as a two's-complement integer of `n` bits. -/
def toSigned (n w : Nat) : Int := if w % 2 ^ n < 2 ^ (n - 1) then (w % 2 ^ n : Nat) else (w % 2 ^ n : Nat) - (2 ^ n : Nat)

/-- The low `n` bits of an integer's two's-complement form. -/
def ofSigned (n : Nat) (i : Int) : Nat := (i % (2 ^ n : Nat)).toNat

/-- `a` rounded down to a multiple of `n`. -/
def alignDown (a n : Nat) : Nat := a / n * n

/-- ⌈a / n⌉ for n > 0. -/
def ceilDiv (a n : Nat) : Nat := (a + (n - 1)) / n

/-! ## Tables: pairs with rising keys -/

/-- The value at key `k`, or `d` where the table has none. -/
def mget (d : α) : SMap α → Nat → α
  | [], _ => d
  | (k', v) :: r, k => if k' = k then v else mget d r k

def mget? : SMap α → Nat → Option α
  | [], _ => none
  | (k', v) :: r, k => if k' = k then some v else mget? r k

def mput : SMap α → Nat → α → SMap α
  | [], k, v => [(k, v)]
  | (k', v') :: r, k, v =>
    if k < k' then (k, v) :: (k', v') :: r
    else if k = k' then (k, v) :: r
    else (k', v') :: mput r k v

def mdel : SMap α → Nat → SMap α
  | [], _ => []
  | (k', v') :: r, k => if k = k' then r else (k', v') :: mdel r k

def mmod (d : α) (m : SMap α) (k : Nat) (f : α → α) : SMap α := mput m k (f (mget d m k))

def mkeys (m : SMap α) : List Nat := m.map (·.1)

def mvals (m : SMap α) : List α := m.map (·.2)

def mmap (f : α → β) (m : SMap α) : SMap β := m.map fun p => (p.1, f p.2)

/-- The list of `f 0` to `f (n-1)`. -/
def tab (n : Nat) (f : Nat → α) : List α := (List.range n).map f

/-- `n` numbers from `a` up. -/
def upFrom (a n : Nat) : List Nat := (List.range n).map (a + ·)

def addNew [BEq α] (l : List α) (x : α) : List α := if l.contains x then l else l ++ [x]

/-- A list of numbers in rising order, without repeats, with `x` put in. -/
def insertNat : List Nat → Nat → List Nat
  | [], x => [x]
  | y :: r, x => if x < y then x :: y :: r else if x = y then y :: r else y :: insertNat r x

def minOf? : List Nat → Option Nat
  | [] => none
  | x :: r => match minOf? r with
    | none => some x
    | some y => some (if x ≤ y then x else y)

def maxOf (l : List Nat) : Nat := l.foldl (fun a b => if a < b then b else a) 0

def sumOf (l : List Nat) : Nat := l.foldl (· + ·) 0

/-! ## Bytes (R2: little-endian) -/

/-- The `n` low bytes of `v`, least significant first. -/
def toBytes (n v : Nat) : List Byte := tab n fun i => BitVec.ofNat 8 (v / 2 ^ (8 * i))

def ofBytes : List Byte → Nat
  | [] => 0
  | b :: r => b.toNat + 256 * ofBytes r

/-! ## Memory: cells in canonical form. A cell not listed reads 0 (log 2). -/

/-- The byte at address `a`. (DESIGN CHOICE, log 2.) -/
def readByte (m : List Host.Cell) (a : Nat) : Byte := mget 0 m a

/-- Writing 0 removes the cell, so that equal memories are equal lists. -/
def writeByte (m : List Host.Cell) (a : Nat) (b : Byte) : List Host.Cell := if b = 0 then mdel m a else mput m a b

def readBytes (m : List Host.Cell) (a n : Nat) : List Byte := tab n fun i => readByte m (a + i)

def writeBytes (m : List Host.Cell) (a : Nat) : List Byte → List Host.Cell
  | [] => m
  | b :: r => writeBytes (writeByte m a b) (a + 1) r

/-- Cells of `n` bytes from `a` removed: they read 0. -/
def clearBytes (m : List Host.Cell) (a n : Nat) : List Host.Cell := m.filter fun c => !(a ≤ c.1 && c.1 < a + n)

def readLE (m : List Host.Cell) (a n : Nat) : Nat := ofBytes (readBytes m a n)

def writeLE (m : List Host.Cell) (a n v : Nat) : List Host.Cell := writeBytes m a (toBytes n v)

/-- Addresses strictly rising from above `lo`, and no cell listed with the value an unlisted cell has. -/
def cellsWf : Option Nat → List Host.Cell → Bool
  | _, [] => true
  | lo, (a, b) :: r => (match lo with | none => true | some l => decide (l < a)) && b != 0 && cellsWf (some a) r

/-- The canonical form of memory. -/
def Memory.wf (m : List Host.Cell) : Bool := cellsWf none m

/-- The 128 bytes of a line as one value, and `n` bytes of it at offset `off`. -/
def lineOf (m : List Host.Cell) (a : Nat) : Line := BitVec.ofNat 1024 (readLE m a 128)

def lineField (l : Line) (off n : Nat) : Nat := fld l.toNat (8 * off) (8 * n)

def setLineField (l : Line) (off n v : Nat) : Line := BitVec.ofNat 1024 (setFld l.toNat (8 * off) (8 * n) v)

/-! ## Bit counts and shifts (R105, R106) -/

/-- The number of 1 bits among the low `n` bits. -/
def popCount : Nat → Nat → Nat
  | 0, _ => 0
  | n + 1, w => w % 2 + popCount n (w / 2)

/-- The number of leading 0 bits of a value of `n` bits. -/
def leadingZeros (n w : Nat) : Nat := if w % 2 ^ n = 0 then n else n - 1 - Nat.log2 (w % 2 ^ n)

/-- Bit i of the result is bit n - 1 - i of `w`. -/
def revBits : Nat → Nat → Nat
  | 0, _ => 0
  | n + 1, w => w % 2 * 2 ^ n + revBits n (w / 2)

/-- The lowest 1 bit among the low `n` bits. -/
def lowestBit : Nat → Nat → Option Nat
  | 0, _ => none
  | n + 1, w => if w % 2 = 1 then some 0 else (lowestBit n (w / 2)).map (· + 1)

def shiftLeft (x : Word) (n : Nat) : Word := if 32 ≤ n then 0 else x <<< n

def shiftRightZ (x : Word) (n : Nat) : Word := if 32 ≤ n then 0 else x >>> n

def shiftRightS (x : Word) (n : Nat) : Word := x.sshiftRight (if 31 ≤ n then 31 else n)

def rotateRight (x : Word) (n : Nat) : Word := x.rotateRight (n % 32)

/-! ## Masks of threads -/

def mtest (m : Mask) (t : Nat) : Bool := m.getLsbD t

def mset1 (m : Mask) (t : Nat) : Mask := m ||| (1#96 <<< t)

/-- The mask of the threads for which `f` holds. -/
def maskOf (f : Nat → Bool) : Mask :=
  BitVec.ofNat 96 ((List.range 96).foldl (fun acc t => if f t then acc + 2 ^ t else acc) 0)

/-- Threads 0 to n - 1. -/
def maskLow (n : Nat) : Mask := BitVec.ofNat 96 (2 ^ n - 1)

def maskThreads (m : Mask) : List Nat := (List.range 96).filter fun t => mtest m t

def mfirst (m : Mask) : Option Nat := lowestBit 96 m.toNat

def allThreads : Mask := BitVec.allOnes 96

end Sys2Proof.Machine
end

