-- ==== Sys2Proof/Machine/Float.lean ====
section
/-! DEFINITION. Number formats and rounding (spec/04): values as exact dyadic numbers, R89's round(), the conversions, the
4-bit block-scaled family and the Vesper mixer. -/

namespace Sys2Proof.Machine

open Sys2Proof

/-- A value: NaN, an infinity, or (-1)^neg × m × 2^e exactly. Zero is m = 0 and keeps its sign (R85). -/
inductive FVal where
  | nan
  | inf (neg : Bool)
  | fin (neg : Bool) (m : Nat) (e : Int)
  deriving DecidableEq, Repr

/-- The floating-point formats of Table 4-1. -/
inductive Fmt where
  | f32 | f16 | bf16 | e4m3 | e5m2
  deriving DecidableEq, Repr

inductive Rnd where
  | rne | rtz | rup | rdn
  deriving DecidableEq, Repr

/-- mod[7:6] (Table 3-6). -/
def rndOf (n : Nat) : Rnd := match n with | 0 => .rne | 1 => .rtz | 2 => .rup | _ => .rdn

def Fmt.width : Fmt → Nat | .f32 => 32 | .f16 => 16 | .bf16 => 16 | .e4m3 => 8 | .e5m2 => 8

def Fmt.frac : Fmt → Nat | .f32 => 23 | .f16 => 10 | .bf16 => 7 | .e4m3 => 3 | .e5m2 => 2

def Fmt.bias : Fmt → Nat | .f32 => 127 | .f16 => 15 | .bf16 => 127 | .e4m3 => 7 | .e5m2 => 15

/-- The pattern of the largest finite value. -/
def Fmt.maxFinite : Fmt → Nat | .f32 => 0x7F7FFFFF | .f16 => 0x7BFF | .bf16 => 0x7F7F | .e4m3 => 0x7E | .e5m2 => 0x7B

def Fmt.infBits : Fmt → Nat | .f32 => 0x7F800000 | .f16 => 0x7C00 | .bf16 => 0x7F80 | .e4m3 => 0x7E | .e5m2 => 0x7C

/-- The canonical NaN (R86). -/
def Fmt.nanBits : Fmt → Nat | .f32 => 0x7FC00000 | .f16 => 0x7E00 | .bf16 => 0x7FC0 | .e4m3 => 0x7F | .e5m2 => 0x7E

/-- The flags of FPS (R130): NV, DZ, OF, UF, NX from bit 0 up. -/
abbrev Flags := BitVec 5

def flNV : Flags := 1
def flDZ : Flags := 2
def flOF : Flags := 4
def flUF : Flags := 8
def flNX : Flags := 16

/-- The value of the low bits of `b` in format `f` (R83, R84). -/
def decodeF (f : Fmt) (b : Nat) : FVal :=
  let mb := f.frac
  let w := f.width
  let neg := bit b (w - 1)
  let ef := fld b mb (w - 1 - mb)
  let fr := fld b 0 mb
  let emax := 2 ^ (w - 1 - mb) - 1
  if f = .e4m3 && fld b 0 7 = 0x7F then .nan
  else if f ≠ .e4m3 && ef = emax then (if fr = 0 then .inf neg else .nan)
  else if ef = 0 then .fin neg fr (1 - (f.bias : Int) - mb)
  else .fin neg (2 ^ mb + fr) ((ef : Int) - f.bias - mb)

/-- `m` × 2^-k rounded to an integer in direction `mode` for a value of sign `neg` (R89 step 3), and whether it changed. -/
def roundShift (mode : Rnd) (neg : Bool) (m k : Nat) : Nat × Bool :=
  let lo := m / 2 ^ k
  let rem := m % 2 ^ k
  if rem = 0 then (lo, false)
  else
    let up := match mode with
      | .rne => decide (2 ^ k < 2 * rem) || (decide (2 * rem = 2 ^ k) && lo % 2 == 1)
      | .rtz => false
      | .rup => !neg
      | .rdn => neg
    (if up then lo + 1 else lo, true)

/-- Whether m × 2^e (m ≠ 0), rounded with unbounded exponent, lies below the smallest normal of `f` (R131, UF). -/
def tiny (f : Fmt) (mode : Rnd) (neg : Bool) (m : Nat) (e : Int) : Bool :=
  let top : Int := (Nat.log2 m : Nat) + e
  let emin : Int := 1 - (f.bias : Int)
  let q : Int := top - f.frac
  if top < emin - 1 then true
  else if emin ≤ top then false
  else if e ≥ q then true
  else (roundShift mode neg m (q - e).toNat).1 < 2 ^ (f.frac + 1)

/-- Whether m × 2^e lies above 448 in E4M3: 0x7F is its NaN, so the neighbours of a value between are 448 and 512 (R83, the
example after R91), and 480, the tie, goes to 512. (DEDUCED, log 49.) -/
def aboveMax (f : Fmt) (m : Nat) (e : Int) : Bool :=
  decide (f = .e4m3) && decide (448 * 2 ^ (-e).toNat < m * 2 ^ e.toNat)

/-- round(x, F, mode) of R89 with the flags of R131. `sat` is the saturating variant of R91. A value that is not dyadic
comes with one extra low bit of 1 far below the result's precision, which decides no tie and marks it inexact. -/
def roundF (f : Fmt) (mode : Rnd) (sat : Bool) (x : FVal) : Nat × Flags :=
  let signOf := fun (neg : Bool) => if neg then 2 ^ (f.width - 1) else 0
  match x with
  | .nan => (f.nanBits, 0)
  | .inf neg =>
    if f = .e4m3 || sat then (f.maxFinite + signOf neg, flOF ||| flNX) else (f.infBits + signOf neg, 0)
  | .fin neg m e =>
    if m = 0 then (signOf neg, 0)
    else
      let qmin : Int := 1 - (f.bias : Int) - f.frac
      let q0 : Int := (Nat.log2 m : Nat) + e - f.frac
      let q := if q0 < qmin then qmin else q0
      let r :=
        if aboveMax f m e then ((roundShift mode neg (m * 2 ^ (e - q - 1).toNat) (q + 1 - e).toNat).1 * 2, true)
        else if e ≥ q then (m * 2 ^ (e - q).toNat, false)
        else roundShift mode neg m (q - e).toNat
      let pat := (q - qmin).toNat * 2 ^ f.frac + r.1
      if f.maxFinite < pat then
        let inf := match mode with | .rne => true | .rtz => false | .rup => !neg | .rdn => neg
        let b := if f = .e4m3 || sat || !inf then f.maxFinite else f.infBits
        (b + signOf neg, flOF ||| flNX)
      else
        (pat + signOf neg, if r.2 then (if tiny f mode neg m e then flUF ||| flNX else flNX) else 0)

def FVal.isNan : FVal → Bool | .nan => true | _ => false

def FVal.neg : FVal → Bool | .nan => false | .inf n => n | .fin n _ _ => n

def FVal.negate : FVal → FVal | .nan => .nan | .inf n => .inf (!n) | .fin n m e => .fin (!n) m e

def FVal.isZero : FVal → Bool | .fin _ 0 _ => true | _ => false

/-- The signed mantissa of a finite value at exponent `e'` ≤ its own. -/
def FVal.scaled (e' : Int) : FVal → Int
  | .fin n m e => let v : Int := (m * 2 ^ (e - e').toNat : Nat); if n then -v else v
  | _ => 0

/-- The exponent of a finite value. -/
def FVal.exp : FVal → Int | .fin _ _ e => e | _ => 0

/-- i × 2^e as a value; `zneg` is the sign of an exact zero. -/
def dyadic (zneg : Bool) (i e : Int) : FVal := if i = 0 then .fin zneg 0 0 else .fin (decide (i < 0)) i.natAbs e

/-- The exact sum (R90, R99), with NV when it is a NaN made of no NaN. -/
def addV (mode : Rnd) (a b : FVal) : FVal × Flags :=
  match a, b with
  | .nan, _ => (.nan, 0)
  | _, .nan => (.nan, 0)
  | .inf x, .inf y => if x = y then (.inf x, 0) else (.nan, flNV)
  | .inf x, .fin .. => (.inf x, 0)
  | .fin .., .inf y => (.inf y, 0)
  | .fin n1 m1 e1, .fin n2 m2 e2 =>
    let e' := if e1 < e2 then e1 else e2
    let zneg := if m1 = 0 && m2 = 0 && n1 = n2 then n1 else decide (mode = .rdn)
    (dyadic zneg ((FVal.fin n1 m1 e1).scaled e' + (FVal.fin n2 m2 e2).scaled e') e', 0)

/-- The exact product. -/
def mulV (a b : FVal) : FVal × Flags :=
  match a, b with
  | .nan, _ => (.nan, 0)
  | _, .nan => (.nan, 0)
  | .inf x, y => if y.isZero then (.nan, flNV) else (.inf (x != y.neg), 0)
  | x, .inf y => if x.isZero then (.nan, flNV) else (.inf (x.neg != y), 0)
  | .fin n1 m1 e1, .fin n2 m2 e2 => (.fin (n1 != n2) (m1 * m2) (e1 + e2), 0)

/-- The exact a × b + c (R135). -/
def fmaV (mode : Rnd) (a b c : FVal) : FVal × Flags :=
  let p := mulV a b
  if p.2 ≠ 0 then (if c.isNan then (.nan, 0) else p)
  else addV mode p.1 c

/-- Whether a < b, for values neither of which is NaN; -0 equals +0. -/
def ltV (a b : FVal) : Bool :=
  match a, b with
  | .inf x, .inf y => x && !y
  | .inf x, _ => x
  | _, .inf y => !y
  | .fin .., .fin .. =>
    let e' := if a.exp < b.exp then a.exp else b.exp
    decide (a.scaled e' < b.scaled e')
  | _, _ => false

def eqV (a b : FVal) : Bool := !a.isNan && !b.isNan && !ltV a b && !ltV b a

/-- The exact value of an integer. -/
def ofInt (i : Int) : FVal := dyadic false i 0

/-- A value rounded to an integer under `mode` (finite values; R88, R140). -/
def toIntV (mode : Rnd) : FVal → Int × Bool
  | .fin n m e =>
    let r := if 0 ≤ e then (m * 2 ^ e.toNat, false) else roundShift mode n m (-e).toNat
    (if n then -(r.1 : Int) else r.1, r.2)
  | _ => (0, false)

/-- The R88 conversion of a value to an integer within [lo, hi]; NV alone where it lies outside or is not a number. -/
def cvtInt (mode : Rnd) (lo hi : Int) (x : FVal) : Int × Flags :=
  match x with
  | .nan => (0, flNV)
  | .inf n => (if n then lo else hi, flNV)
  | .fin .. =>
    let r := toIntV mode x
    if hi < r.1 then (hi, flNV) else if r.1 < lo then (lo, flNV) else (r.1, if r.2 then flNX else 0)

/-- rne32 of R89 on values: the FP32 pattern. -/
def rne32 (x : FVal) : Word := BitVec.ofNat 32 (roundF .f32 .rne false x).1

def f32 (w : Word) : FVal := decodeF .f32 w.toNat

/-- The pattern of an exactly representable value. -/
def exactBits (f : Fmt) (x : FVal) : Nat := (roundF f .rne false x).1

/-- The FP32, FP16 or BF16 pattern of a constant operand (R62, R128). -/
def constBits (f : Fmt) (c : Int) : Nat := exactBits f (ofInt c)

/-! ## The 4-bit block-scaled family (R92 - R96) -/

/-- Table 4-3 for types 1, 2, 3 in halves: twice the magnitude. -/
def q4Mag2 (type m : Nat) : Nat :=
  match type with
  | 1 => [0, 1, 2, 3, 4, 6, 8, 12].getD m 0
  | 2 => [0, 2, 4, 8, 16, 32, 64, 128].getD m 0
  | _ => [0, 2, 4, 6, 8, 16, 32, 64].getD m 0

/-- q4_decode of R94. -/
def q4Decode (code s : Nat) : FVal :=
  let e := fld s 0 6
  if e = 63 then .nan
  else
    let sc : Int := (e : Int) - 32
    if fld s 6 2 = 0 then
      let i := toSigned 4 code
      .fin (decide (i < 0)) i.natAbs sc
    else .fin (bit code 3) (q4Mag2 (fld s 6 2) (fld code 0 3)) (sc - 1)

/-- Compares y = m × 2^e with k / 4 for a natural k: less, equal or greater. -/
def cmpQuarter (m : Nat) (e : Int) (k : Nat) : Ordering :=
  let e' : Int := if e < -2 then e else -2
  compare (m * 2 ^ (e - e').toNat) (k * 2 ^ (-2 - e').toNat)

/-- Index of the table entry nearest to m × 2^e, entries given doubled and rising; a tie takes the even index (R95). -/
def nearestIdx (tbl : List Nat) (m : Nat) (e : Int) : Nat :=
  ((List.range (tbl.length - 1)).foldl (fun (acc : Nat) i =>
    -- the midpoint of entries i and i+1, in quarters of a unit: (t_i + t_{i+1}) / 4 doubled values
    match cmpQuarter m e (tbl.getD i 0 + tbl.getD (i + 1) 0) with
    | .lt => acc
    | .eq => if i % 2 = 0 then acc else i + 1
    | .gt => i + 1) 0)

/-- q4_encode of R95 for a value that is not NaN: the code, whether it saturated, whether its value differs from y. -/
def q4Encode (x : FVal) (type e : Nat) : Nat × Bool × Bool :=
  match x with
  | .nan => (0, false, false)
  | .inf neg => (if type = 0 then (if neg then 8 else 7) else (if neg then 15 else 7), true, true)
  | .fin neg m ex =>
    let ey : Int := ex - ((e : Int) - 32)
    if type = 0 then
      let r := toIntV .rne (.fin neg m ey)
      let i : Int := if 7 < r.1 then 7 else if r.1 < -8 then -8 else r.1
      (ofSigned 4 i, decide (7 < r.1 ∨ r.1 < -8) || (!neg && cmpQuarter m ey 28 == .gt) || (neg && cmpQuarter m ey 32 == .gt),
        r.2 || i != r.1)
    else
      let tbl := tab 8 (q4Mag2 type)
      let k := nearestIdx tbl m ey
      let top := tbl.getD 7 0
      let sat := cmpQuarter m ey (2 * top) == .gt
      (b2n neg * 8 + k, sat, cmpQuarter m ey (2 * tbl.getD k 0) != .eq)

/-- qscale_e of R148. -/
def qscaleE (b : FVal) (type : Nat) : Nat :=
  match b with
  | .nan => 63
  | .inf _ => 62
  | .fin _ m e =>
    if m = 0 then 0
    else
      let mx := match type with | 1 => 6 | 2 => 64 | 3 => 32 | _ => 7
      -- the smallest E from 0 to 62 with m × 2^e ≤ mx × 2^(E-32)
      let fits := fun (k : Nat) =>
        let d : Int := e - ((k : Int) - 32)
        if 0 ≤ d then decide (m * 2 ^ d.toNat ≤ mx) else decide (m ≤ mx * 2 ^ (-d).toNat)
      ((List.range 63).find? fits).getD 62

/-! ## The Vesper mixer (R101, R102) -/

def vcounter (step row column : Nat) : BitVec 64 :=
  BitVec.ofNat 64 (step % 2 ^ 24 * 2 ^ 40 + row % 2 ^ 20 * 2 ^ 20 + column % 2 ^ 20)

def vesperRound (x c : BitVec 64) : BitVec 64 :=
  let y := (x ^^^ (x >>> 29)) * c
  y ^^^ (y >>> 32)

def vesper (key ctr : BitVec 64) : Word :=
  let c0 := 0xA24B6F3D58C19E27#64
  let c1 := 0x7C1593E42BD861A5#64
  (vesperRound (vesperRound (vesperRound (vesperRound (key ^^^ ctr) c0) c1) c0) c1).extractLsb' 32 32

end Sys2Proof.Machine
end

