-- ==== Sys2Proof/Config.lean ====
section
/-! DEFINITION. What the spec leaves open as a value: constants without a body, so that no proof can see what they are. -/

namespace Sys2Proof.Config

open Sys2Proof

/-- The bits the part gives for each bounded special function (R143): 0 rsq, 1 ex2, 2 lg2, 3 sin, 4 cos, 5 tanh. The model
uses them where they meet the bound of Table 6-3 (DESIGN CHOICE, log 6). -/
opaque special : Nat → Word → Word

/-- Bytes of an XMSS^MT signature over `contents` with leaf `leaf` (R387; DESIGN CHOICE, log 8). -/
opaque signature : Nat → List Byte → List Byte

/-- Whether bytes carry a valid XMSS^MT signature under a public key, as NIST SP 800-208 defines it (R387, R388; DESIGN CHOICE,
log 8). -/
opaque signatureValid : (key contents signature : List Byte) → Bool

/-- The fused SHAKE256 digest of the Haljor key (R388; DESIGN CHOICE, log 8). -/
opaque haljorDigest : List Byte

/-- Bytes of the device's certificate chain in slot 0 (R383; DESIGN CHOICE, log 8). -/
opaque certificate : List Byte

/-- The boot ROM's bytes that measurement 1 digests (R384; DESIGN CHOICE, log 8). -/
opaque bootRom : List Byte

/-- The device's key-exchange share for a requester's share (R383; DESIGN CHOICE, log 8). -/
opaque keyShare : List Byte → List Byte

/-- The AEAD key of a session whose shares are these (R383; DESIGN CHOICE, log 8). -/
opaque sessionKey : (requester device : List Byte) → BitVec 256

/-- The key that a KEY_UPDATE puts in a session key's place (R383; DESIGN CHOICE, log 8). -/
opaque updatedKey : BitVec 256 → BitVec 256

/-- Which of a group's asynchronous operations under way has read the uncorrectable word that an error event names none for, at each
such event (R411; DESIGN CHOICE, log 9). -/
opaque failing : Nat → Nat

/-- The bank row of a memory site that holds an offset of its DRAM (Table 21-1; DESIGN CHOICE, log 51). -/
opaque dramRow : (site place : Nat) → Nat

/-- The panel that a panel link leads to (R376; DESIGN CHOICE, log 51). -/
opaque linkPanel : Nat → Nat

end Sys2Proof.Config
end

