-- ==== Sys2Proof/Syntax.lean ====
section
/-! DEFINITION. The instructions of the Kralis, one constructor per row of spec/opcode_table.json: the scalar words (fields
as the table names them), the lane words (fields of the long form, R59), the paired word (R60), and the steps of the
hardware, system software and the outside world that have no encoding, each with the operands that say on what it acts. -/

namespace Sys2Proof

/-- The fields of a long-form lane word beside its opcode (Table 3-6). Bits [83:18] double as the targets of the control
class (R295) and bits [36:18] as the byte offset of the memory class (R59). -/
structure LaneWord where
  dst : BitVec 9
  srcA : BitVec 9
  rtA : BitVec 10
  srcB : BitVec 9
  rtB : BitVec 10
  srcC : BitVec 9
  rtC : BitVec 10
  pred : BitVec 4
  neg : BitVec 1
  u : BitVec 1
  mod : BitVec 12
  deriving DecidableEq, Repr

/-- One slot of a paired word (Table 3-7). -/
structure ShortOp where
  op : BitVec 7
  dst : BitVec 9
  srcA : BitVec 9
  srcB : BitVec 9
  rtB : BitVec 10
  pred : BitVec 3
  deriving DecidableEq, Repr

/-- The units of Table 21-1 that an error can name. -/
inductive UnitId where
  | core (n : Nat)
  | dcc (die : Nat)
  | slice (n : Nat)
  | sliceWay (n way : Nat)          -- a failing way of a slice, as it is retired
  | dramRow (site row : Nat)
  | linkLane (link lane : Nat)
  | pisteWay (site way : Nat)
  | router (site : Nat)
  deriving DecidableEq, Repr

/-- What kind of error was found (R410, R411; MERRLAST.KIND). -/
inductive ErrorKind where
  | corrected
  | consumed
  | writeBack (part : Nat)
  deriving DecidableEq, Repr

/-- The place of an uncorrectable word that a save found (R411, Table 20-3). -/
inductive BadWord where
  | sreg (group r : Nat)
  | vreg (group r thread : Nat)
  | scratch (addr : Nat)
  | tile (t index : Nat)
  deriving DecidableEq, Repr

/-- How a targeted self-test ended (R410): a slice's failure names the ways that failed. -/
inductive TestResult where
  | passed
  | failed (ways : List Nat)
  deriving DecidableEq, Repr

/-- A firmware image in NV memory (R388): its bytes, its security version, the key it names and its signature. -/
structure FwImage where
  bytes : List Byte := []
  version : BitVec 32 := 0
  key : List Byte := []
  signature : List Byte := []
  deriving DecidableEq, Repr

/-- What the outside world contributes to a start (Table 21-2): which step fails (0: none), the firmware image that NV memory
holds, whether the NV memory can be read, the Dayclock differences that a synchronisation leaves, and the units whose self-test
fails. -/
structure StartReport where
  failStep : Nat
  image : FwImage
  raisesMinimum : Bool
  nvReadable : Bool
  dcOff : SMap (BitVec 8)
  testFails : List UnitId
  deriving DecidableEq, Repr

/-- The algorithms an SPDM requester offers (R383). -/
structure SpdmOffer where
  sha3_384 : Bool
  xmssmt : Bool
  secp384r1 : Bool
  aes256gcm : Bool
  dmtf : Bool
  deriving DecidableEq, Repr

/-- The management registers whose write has no row of its own (row MGMT_REGISTER_WRITE). -/
inductive MgmtReg where
  | partstat (part : Nat)
  | nbaddr (part ctx : Nat)
  | nbpasid (part ctx : Nat)
  | pwrcfg (region : Nat)
  | thermcfg (region : Nat)
  | pwrevt (region : Nat)
  | merrcnt
  | startctl
  | trccfg (part : Nat)
  | curfew (part : Nat)
  | dbgctl (part : Nat)
  | wpBase (part n : Nat)
  | wpLimit (part n : Nat)
  | wpCtl (part n : Nat)
  | pasidRoot (pasid : Nat)
  deriving DecidableEq, Repr

/-- The instructions and steps: one constructor per row of the opcode table. -/
inductive Instr where
  | add (d : BitVec 6) (a : BitVec 6) (b : BitVec 6)  -- ADD, R105
  | sub (d : BitVec 6) (a : BitVec 6) (b : BitVec 6)  -- SUB, R105
  | andR (d : BitVec 6) (a : BitVec 6) (b : BitVec 6)  -- AND, R105
  | orR (d : BitVec 6) (a : BitVec 6) (b : BitVec 6)  -- OR, R105
  | xorR (d : BitVec 6) (a : BitVec 6) (b : BitVec 6)  -- XOR, R105
  | andn (d : BitVec 6) (a : BitVec 6) (b : BitVec 6)  -- ANDN, R105
  | shl (d : BitVec 6) (a : BitVec 6) (b : BitVec 6)  -- SHL, R106
  | shrZ (d : BitVec 6) (a : BitVec 6) (b : BitVec 6)  -- SHR_Z, R106
  | shrS (d : BitVec 6) (a : BitVec 6) (b : BitVec 6)  -- SHR_S, R106
  | rotr (d : BitVec 6) (a : BitVec 6) (b : BitVec 6)  -- ROTR, R105
  | slt (d : BitVec 6) (a : BitVec 6) (b : BitVec 6)  -- SLT, R105
  | sltu (d : BitVec 6) (a : BitVec 6) (b : BitVec 6)  -- SLTU, R105
  | seq (d : BitVec 6) (a : BitVec 6) (b : BitVec 6)  -- SEQ, R105
  | sne (d : BitVec 6) (a : BitVec 6) (b : BitVec 6)  -- SNE, R105
  | minS (d : BitVec 6) (a : BitVec 6) (b : BitVec 6)  -- MIN_S, R105
  | minZ (d : BitVec 6) (a : BitVec 6) (b : BitVec 6)  -- MIN_Z, R105
  | maxS (d : BitVec 6) (a : BitVec 6) (b : BitVec 6)  -- MAX_S, R105
  | maxZ (d : BitVec 6) (a : BitVec 6) (b : BitVec 6)  -- MAX_Z, R105
  | mul (d : BitVec 6) (a : BitVec 6) (b : BitVec 6)  -- MUL, R105
  | mulhS (d : BitVec 6) (a : BitVec 6) (b : BitVec 6)  -- MULH_S, R105
  | mulhZ (d : BitVec 6) (a : BitVec 6) (b : BitVec 6)  -- MULH_Z, R105
  | divS (d : BitVec 6) (a : BitVec 6) (b : BitVec 6)  -- DIV_S, R106
  | divZ (d : BitVec 6) (a : BitVec 6) (b : BitVec 6)  -- DIV_Z, R106
  | remS (d : BitVec 6) (a : BitVec 6) (b : BitVec 6)  -- REM_S, R106
  | remZ (d : BitVec 6) (a : BitVec 6) (b : BitVec 6)  -- REM_Z, R106
  | popc (d : BitVec 6) (a : BitVec 6)  -- POPC, R105
  | clz (d : BitVec 6) (a : BitVec 6)  -- CLZ, R105
  | brev (d : BitVec 6) (a : BitVec 6)  -- BREV, R105
  | sel (d : BitVec 6) (a : BitVec 6) (b : BitVec 6) (c : BitVec 6)  -- SEL, R105
  | addi (d : BitVec 6) (a : BitVec 6) (i : BitVec 14)  -- ADDI, R107
  | andi (d : BitVec 6) (a : BitVec 6) (i : BitVec 14)  -- ANDI, R107
  | ori (d : BitVec 6) (a : BitVec 6) (i : BitVec 14)  -- ORI, R107
  | xori (d : BitVec 6) (a : BitVec 6) (i : BitVec 14)  -- XORI, R107
  | slti (d : BitVec 6) (a : BitVec 6) (i : BitVec 14)  -- SLTI, R107
  | sltiu (d : BitVec 6) (a : BitVec 6) (i : BitVec 14)  -- SLTIU, R107
  | shli (d : BitVec 6) (a : BitVec 6) (n : BitVec 5)  -- SHLI, R108
  | shriZ (d : BitVec 6) (a : BitVec 6) (n : BitVec 5)  -- SHRI_Z, R108
  | shriS (d : BitVec 6) (a : BitVec 6) (n : BitVec 5)  -- SHRI_S, R108
  | rotri (d : BitVec 6) (a : BitVec 6) (n : BitVec 5)  -- ROTRI, R108
  | li (d : BitVec 6) (i : BitVec 16)  -- LI, R109
  | liz (d : BitVec 6) (i : BitVec 16)  -- LIZ, R109
  | lui (d : BitVec 6) (i : BitVec 16)  -- LUI, R109
  | lih (d : BitVec 6) (i : BitVec 16)  -- LIH, R109
  | bfeZ (d : BitVec 6) (a : BitVec 6) (w : BitVec 6) (p : BitVec 5)  -- BFE_Z, R110
  | bfeS (d : BitVec 6) (a : BitVec 6) (w : BitVec 6) (p : BitVec 5)  -- BFE_S, R110
  | bfi (d : BitVec 6) (a : BitVec 6) (w : BitVec 6) (p : BitVec 5)  -- BFI, R110
  | beqz (a : BitVec 6) (o : BitVec 20)  -- BEQZ, R292
  | bnez (a : BitVec 6) (o : BitVec 20)  -- BNEZ, R292
  | bltz (a : BitVec 6) (o : BitVec 20)  -- BLTZ, R292
  | bgez (a : BitVec 6) (o : BitVec 20)  -- BGEZ, R292
  | br (o : BitVec 20)  -- BR, R292
  | call (a : BitVec 6) (o : BitVec 20)  -- CALL, R292
  | jmpr (d : BitVec 6) (a : BitVec 6) (i : BitVec 14)  -- JMPR, R293
  | lgo (o : BitVec 20)  -- LGO, R28
  | ljoin  -- LJOIN, R28
  | mskLive  -- MSK_LIVE, R294
  | mskN (n : BitVec 16)  -- MSK_N, R294
  | exitScalar  -- EXIT, R294
  | yield  -- YIELD, R333
  | ldScalar (d : BitVec 6) (a : BitVec 6) (w : BitVec 2) (x : BitVec 1) (l : BitVec 1) (q : BitVec 1) (c : BitVec 3) (f : BitVec 6)  -- LD, R255
  | stScalar (d : BitVec 6) (a : BitVec 6) (w : BitVec 2) (l : BitVec 1) (q : BitVec 1) (c : BitVec 3) (f : BitVec 6)  -- ST, R255
  | atomScalar (d : BitVec 6) (a : BitVec 6) (b : BitVec 6) (c : BitVec 3) (q : BitVec 2) (o : BitVec 3)  -- ATOM, R258
  | casScalar (d : BitVec 6) (a : BitVec 6) (b : BitVec 6) (c : BitVec 3) (q : BitVec 2) (w : BitVec 1)  -- CAS, R258
  | fence (t : BitVec 4) (c : BitVec 3) (m : BitVec 4)  -- FENCE, R266
  | waitCounts (t : BitVec 4) (c : BitVec 4) (s : BitVec 4) (l : BitVec 4)  -- WAIT, R267
  | waitln (d : BitVec 6) (a : BitVec 6) (i : BitVec 14)  -- WAITLN, R268
  | waitlnV1 (d : BitVec 6) (a : BitVec 6) (i : BitVec 14)  -- WAITLN_V1, R54
  | pause (n : BitVec 16)  -- PAUSE, R269
  | pauseV1v2 (n : BitVec 16)  -- PAUSE_V1V2, R54
  | cpy1d (d : BitVec 6) (a : BitVec 6)  -- CPY_1D, R272
  | cpy1dFt (d : BitVec 6) (a : BitVec 6)  -- CPY_1D_FT, R275
  | cpy2d (d : BitVec 6) (a : BitVec 6)  -- CPY_2D, R272
  | cpyGather (d : BitVec 6) (a : BitVec 6)  -- CPY_GATHER, R272
  | cpySeal (d : BitVec 6) (a : BitVec 6)  -- CPY_SEAL, R273
  | cpyAon (d : BitVec 6) (a : BitVec 6)  -- CPY_AON, R197
  | cpyVer (d : BitVec 6) (a : BitVec 6)  -- CPY_VER, R274
  | cpyReplay (d : BitVec 6) (a : BitVec 6)  -- CPY_REPLAY, R276
  | collRadd (d : BitVec 6) (a : BitVec 6) (t : BitVec 3)  -- COLL_RADD, R281
  | collBcast (d : BitVec 6) (a : BitVec 6)  -- COLL_BCAST, R281
  | collAgath (d : BitVec 6) (a : BitVec 6)  -- COLL_AGATH, R281
  | send (d : BitVec 6) (a : BitVec 6) (b : BitVec 6) (l : BitVec 8)  -- SEND, R283
  | recvpost (d : BitVec 6) (a : BitVec 6) (b : BitVec 6)  -- RECVPOST, R284
  | recvtst (d : BitVec 6) (b : BitVec 6)  -- RECVTST, R288
  | locSelf (d : BitVec 6)  -- LOC_SELF, R22
  | locHome (d : BitVec 6) (a : BitVec 6)  -- LOC_HOME, R22
  | locBand (d : BitVec 6) (a : BitVec 6)  -- LOC_BAND, R22
  | mma (d : BitVec 6) (a : BitVec 6) (b : BitVec 6) (k : BitVec 3) (z : BitVec 1) (p : BitVec 1) (t : BitVec 3)  -- MMA, R169
  | mlb (d : BitVec 6) (a : BitVec 6) (b : BitVec 6) (l : BitVec 1) (p : BitVec 1)  -- MLB, R171
  | mdrain (d : BitVec 6) (a : BitVec 6) (b : BitVec 6) (z : BitVec 1) (i : BitVec 1) (p : BitVec 1) (t : BitVec 3)  -- MDRAIN, R174
  | acccpySt (d : BitVec 6) (a : BitVec 6) (b : BitVec 6) (p : BitVec 1) (t : BitVec 3)  -- ACCCPY_ST, R172
  | acccpyLd (d : BitVec 6) (a : BitVec 6) (b : BitVec 6) (p : BitVec 1) (t : BitVec 3)  -- ACCCPY_LD, R172
  | seminc (d : BitVec 6) (a : BitVec 6) (c : BitVec 3)  -- SEMINC, R323
  | semwait (d : BitVec 6) (a : BitVec 6) (c : BitVec 3)  -- SEMWAIT, R324
  | semtst (d : BitVec 6) (a : BitVec 6) (c : BitVec 3)  -- SEMTST, R323
  | bararr (b : BitVec 5)  -- BARARR, R326
  | barwait (d : BitVec 6) (b : BitVec 5)  -- BARWAIT, R326
  | launch (d : BitVec 6) (a : BitVec 6)  -- LAUNCH, R316
  | spawn (a : BitVec 6) (b : BitVec 6)  -- SPAWN, R330
  | joinc  -- JOINC, R321
  | xacq (w : BitVec 4)  -- XACQ, R332
  | xrel (w : BitVec 4)  -- XREL, R332
  | schussOff  -- SCHUSS_OFF, R340
  | schussOn  -- SCHUSS_ON, R340
  | schussBud (n : BitVec 16)  -- SCHUSS_BUD, R340
  | schussOffV2  -- SCHUSS_OFF_V2, R54
  | schussOnV2  -- SCHUSS_ON_V2, R54
  | schussBudV2 (n : BitVec 16)  -- SCHUSS_BUD_V2, R54
  | sysrd (d : BitVec 6) (n : BitVec 12)  -- SYSRD, R404
  | syswr (d : BitVec 6) (n : BitVec 12)  -- SYSWR, R404
  | trap (n : BitVec 12)  -- TRAP, R407
  | tret  -- TRET, R396
  | dclk (d : BitVec 6)  -- DCLK, R405
  | brk (n : BitVec 12)  -- BRK, R408
  | nopScalar (x : BitVec 6) (y : BitVec 14)  -- NOP, R74
  | prefL1 (a : BitVec 6) (i : BitVec 14)  -- PREF_L1, R74
  | prefSl (a : BitVec 6) (i : BitVec 14)  -- PREF_SL, R74
  | prefTr (a : BitVec 6) (i : BitVec 14)  -- PREF_TR, R74
  | shintSkip (x : BitVec 6) (y : BitVec 14)  -- SHINT_SKIP, R75
  | nopLane (w : LaneWord)  -- NOP_LANE, R61
  | mov (w : LaneWord)  -- MOV, R115
  | tidx (w : LaneWord)  -- TIDX, R115
  | addI32 (w : LaneWord)  -- ADD_I32, R115
  | subI32 (w : LaneWord)  -- SUB_I32, R115
  | mulI32 (w : LaneWord)  -- MUL_I32, R115
  | mulhS32 (w : LaneWord)  -- MULH_S32, R115
  | mulhZ32 (w : LaneWord)  -- MULH_Z32, R115
  | minS32 (w : LaneWord)  -- MIN_S32, R115
  | minZ32 (w : LaneWord)  -- MIN_Z32, R115
  | maxS32 (w : LaneWord)  -- MAX_S32, R115
  | maxZ32 (w : LaneWord)  -- MAX_Z32, R115
  | absS32 (w : LaneWord)  -- ABS_S32, R115
  | negS32 (w : LaneWord)  -- NEG_S32, R115
  | andB32 (w : LaneWord)  -- AND_B32, R115
  | orB32 (w : LaneWord)  -- OR_B32, R115
  | xorB32 (w : LaneWord)  -- XOR_B32, R115
  | andnB32 (w : LaneWord)  -- ANDN_B32, R115
  | notB32 (w : LaneWord)  -- NOT_B32, R115
  | shlB32 (w : LaneWord)  -- SHL_B32, R115
  | shrZ32 (w : LaneWord)  -- SHR_Z32, R115
  | shrS32 (w : LaneWord)  -- SHR_S32, R115
  | popcB32 (w : LaneWord)  -- POPC_B32, R115
  | clzB32 (w : LaneWord)  -- CLZ_B32, R115
  | brevB32 (w : LaneWord)  -- BREV_B32, R115
  | cmpEqI32 (w : LaneWord)  -- CMP_EQ_I32, R116
  | cmpNeI32 (w : LaneWord)  -- CMP_NE_I32, R116
  | cmpLtS32 (w : LaneWord)  -- CMP_LT_S32, R116
  | cmpLeS32 (w : LaneWord)  -- CMP_LE_S32, R116
  | cmpLtZ32 (w : LaneWord)  -- CMP_LT_Z32, R116
  | cmpLeZ32 (w : LaneWord)  -- CMP_LE_Z32, R116
  | addF32 (w : LaneWord)  -- ADD_F32, R135
  | subF32 (w : LaneWord)  -- SUB_F32, R135
  | mulF32 (w : LaneWord)  -- MUL_F32, R135
  | minF32 (w : LaneWord)  -- MIN_F32, R137
  | maxF32 (w : LaneWord)  -- MAX_F32, R137
  | cmpEqF32 (w : LaneWord)  -- CMP_EQ_F32, R138
  | cmpLtF32 (w : LaneWord)  -- CMP_LT_F32, R138
  | cmpLeF32 (w : LaneWord)  -- CMP_LE_F32, R138
  | addF16x2 (w : LaneWord)  -- ADD_F16X2, R136
  | subF16x2 (w : LaneWord)  -- SUB_F16X2, R136
  | mulF16x2 (w : LaneWord)  -- MUL_F16X2, R136
  | minF16x2 (w : LaneWord)  -- MIN_F16X2, R137
  | maxF16x2 (w : LaneWord)  -- MAX_F16X2, R137
  | addBf16x2 (w : LaneWord)  -- ADD_BF16X2, R136
  | subBf16x2 (w : LaneWord)  -- SUB_BF16X2, R136
  | mulBf16x2 (w : LaneWord)  -- MUL_BF16X2, R136
  | minBf16x2 (w : LaneWord)  -- MIN_BF16X2, R137
  | maxBf16x2 (w : LaneWord)  -- MAX_BF16X2, R137
  | classF32 (w : LaneWord)  -- CLASS_F32, R139
  | rcpF32 (w : LaneWord)  -- RCP_F32, R141
  | rsqF32 (w : LaneWord)  -- RSQ_F32, R141
  | sqrtF32 (w : LaneWord)  -- SQRT_F32, R141
  | ex2F32 (w : LaneWord)  -- EX2_F32, R141
  | lg2F32 (w : LaneWord)  -- LG2_F32, R141
  | sinF32 (w : LaneWord)  -- SIN_F32, R141
  | cosF32 (w : LaneWord)  -- COS_F32, R141
  | tanhF32 (w : LaneWord)  -- TANH_F32, R141
  | cvtF32S32 (w : LaneWord)  -- CVT_F32_S32, R144
  | cvtS32F32 (w : LaneWord)  -- CVT_S32_F32, R144
  | cvtF32Z32 (w : LaneWord)  -- CVT_F32_Z32, R144
  | cvtZ32F32 (w : LaneWord)  -- CVT_Z32_F32, R144
  | cvtF16x2F32 (w : LaneWord)  -- CVT_F16X2_F32, R144
  | cvtBf16x2F32 (w : LaneWord)  -- CVT_BF16X2_F32, R144
  | pand (w : LaneWord)  -- PAND, R122
  | por (w : LaneWord)  -- POR, R122
  | pxor (w : LaneWord)  -- PXOR, R122
  | pandn (w : LaneWord)  -- PANDN, R122
  | madI32 (w : LaneWord)  -- MAD_I32, R117
  | mulhMadS32 (w : LaneWord)  -- MULH_MAD_S32, R117
  | fshRB32 (w : LaneWord)  -- FSH_R_B32, R118
  | fshLB32 (w : LaneWord)  -- FSH_L_B32, R118
  | bfeZ32 (w : LaneWord)  -- BFE_Z32, R119
  | bfeS32 (w : LaneWord)  -- BFE_S32, R119
  | bfiB32 (w : LaneWord)  -- BFI_B32, R119
  | selB32 (w : LaneWord)  -- SEL_B32, R120
  | dot4S8 (w : LaneWord)  -- DOT4_S8, R121
  | dot4Z8 (w : LaneWord)  -- DOT4_Z8, R121
  | dot2S16 (w : LaneWord)  -- DOT2_S16, R121
  | dot2Z16 (w : LaneWord)  -- DOT2_Z16, R121
  | cmpI32 (w : LaneWord)  -- CMP_I32, R116
  | fmaF32 (w : LaneWord)  -- FMA_F32, R135
  | cmpF32 (w : LaneWord)  -- CMP_F32, R138
  | rndF32 (w : LaneWord)  -- RND_F32, R140
  | fmaF16x2 (w : LaneWord)  -- FMA_F16X2, R135
  | fmaBf16x2 (w : LaneWord)  -- FMA_BF16X2, R135
  | cmpF16x2 (w : LaneWord)  -- CMP_F16X2, R138
  | cmpBf16x2 (w : LaneWord)  -- CMP_BF16X2, R138
  | rndF16x2 (w : LaneWord)  -- RND_F16X2, R140
  | rndBf16x2 (w : LaneWord)  -- RND_BF16X2, R140
  | cvt (w : LaneWord)  -- CVT, R146
  | qpack (w : LaneWord)  -- QPACK, R149
  | qpackScale (w : LaneWord)  -- QPACK_SCALE, R149
  | qunpkF32 (w : LaneWord)  -- QUNPK_F32, R150
  | voteAny (w : LaneWord)  -- VOTE_ANY, R124
  | voteAll (w : LaneWord)  -- VOTE_ALL, R124
  | ballot (w : LaneWord)  -- BALLOT, R125
  | firstThread (w : LaneWord)  -- FIRST, R126
  | smpl (w : LaneWord)  -- SMPL, R151
  | randB32 (w : LaneWord)  -- RAND_B32, R152
  | randCoF32 (w : LaneWord)  -- RAND_CO_F32, R152
  | randOcF32 (w : LaneWord)  -- RAND_OC_F32, R152
  | randV1v2 (w : LaneWord)  -- RAND_V1V2, R54
  | ldLane (w : LaneWord)  -- LD_LANE, R262
  | ldVer (w : LaneWord)  -- LD_VER, R264
  | stLane (w : LaneWord)  -- ST_LANE, R262
  | atomLane (w : LaneWord)  -- ATOM_LANE, R262
  | casLane (w : LaneWord)  -- CAS_LANE, R262
  | ll (w : LaneWord)  -- LL, R265
  | sc (w : LaneWord)  -- SC, R265
  | bra (w : LaneWord)  -- BRA, R299
  | brx (w : LaneWord)  -- BRX, R299
  | lend (w : LaneWord)  -- LEND, R300
  | exitLane (w : LaneWord)  -- EXIT_LANE, R300
  | prefL1Lane (w : LaneWord)  -- PREF_L1_LANE, R73
  | prefSlLane (w : LaneWord)  -- PREF_SL_LANE, R73
  | prefTrLane (w : LaneWord)  -- PREF_TR_LANE, R73
  | shintSkipLane (w : LaneWord)  -- SHINT_SKIP_LANE, R75
  | lanePairedWord (a b : ShortOp)  -- LANE_PAIRED_WORD, R68
  | unassignedLaneHint (op : BitVec 10) (w : LaneWord)  -- UNASSIGNED_LANE_HINT, R74
  | issueSelect (core : Nat) (lane : Bool)  -- ISSUE_SELECT, R334
  | grantWindow (core : Nat)  -- GRANT_WINDOW, R341
  | issueBoost (core group : Nat)  -- ISSUE_BOOST, R307
  | pathSwitch (core group : Nat)  -- PATH_SWITCH, R305
  | pauseExpiry (core group : Nat)  -- PAUSE_EXPIRY, R269
  | waitlnTimeout (core group : Nat)  -- WAITLN_TIMEOUT, R268
  | loadValueReturn (core op : Nat)  -- LOAD_VALUE_RETURN, R256
  | loadJudgedLong (core op : Nat)  -- LOAD_JUDGED_LONG, R336
  | schussEntry (core group : Nat) (lane : Bool)  -- SCHUSS_ENTRY, R337
  | schussBudgetExpiry (core group : Nat)  -- SCHUSS_BUDGET_EXPIRY, R339
  | asyncUncorrectableDelivery (core group : Nat)  -- ASYNC_UNCORRECTABLE_DELIVERY, R411
  | spawnTimerExpiry (core bin : Nat)  -- SPAWN_TIMER_EXPIRY, R41
  | spawnBinLaunch (core bin : Nat)  -- SPAWN_BIN_LAUNCH, R41
  | teamPlacement (part grid team core : Nat)  -- TEAM_PLACEMENT, R319
  | teamRetirement (core : Nat)  -- TEAM_RETIREMENT, R39
  | gridLeasingComplete (part grid : Nat)  -- GRID_LEASING_COMPLETE, R366
  | gridRetirement (part grid : Nat)  -- GRID_RETIREMENT, R318
  | matrixCommandStart (core : Nat)  -- MATRIX_COMMAND_START, R161
  | matrixCommandComplete (core units : Nat)  -- MATRIX_COMMAND_COMPLETE, R161
  | copyComplete (core copy units : Nat)  -- COPY_COMPLETE, R277
  | faultRecordWritten (part : Nat)  -- FAULT_RECORD_WRITTEN, R399
  | collectiveMeet (part coll : Nat)  -- COLLECTIVE_MEET, R281
  | messageArrival (idx : Nat)  -- MESSAGE_ARRIVAL, R286
  | messageRetry (idx : Nat)  -- MESSAGE_RETRY, R287
  | messageDrop (idx : Nat)  -- MESSAGE_DROP, R289
  | semaphoreIncrement (idx : Nat)  -- SEMAPHORE_INCREMENT, R323
  | semwaitListRetry (core group : Nat)  -- SEMWAIT_LIST_RETRY, R324
  | noonRelease (part ctx : Nat)  -- NOON_RELEASE, R326
  | routerHomeBoundRead (idx : Nat)  -- ROUTER_HOME_BOUND_READ, R226
  | routerSteeredRead (idx : Nat)  -- ROUTER_STEERED_READ, R227
  | routerReadReply (idx : Nat)  -- ROUTER_READ_REPLY, R228
  | routerWriteRequest (idx : Nat)  -- ROUTER_WRITE_REQUEST, R230
  | routerUpgrade (idx : Nat)  -- ROUTER_UPGRADE, R230
  | routerInvalidation (idx : Nat)  -- ROUTER_INVALIDATION, R231
  | routerCut (idx : Nat)  -- ROUTER_CUT, R235
  | routerAck (idx : Nat)  -- ROUTER_ACK, R231
  | routerDataAck (idx : Nat)  -- ROUTER_DATA_ACK, R231
  | routerPrune (idx : Nat)  -- ROUTER_PRUNE, R234
  | routerGrant (idx : Nat)  -- ROUTER_GRANT, R232
  | anchorWriteBack (idx : Nat)  -- ANCHOR_WRITE_BACK, R234
  | anchorAtomic (line : Nat)  -- ANCHOR_ATOMIC, R233
  | l1SteeredRead (idx : Nat)  -- L1_STEERED_READ, R225
  | l1Invalidation (idx : Nat)  -- L1_INVALIDATION, R225
  | requesterFill (idx : Nat)  -- REQUESTER_FILL, R228
  | writerGrant (idx : Nat)  -- WRITER_GRANT, R232
  | endToEndRetransmission (idx : Nat)  -- END_TO_END_RETRANSMISSION, R242
  | hostCxlMemRead (port hpa size : Nat)  -- HOST_CXL_MEM_READ, R244
  | hostCxlMemWrite (port hpa : Nat) (bytes : List Byte)  -- HOST_CXL_MEM_WRITE, R244
  | hostSnoop (line : Nat)  -- HOST_SNOOP, R244
  | hostLineResponse (line : Nat) (data : Option Line)  -- HOST_LINE_RESPONSE, R244
  | remotePanelRequest (part link tile : Nat) (excl : Bool)  -- REMOTE_PANEL_REQUEST, R247
  | remotePanelRecall (part tile : Nat)  -- REMOTE_PANEL_RECALL, R246
  | remoteTileResponse (part tile : Nat) (excl : Bool) (lines : List Line)  -- REMOTE_TILE_RESPONSE, R246
  | translationWalkComplete (idx : Nat)  -- TRANSLATION_WALK_COMPLETE, R362
  | translationInvalidation (part pasid va len : Nat)  -- TRANSLATION_INVALIDATION, R369
  | shootdown (part shot core : Nat)  -- SHOOTDOWN, R372
  | shootdownAck (part shot core : Nat)  -- SHOOTDOWN_ACK, R372
  | migrate (part pasid va hpa : Nat)  -- MIGRATE, R370
  | migrationBackgroundPull (part mig : Nat)  -- MIGRATION_BACKGROUND_PULL, R371
  | revoke (part pasid va len : Nat)  -- REVOKE, R368
  | regrant (part pasid va len : Nat)  -- REGRANT, R368
  | leaseServiced (part grid page : Nat)  -- LEASE_SERVICED, R366
  | leaseUnserviceable (part grid page : Nat)  -- LEASE_UNSERVICEABLE, R366
  | mgmtLaunch (part region pasid lpb : Nat)  -- MGMT_LAUNCH, R312
  | poolMove (die cls : Nat)  -- POOL_MOVE, R320
  | hopStopBegin (die : Nat)  -- HOP_STOP_BEGIN, R320
  | hopStopEnd (die : Nat)  -- HOP_STOP_END, R320
  | hopRetry (die : Nat)  -- HOP_RETRY, R347
  | stepBoundary (region : Nat)  -- STEP_BOUNDARY, R344
  | droopDetect (region : Nat)  -- DROOP_DETECT, R346
  | droopClear (region : Nat)  -- DROOP_CLEAR, R346
  | thermalSample (temps : SMap Byte)  -- THERMAL_SAMPLE, R348
  | preempt (part grid : Nat) (team : Option Nat)  -- PREEMPT, R401
  | preemptComplete (part grid team : Nat)  -- PREEMPT_COMPLETE, R401
  | restore (part grid team : Nat) (core : Option Nat)  -- RESTORE, R403
  | selfTestStart (unit : UnitId) (kind : ErrorKind) (bad : List BadWord)  -- SELF_TEST_START, R410
  | selfTestComplete (unit : UnitId) (result : TestResult)  -- SELF_TEST_COMPLETE, R410
  | linkCrcRetry (idx : Nat)  -- LINK_CRC_RETRY, R409
  | dieReset (die : Nat)  -- DIE_RESET, R413
  | dieResetForce (die : Nat)  -- DIE_RESET_FORCE, R413
  | deviceStart (report : StartReport)  -- DEVICE_START, R415
  | partitionEnable (part : Nat) (v : BitVec 64)  -- PARTITION_ENABLE, R374
  | partitionDisable (part : Nat)  -- PARTITION_DISABLE, R379
  | scrubComplete (part : Nat)  -- SCRUB_COMPLETE, R379
  | partedgeWrite (part : Nat) (v : BitVec 64)  -- PARTEDGE_WRITE, R374
  | panapWrite (part k : Nat) (v : BitVec 64)  -- PANAP_WRITE, R374
  | pcwaysWrite (site : Nat) (v : BitVec 64)  -- PCWAYS_WRITE, R377
  | pcvalWrite (site : Nat) (v : BitVec 32)  -- PCVAL_WRITE, R250
  | nbctlArm (part ctx : Nat) (v : BitVec 32)  -- NBCTL_ARM, R328
  | fqcfgWrite (part : Nat) (v : BitVec 64)  -- FQCFG_WRITE, R397
  | fqheadWrite (part : Nat) (v : BitVec 32)  -- FQHEAD_WRITE, R399
  | cfgrantGo (part : Nat) (v : BitVec 64)  -- CFGRANT_GO, R422
  | featenWrite (v : BitVec 256)  -- FEATEN_WRITE, R417
  | curfewStop (part : Nat)  -- CURFEW_STOP, R420
  | watchpointReport (part wp : Nat) (write : Bool) (cls region : Nat)  -- WATCHPOINT_REPORT, R421
  | mgmtRegisterWrite (reg : MgmtReg) (v : BitVec 64)  -- MGMT_REGISTER_WRITE, R376
  | getVersion (port : Nat)  -- GET_VERSION, R383
  | getCapabilities (port : Nat)  -- GET_CAPABILITIES, R383
  | negotiateAlgorithms (port : Nat) (offer : SpdmOffer)  -- NEGOTIATE_ALGORITHMS, R383
  | getDigests (port : Nat)  -- GET_DIGESTS, R383
  | getCertificate (port slot : Nat)  -- GET_CERTIFICATE, R383
  | challenge (port : Nat) (nonce : List Byte)  -- CHALLENGE, R383
  | getMeasurements (port index : Nat) (nonce : List Byte) (sign : Bool)  -- GET_MEASUREMENTS, R384
  | keyExchange (port : Nat) (share : List Byte)  -- KEY_EXCHANGE, R383
  | finishSession (session : Nat) (ok : Bool)  -- FINISH, R383
  | heartbeat (session : Nat)  -- HEARTBEAT, R383
  | keyUpdate (session : Nat)  -- KEY_UPDATE, R383
  | endSession (session : Nat)  -- END_SESSION, R383
  | bindSession (session part : Nat)  -- BIND, R385
  | keyset (session slot : Nat) (key : BitVec 256)  -- KEYSET, R385
  | keyclr (session slot : Nat)  -- KEYCLR, R385
  | illegalInstruction (lane : Bool) (slot : Nat)  -- ILLEGAL_INSTRUCTION, R57
  | taskEnd (part grid : Nat)  -- TASK_END, R368
  | copyAccessFault (core copy : Nat)  -- COPY_ACCESS_FAULT, R272
  | partfarWrite (part : Nat) (v : BitVec 64)  -- PARTFAR_WRITE, R374
  | ctxareaWrite (part : Nat) (v : BitVec 64)  -- CTXAREA_WRITE, R402
  deriving DecidableEq, Repr

end Sys2Proof
end

