-- ==== Sys2Proof/Machine/State.lean ====
section
/-! DEFINITION. The state of the Kralis as plain data: everything INVENTORY.md's '## State' lists, the reasons a run can
stop, and the state right after reset. Tables absent of a key hold the default its accessor names (Machine/Ops.lean). -/

namespace Sys2Proof.Machine

open Sys2Proof

/-- Why the machine would stop. A fault of the Kralis itself (Table 20-1) is no such stop: it is taken as a next state. -/
inductive Fault where
  /-- Raised by nothing: the spec gives the machine no place at which it stops. Safe: no step is left out. -/
  | stuck
  deriving DecidableEq, Repr

/-- Why the model gives an instruction no meaning. -/
inductive Refusal where
  /-- Raised only by an arm of `exec` whose instruction has no meaning yet. Safe: nothing is proved of it. -/
  | notModelled (mnemonic : String)
  deriving DecidableEq, Repr

/-! ## The network, the trees and the caches (spec/10) -/

/-- A router's ports, in the order of Table 10-1. -/
inductive Port where
  | n | e | s | w | loc
  deriving DecidableEq, Repr

/-- The states of a Piste entry that is not free (Table 10-1). -/
inductive EntryState where
  | stable | tearing | cutting
  deriving DecidableEq, Repr

/-- The states of an L1 line that is present; I is absence (R225). -/
inductive Moesi where
  | m | o | e | s
  deriving DecidableEq, Repr

/-- Who makes requests: a core, the DCC of a compute die, a host port or a panel link (R224, R242). -/
inductive Requester where
  | core (n : Nat)
  | dcc (n : Nat)
  | hostPort (n : Nat)
  | link (n : Nat)
  deriving DecidableEq, Repr

/-- How a packet goes round a site out of service (R414): not at all, along y first, or along another row. -/
inductive Detour where
  | none
  | yFirst
  | row (y : Nat)
  | col (x : Nat)
  deriving DecidableEq, Repr

/-- Where a message is: in a router's input buffer, with the port it came in by; or at the endpoints behind a site's
local port. -/
inductive Loc where
  | router (site : Nat) (port : Port)
  | site (site : Nat)
  deriving DecidableEq, Repr

inductive MsgKind where
  | homeRead | steered | reply | writeReq | upgrade | opReq | grant | opResp
  | inval | cut | ack | dataAck | prune | writeBack | written
  deriving DecidableEq, Repr

/-- Operations executed at an anchor (R233, R259), and the uncached accesses of a team without an L1 (R188). -/
inductive AnchorOpKind where
  | read | write | atom (op : Nat) | cas | sc
  deriving DecidableEq, Repr

structure AnchorOp where
  kind : AnchorOpKind
  addr : Nat
  size : Nat
  data : BitVec 128
  cmp : BitVec 64
  prom : Bool
  deriving DecidableEq, Repr

structure Msg where
  kind : MsgKind
  line : Nat
  part : Nat
  loc : Loc
  ready : Nat                       -- link cycle from which it may be handled (R17)
  req : Requester
  txn : Nat
  seq : BitVec 16 := 0              -- R242
  data : Option Line := none
  excl : Bool := false              -- a reply that carries E (R226)
  fillOnce : Bool := false          -- R229
  prefetch : Bool := false
  keep : Bool := false              -- keep flag of an invalidation (R231)
  drain : Bool := false             -- drain flag of a promoted teardown (R248)
  counts : Bool := false            -- a data ack that counts (R231)
  det : Detour := .none             -- the detour it is on (R414)
  trail : List (Nat × Port) := []   -- steered path back to the catching router (R228), nearest first
  op : Option AnchorOp := none
  result : BitVec 128 := 0
  waiting : Bool := false           -- a request that had to wait where it stands (R222, R239, R240)
  edge : Bool := false              -- on its way between the rectangle and a panel link or host port that holds the line (R186)
  deriving DecidableEq, Repr

/-- A Piste cache entry that is not free (Table 10-1), with the teardown bookkeeping of R231, R235 and R237. -/
structure Entry where
  set : Nat
  way : Nat
  line : Nat
  part : Nat
  mask : BitVec 5
  root : Port
  state : EntryState
  stamp : Nat                       -- recency within the set: higher is more recent
  keep : Option Port := none
  awaited : List Port := []
  folded : Bool := false
  answer : List Port := []          -- ports owed an ack when the teardown completes (R237)
  cutFor : Option (Requester × Nat) := none   -- the transaction for which it is cut as a victim (R236)
  edge : Bool := false              -- its teardown is between the rectangle and a panel link or host port (R186)
  deriving DecidableEq, Repr

/-- One absorbed read of a merge entry (R239). -/
structure Absorbed where
  port : Port
  req : Requester
  txn : Nat
  prefetch : Bool
  deriving DecidableEq, Repr

structure Merge where
  line : Nat
  part : Nat
  req : Requester
  txn : Nat
  port : Port
  isRead : Bool
  cleared : Bool := false           -- a teardown passed: the leading read is fill-once (R239)
  absorbed : List Absorbed := []
  deriving DecidableEq, Repr

structure Router where
  entries : List Entry := []
  merges : List Merge := []
  pcval : BitVec 32 := 0
  pcways : BitVec 64 := 0
  pcvalNext : Option (BitVec 32) := none    -- a write that takes effect when its cuts are complete (R250)
  pcwaysNext : Option (BitVec 64) := none   -- and one of PCWAYS (R377)
  badWays : List Nat := []
  deriving DecidableEq, Repr

/-- The request an anchor is working on for a line (R222), and the line a data ack brought. -/
structure AnchorTxn where
  line : Nat
  msg : Msg
  data : Option Line
  success : Bool                    -- for SC: the reservation was held when the anchor took the request (R265)
  keep : Option Port
  deriving DecidableEq, Repr

/-- A result kept for a retransmitted request (R243). -/
structure DupResult where
  home : Nat                        -- the slice, or the anchor's atomic unit, whose window it is in
  req : Requester
  seq : BitVec 16
  part : Nat
  result : BitVec 128
  at_ : Nat
  deriving DecidableEq, Repr

/-- A request without a response yet (R242). -/
structure Outstanding where
  msg : Msg
  sent : Nat
  held : Option Msg := none         -- not sent yet: its requester's window is full (R242)
  deriving DecidableEq, Repr

/-- A line a host port or panel link holds as a proxy holder (R244, R247). -/
structure Proxy where
  req : Requester
  line : Nat
  state : Moesi
  data : Line
  deriving DecidableEq, Repr

inductive TileState where
  | s | x
  deriving DecidableEq, Repr

structure SliceLine where
  line : Nat
  set : Nat
  way : Nat
  rrpv : Nat
  deriving DecidableEq, Repr

/-- A release at team scope or below whose earlier writes a core may still hold: accesses numbered below `upTo` precede it; and the
word that made it (R248, R392). -/
structure RelNote where
  upTo : Nat
  group : Nat
  lane : Bool
  pc : Nat
  deriving DecidableEq, Repr

/-- Replacement state of a shared slice (R189-R191). -/
structure Slice where
  lines : List SliceLine := []
  psel : SMap Nat := []
  brrip : SMap Nat := []
  badWays : List Nat := []
  deriving DecidableEq, Repr

structure L1Line where
  line : Nat
  set : Nat
  state : Moesi
  data : Line
  rel : Bool := false               -- release bit (R248)
  relAt : Nat := 0                  -- accesses numbered below this precede the release
  relBy : Option RelNote := none    -- the release that set the bit: of several, the last (R392)
  deriving DecidableEq, Repr

/-- A watch entry (R268): the word it waits on within the line, the value expected there, and its copy of the line. -/
structure Watch where
  line : Nat
  group : Nat
  armed : Bool
  since : Nat
  off : Nat := 0
  expect : Word := 0
  data : Line := 0
  va : Nat := 0
  deriving DecidableEq, Repr

inductive MissKind where
  | read | write | upgrade | op (acc : Nat) | watch (group : Nat)
  deriving DecidableEq, Repr

/-- A transaction a core has in flight for one line. -/
structure Miss where
  line : Nat
  txn : Nat
  kind : MissKind
  prefetch : Bool := false
  dead : Bool := false              -- an invalidation met it (R225, last row)
  leader : Nat := 0                 -- the access that requested it (R229)
  va : Nat := 0                     -- the virtual address it was requested by, which gives the L1's set (R188)
  swept : Bool := false             -- the sweep of its upgrade has passed the die (R231)
  deriving DecidableEq, Repr

/-- A prefetch that waits in its core's injection queue (R241). -/
structure PrefReq where
  id : Nat
  group : Nat
  fence : Nat                       -- the last fence of its group before it
  line : Nat
  va : Nat
  deriving DecidableEq, Repr

/-- A translation held in a translation cache (R364): page base and size as powers of two. -/
structure Tlb where
  pasid : Nat
  vpage : Nat                       -- its first 4 KiB page
  size : Nat := 1                   -- 4 KiB pages it covers (R362)
  deriving DecidableEq, Repr

/-! ## Groups (spec/02, spec/13, spec/14, spec/20) -/

inductive OpKind where
  | ld | st | atom | cas | ll | sc | ldver | seminc
  deriving DecidableEq, Repr

/-- Where a load's value goes: nowhere, scalar registers, vector registers, or registers of the lane view. -/
inductive Dest where
  | none
  | sregs (n words : Nat)
  | vregs (n words : Nat)
  | view (n words : Nat)
  deriving DecidableEq, Repr

/-- The orders and scopes of R254, as codes. -/
structure Attr where
  order : Nat                       -- 0 rlx, 1 acq, 2 rel, 3 acqrel
  scope : Nat                       -- 0 group .. 5 sys, 6 promoted
  deriving DecidableEq, Repr

/-- The fences a group has executed: accesses numbered from here on stand behind the last fence (R241), the last release fence at team
scope or below, and the last at team scope (R211, R248), with the words of the last two; 0: none. -/
structure FenceMark where
  last : Nat := 0
  rel : Nat := 0
  relPc : Nat := 0
  team : Nat := 0
  teamPc : Nat := 0
  deriving DecidableEq, Repr

/-- One issued memory instruction that has not completed (R267). -/
structure PendOp where
  id : Nat
  group : Nat
  lane : Bool
  kind : OpKind
  dest : Dest
  width : Nat
  sext : Bool
  threads : Mask
  uni : Bool
  attr : Attr
  issued : Nat
  pc : Nat
  long : Bool := false
  decided : Bool := false           -- the Schuss decision for it was taken (R337)
  sem : Bool := false               -- a semtst, which R336 does not name among the loads judged long
  fences : FenceMark := {}          -- the fences of its group before it
  deriving DecidableEq, Repr

inductive AccState where
  | queued                          -- waits for its line
  | sent                            -- its own request is in flight
  | done
  deriving DecidableEq, Repr

/-- One thread's access of a pending operation. -/
structure Access where
  id : Nat
  op : Nat
  thread : Nat
  kind : OpKind
  va : Nat
  hpa : Nat
  size : Nat
  data : BitVec 128 := 0
  cmp : BitVec 64 := 0
  aop : Nat := 0
  prom : Bool := false
  state : AccState
  value : BitVec 128 := 0
  deriving DecidableEq, Repr

structure PathEntry where
  join : Bool
  lpc : Nat
  mask : Mask
  rpc : Option Nat
  deriving DecidableEq, Repr

/-- The lane stream of a group (R28, R297). The current path's mask is the view's s61 to s63. -/
structure LaneState where
  running : Bool := false
  started : Bool := false           -- a stream was started since the last LJOIN
  suspended : Bool := false         -- TSTAT.L
  lpc : Nat := 0
  rpc : Option Nat := none
  view : SMap Word := []
  written : List Nat := []
  stack : List PathEntry := []
  ended : Mask := 0                 -- live threads that executed lend (R300)
  offSince : Option Nat := none     -- since when the lowest runnable thread is off the path (R305)
  offHeld : Nat := 0                -- what the timer had counted when the stream was suspended
  hold : Nat := 0
  fps : BitVec 5 := 0
  fenceAt : Option Nat := none      -- accesses numbered below it are waited for by a release (R209)
  gathered : Option Nat := none     -- the selected word gathers its bank reads: the grants it has (R341)
  maskOwed : Bool := false          -- a load into the current path's mask is outstanding: the path neither ends nor switches (R298)
  deriving DecidableEq, Repr

structure TrapRegs where
  tvec : Word := 0
  h : Bool := false
  tepc : Word := 0
  tlpc : Word := 0xFFFFFFFF#32
  tcause : Word := 0
  taddr : BitVec 57 := 0
  tmask : Mask := 0
  deriving DecidableEq, Repr

structure Reservation where
  line : Nat
  atAnchor : Bool
  deriving DecidableEq, Repr

/-- The state a Schuss episode checkpoints (R337). -/
structure Checkpoint where
  sregs : SMap Word
  preds : SMap Mask
  vregs : SMap (List Word)
  spc : Word
  lane : LaneState
  deriving DecidableEq, Repr

structure Episode where
  lane : Bool
  op : Nat
  start : Nat
  saved : Checkpoint
  invS : List Nat := []             -- scalar (or view) registers marked invalid
  invP : SMap Mask := []
  invV : SMap Mask := []
  renamed : List Nat := []
  blocks : Nat := 1
  deriving DecidableEq, Repr

/-- What a blocked scalar instruction waits on (Table 2-3), with what it must remember until it is issued again. -/
inductive Wait where
  | none
  | operand
  | counts
  | sem (line : Nat)
  | bar (b : Nat)
  | waitln (line since : Nat)
  | pause (until_ : Nat)
  | joinc (kids : List Nat)         -- the child grids launched before it issued (R321)
  | xacq
  | spawn (key arg : Word)
  | launch
  | queue
  | scoreboard
  | fence
  | lend
  | retire
  | walk (done : Bool)              -- loc.home waits for a walker (R22); done once it has answered
  deriving DecidableEq, Repr

/-- The slot states of Table 2-3 but Free (absence), Schuss (an episode is present) and Saved (the team is saved). -/
inductive SlotState where
  | ready | issuing | blocked | exiting
  deriving DecidableEq, Repr

structure Group where
  live : Mask
  sregs : SMap Word
  preds : SMap Mask := []
  vregs : SMap (List Word) := []
  windows : BitVec 4 := 0
  spc : Word
  lane : LaneState := {}
  fps : BitVec 5 := 0
  trap : TrapRegs := {}
  skip : Bool := false
  schussOn : Bool
  budget : BitVec 16
  episode : Option Episode := none
  age : Nat
  readySince : Option Nat := none       -- since when the scalar stream has had an instruction ready (R307)
  laneReadySince : Option Nat := none   -- and the lane stream
  boosted : Option Nat := none
  born : Nat := 0                   -- asynchronous operations numbered from here on are its own; an earlier group of the slot issued the others
  state : SlotState := .ready
  wait : Wait := .none
  resv : SMap Reservation := []
  arrived : List Nat := []          -- barriers with a pending arrival
  acquiring : List Nat := []        -- operations whose acquire half later accesses wait for
  fenceAt : Option Nat := none      -- accesses numbered below it are waited for by a release of the scalar stream (R209)
  fences : FenceMark := {}
  heard : Nat := 0                  -- writes of the core numbered below it may precede, by an acquire or a fence, what the group does now (R214)
  deriving DecidableEq, Repr

/-! ## Teams (spec/02, spec/07, spec/11) -/

inductive MatKind where
  | mma | mlb | mdrain | acccpySt | acccpyLd
  deriving DecidableEq, Repr

/-- A matrix command with every value read at issue (R157, R163). -/
structure MatCmd where
  kind : MatKind
  pair : Bool
  tile : Nat
  z : Bool
  int : Bool
  loc : Bool
  sem : Option Nat
  group : Nat
  pc : Word
  addr : Nat
  shape : Word
  block : List Byte
  emul : Bool
  after : Nat                       -- accesses of the core numbered below it precede the command
  chunk : Nat := 0
  running : Bool := false
  withheld : Bool := false
  deriving DecidableEq, Repr

inductive CopyKind where
  | d1 | d2 | gather | seal | aon | ver | replay
  deriving DecidableEq, Repr

/-- A copy in flight: the descriptor as read at issue (Table 11-3), and how far it has come. -/
structure Copy where
  id : Nat
  kind : CopyKind
  ft : Bool
  desc : Nat
  src : Nat
  dst : Nat
  len : Nat
  n : Nat
  sstride : Nat
  dstride : Nat
  aux : Nat
  nonce : BitVec 64
  flags : Word
  sem : Option Nat
  group : Nat
  pc : Word
  key : Option (BitVec 256) := none
  todo : Option (List Nat) := none          -- the sectors it writes; none: all (R275, R276)
  units : Nat := 0
  written : Nat := 0
  parked : List Nat := []
  index : List Nat := []                    -- .gather: its index list, read at issue (R272)
  faults : List (Nat × Nat) := []           -- faulting granule, sectors it parks (R400)
  posted : Option Nat := none               -- its records are raised: their sequence numbers are below this one (R399)
  odd : Option (BitVec 64) := none          -- .aon: the version word it turned odd
  buffer : List Byte := []
  entry : Option (Nat × Nat) := none        -- scoreboard range [lo, hi] (R194)
  deriving DecidableEq, Repr

inductive CollOp where
  | radd | bcast | agath
  deriving DecidableEq, Repr

structure Coll where
  id : Nat
  op : CollOp
  type : Nat
  cores : List Nat
  core : Nat
  team : Nat
  grid : Nat
  buf : Nat
  out : Nat
  len : Nat
  root : Nat
  desc : Nat
  sem : Option Nat
  group : Nat
  pc : Word
  after : Nat                       -- accesses of the core numbered below it precede it
  deriving DecidableEq, Repr

structure Recv where
  sem : Option Nat
  buf : Nat
  pat : Word
  group : Nat
  pc : Word
  after : Nat                       -- accesses of the core numbered below it precede it
  deriving DecidableEq, Repr

/-- A message held in the overflow queue (R287): its entry and its header; the bytes stand in scratch. -/
structure QMsg where
  slot : Nat
  src : Nat
  len : Nat
  tag : Nat
  deriving DecidableEq, Repr

structure Bin where
  key : Word
  args : List Word
  since : Nat
  due : Nat                         -- when its timer expires (R41, R331)
  expired : Bool := false
  deriving DecidableEq, Repr

/-- One entry of the B-store source record (R179): the linear B-store ranges written (address, length), and what to replay,
or that the bytes are saved by value. -/
structure SrcEntry where
  segs : List (Nat × Nat)
  cmd : Option MatCmd
  copy : Option Copy
  upper : Bool := false             -- the core held columns 64 to 127 of a `.pair` command
  byValue : Bool := false
  deriving DecidableEq, Repr

structure TeamBar where
  gen : Word := 0
  arrived : List Nat := []
  deriving DecidableEq, Repr

/-- Team states (R48). A team in Placing stands on no core yet: `teamStateOf` says which are. -/
inductive TeamState where
  | placing | resident | draining | saving | saved
  deriving DecidableEq, Repr

/-- A fault of an asynchronous operation, which waits for its group's next scalar instruction: uncorrectable data (R411), or a
check that a collective issued again after a restore fails (R282). -/
structure AsyncErr where
  group : Nat
  pc : Word
  code : Nat
  desc : Word := 0
  after : Nat := 0                  -- the number of its operation
  deriving DecidableEq, Repr

structure Team where
  part : Nat
  grid : Nat
  index : Nat
  state : TeamState := .resident
  base : Nat
  l1 : Nat                          -- the L1 share in bytes
  tilesN : Nat
  groups : SMap Group
  scratch : List Host.Cell := []
  tiles : SMap Word := []           -- key 4096·tile + 64·row + column
  ovf : BitVec 8 := 0
  queue : List MatCmd := []
  srcRec : List SrcEntry := []
  partner : Option Nat := none      -- the partner's team index (R155)
  copies : List Copy := []
  colls : List Coll := []
  recvs : List Recv := []
  qmsgs : List QMsg := []
  overflowed : Bool := false
  bins : SMap Bin := []
  children : List Nat := []
  bars : SMap TeamBar := []
  xacq : SMap (BitVec 4) := []      -- waiting window requests by group (R34)
  bad : List BadWord := []
  asyncErr : List AsyncErr := []
  lastCore : Nat := 0
  stood : List Nat := []            -- cores it was moved off because they were retired (R353)
  savedB : List (Nat × Byte) := []  -- B-store bytes saved by value
  deriving DecidableEq, Repr

/-! ## Cores, dies, regions -/

structure Sched where
  elig : SMap (BitVec 48) := []
  stall : SMap (BitVec 48) := []
  deriving DecidableEq, Repr

structure Core where
  team : Option Team := none
  retired : Bool := false
  testing : Bool := false
  l1 : List L1Line := []            -- most recently used first
  misses : List Miss := []
  ops : List PendOp := []
  accs : List Access := []
  watches : List Watch := []
  rels : SMap RelNote := []         -- lines written by a release at team scope or below (R218)
  prefs : List PrefReq := []        -- prefetches that wait in the injection queue (R241)
  tlb : List Tlb := []              -- most recently used first
  bstore : List Host.Cell := []     -- key 32768·slice + offset
  spwcfg : BitVec 16 := 250#16
  scalarSched : Sched := {}
  laneSched : Sched := {}
  laneBusy : Nat := 0
  scalarBusy : Nat := 0             -- when the scalar scheduler may issue again: one instruction a cycle (R334)
  winStart : Nat := 0
  winLeft : Nat := 64
  winServed : List Nat := []
  winGrants : Nat := 0              -- grants given in the current step (R344)
  stepAmps : Nat := 0               -- amperes of the core's array if it executed a command in the current step (R344)
  emul : BitVec 64 := 0
  deriving DecidableEq, Repr

inductive Cls where
  | economy | nominal | sprint
  deriving DecidableEq, Repr

/-- A clock hop under way (R320, R347): the target pool, the step it is in, and its stop or retry time. -/
structure Hop where
  target : Cls
  step : Nat
  time : Nat
  aborts : Nat := 0
  aborted : Bool := false
  retry : Nat := 0                  -- when an aborted hop is retried (R347)
  deriving DecidableEq, Repr

structure Die where
  cls : Cls := .nominal
  hop : Option Hop := none
  closed : Bool := false
  asked : Bool := false             -- a reset is asked for: its teams are being saved (R413)
  retired : Bool := false
  tlb : List Tlb := []
  reset : Option Nat := none        -- under reset since (R413)
  forced : Bool := false
  deriving DecidableEq, Repr

structure HotReg where
  core : Nat := 0
  temp : Byte := 0
  valid : Bool := false
  deriving DecidableEq, Repr

/-- Power state of a region that is kept per partition (R344). -/
structure PowerPart where
  iest : Nat := 0
  stepRate : Nat := 64
  bound : Bool := false
  startsLeft : Nat := 0             -- amperes of starts that still fit in this step
  rate : Nat := 64
  stepViol : Byte := 0              -- STEPVIOL of PWREVT (R345, R378)
  evt : BitVec 24 := 0              -- DROOPS and HOPABORTS of PWREVT as the partition reads and writes them (R351, R378)
  hot : HotReg := {}                -- the hottest engine among the partition's cores of the region
  deriving DecidableEq, Repr

structure Region where
  pwrcfg : BitVec 32 := 0x00840000#32
  thermcfg : BitVec 32 := 0x00002069#32
  pwrevt : BitVec 24 := 0           -- DROOPS and HOPABORTS as system software reads them
  droop : Bool := false
  droopAt : Nat := 0
  stepAt : Nat := 0                 -- the last step boundary handled, in steps of corrected time (R344)
  restore : Bool := false           -- DROOP has cleared; RATE returns at the next step boundary (R346)
  therm : Bool := false
  power : SMap PowerPart := []
  hot : HotReg := {}                -- over every partition
  deriving DecidableEq, Repr

/-! ## Grids, partitions and system software -/

structure Lease where
  base : Nat
  len : Nat
  r : Bool
  w : Bool
  revoked : Bool := false
  deriving DecidableEq, Repr

/-- The fields of a kernel header that outlive the LAUNCH (Table 3-1); offsets and sizes in bytes. -/
structure Header where
  version : Nat
  baseDemand : Nat
  windowDemand : Nat
  scalarOff : Nat
  laneOff : Nat
  constOff : Nat
  dataOff : Nat
  scalarSize : Nat
  laneSize : Nat
  dataSize : Nat
  deriving DecidableEq, Repr

inductive GridState where
  | leasing | placing | running | ended | retired
  deriving DecidableEq, Repr

structure Grid where
  seq : Nat
  depth : Nat
  parent : Option (Nat × Nat)       -- parent grid and team index
  task : Nat
  pasid : Nat
  image : Nat
  hdr : Header
  entry : Word
  teams : Nat
  groups : Nat
  base : Nat
  l1 : Nat
  tiles : Nat
  cls : Cls
  prio : Nat
  regions : BitVec 16
  pair : Bool
  schuss : Bool
  budget : BitVec 16
  key : BitVec 64
  lpb : Nat
  parentSem : Option Nat
  statusAt : Option Nat
  leases : List Lease
  state : GridState
  status : BitVec 64 := 0
  nextTeam : Nat := 0               -- teams below it have been placed
  retired : Nat := 0                -- teams that have retired
  region : Nat := 0                 -- the region whose launch unit took it (R313)
  leaseReqs : List Nat := []        -- pages posted as lease requests
  pinned : List Nat := []           -- first pages of the pins this grid holds
  dropped : Bool := false           -- its pins have given up their references (R367)
  revoked : Bool := false           -- a lease of it is revoked: its teams stay Saved (R368)
  imageRevoked : Bool := false      -- its image lease is among the revoked
  lost : List (Nat × Nat) := []     -- revoked page ranges that have not been re-granted: first page, pages
  regrant : List (Nat × Nat) := []  -- page ranges that are being pinned again (R368)
  used : List Nat := []             -- cores on which a team of it has been placed (R319)
  deriving DecidableEq, Repr

/-- An entry of the pin table (R366): the first 4 KiB page of a host page, how many it has, its frame, and what it permits. -/
structure Pin where
  pasid : Nat
  page : Nat
  size : Nat := 1
  frame : Nat
  w : Bool
  refs : Nat
  broken : Bool := false
  deriving DecidableEq, Repr

structure Migration where
  pasid : Nat
  page : Nat
  old : Nat
  new : Nat
  valid : BitVec 32 := 0
  installed : Bool := false
  shot : Nat := 0
  deriving DecidableEq, Repr

structure Shootdown where
  id : Nat
  pasid : Nat
  page : Nat
  pages : Nat
  toVisit : List Nat                -- cores whose agent has not removed the entries
  toAck : List (Nat × List Nat)     -- cores that wait for these accesses
  deriving DecidableEq, Repr

/-- A fault record (Table 20-2). -/
structure Record where
  code : Nat
  ends : Bool := false
  lane : Bool := false
  uni : Bool := false
  promo : Bool := false
  slot : Nat := 2
  thread : Nat := 127
  aux : Word := 0
  dc : BitVec 64 := 0
  core : Nat := 0
  group : Nat := 0
  region : Nat := 0
  team : Nat := 0
  grid : Nat := 0
  pc : Word := 0
  addr : BitVec 57 := 0
  mask : Mask := 0
  desc : Word := 0
  pasid : Nat := 0
  part : Nat := 0
  seq : Nat := 0
  deriving DecidableEq, Repr

/-- What the copy engine keeps with a 0x30 record for a later grant (R422). -/
structure ParkRec where
  seq : Nat
  task : Nat
  pasid : Nat
  page : Nat
  srcLo : Nat
  srcLen : Nat
  dstLo : Nat
  dstLen : Nat
  deriving DecidableEq, Repr

structure Granted where
  task : Nat
  page : Nat
  r : Bool
  w : Bool
  deriving DecidableEq, Repr

/-- A participant of a Noon context whose team is being saved or is Saved (R327, R353): which team, the core it left, and whether that
core takes part in the generation under way and in those after it. -/
structure NoonSaved where
  grid : Nat
  team : Nat
  core : Nat
  cur : Bool
  nxt : Bool
  deriving DecidableEq, Repr

structure Noon where
  addr : BitVec 57 := 0
  armed : Bool := false
  armErr : Bool := false
  gen : Word := 0
  pasid : BitVec 20 := 0
  mask : List Nat := []
  next : List Nat := []             -- participants from the next generation on
  arrived : List Nat := []
  begun : Bool := false             -- a group has arrived for the generation by `bararr` (log 30)
  saved : List NoonSaved := []      -- participants whose team is being saved or is Saved
  deriving DecidableEq, Repr

structure KeySlot where
  key : BitVec 256
  session : Nat
  deriving DecidableEq, Repr

structure TraceRec where
  dc : BitVec 64
  region : Nat
  event : Nat
  core : Nat
  a : Nat
  b : Nat
  deriving DecidableEq, Repr

structure Watchpoint where
  base : Nat := 0
  limit : Nat := 0
  read : Bool := false
  write : Bool := false
  stop : Bool := false
  deriving DecidableEq, Repr

/-- An access at a slice that a watchpoint has matched, until it is reported: by its requester's class and region alone (R421). -/
structure WpHit where
  part : Nat
  wp : Nat
  write : Bool
  cls : Nat
  region : Nat
  stop : Bool                       -- the watchpoint's action is the debug stop
  deriving DecidableEq, Repr

/-- A saved context (Table 20-3): the team as it stood, and the bytes its context takes. -/
structure Saved where
  team : Team
  bytes : Nat
  heldFor : Option UnitId := none   -- the unit test it waits out (R410)
  deriving DecidableEq, Repr

/-- A pre-emption that system software asked for and that is not complete (R401): teams still to be saved, and how many it
named. -/
structure SaveReq where
  grid : Nat
  teams : List Nat
  count : Nat
  deriving DecidableEq, Repr

/-- A revocation under way (R368): the range in bytes, and its shootdown, which begins once its teams are saved. -/
structure Revocation where
  pasid : Nat
  base : Nat
  len : Nat
  shot : Nat
  grids : List Nat                  -- the grids that hold a lease over the range
  deriving DecidableEq, Repr

/-- An all-or-nothing store whose task ended while its version word was odd: what is still to be written, in order, with the even
version word last (R197). -/
structure AonRest where
  core : Nat
  id : Nat
  writes : List (Nat × List Byte)   -- physical address and bytes
  deriving DecidableEq, Repr

structure Partition where
  cfg : BitVec 64 := 0
  far : BitVec 64 := 0
  edge : BitVec 64 := 0
  aps : SMap (BitVec 64) := []
  active : Bool := false
  scrub : Bool := false
  scrubCfg : BitVec 64 := 0         -- PARTCFG and PARTFAR as they stood when the scrub began (R379)
  scrubFar : BitVec 64 := 0
  err : BitVec 4 := 0
  fqcfg : BitVec 64 := 0
  fqhead : BitVec 16 := 0
  fqtail : BitVec 16 := 0
  ctxarea : BitVec 64 := 0
  records : List Record := []       -- raised, not yet written to the ring
  recSeq : Nat := 0
  parkRecs : List ParkRec := []
  granted : List Granted := []
  grant : BitVec 64 := 0            -- CFGRANT
  granting : Option Nat := none     -- the record whose granule is being granted: CFGRANT is busy (R422)
  noon : SMap Noon := []
  keys : SMap KeySlot := []
  pins : List Pin := []
  migs : List Migration := []
  shots : List Shootdown := []
  revs : List Revocation := []
  grids : List Grid := []
  nextGrid : Nat := 0
  saved : List Saved := []
  aons : List AonRest := []         -- stores that outlive their task (R197)
  saves : List SaveReq := []
  hotid : HotReg := {}
  stopped : Bool := false           -- Curfew, or R411
  noPlace : Bool := false           -- places nothing more (R411)
  trc : BitVec 64 := 0
  trcFull : Bool := false
  trace : List TraceRec := []       -- recorded, not yet written to the ring
  trcNext : Nat := 0                -- records written to the ring
  curfew : BitVec 64 := 0
  dbg : Bool := false
  wps : SMap Watchpoint := []
  deriving DecidableEq, Repr

/-- A message between cores that has not been placed or queued (R286-R289). -/
structure Message where
  id : Nat := 0
  src : Nat
  dst : Nat
  tag : Nat
  payload : List Byte
  sem : Option Nat
  part : Nat
  task : Nat
  grid : Nat
  team : Nat
  group : Nat
  pc : Word
  ready : Nat
  refused : Option Nat := none
  deriving DecidableEq, Repr

/-- An increment on its way to its word's anchor (R323), translated when it was made. -/
structure SemInc where
  id : Nat
  part : Nat
  pasid : Nat
  va : Nat
  hpa : Nat
  by_ : Word
  core : Option Nat                 -- the core that makes it; none: a launch unit
  grid : Nat
  team : Option Nat                 -- the team that does not retire before it (R39)
  after : Nat := 0                  -- accesses of the core numbered below it precede it (R158, R214)
  op : Option (Nat × Nat) := none   -- the seminc it completes: core and operation
  tileOf : Option Nat := none       -- a matrix command's, of this group: it leaves the tile-operation count with it (R161)
  retires : Bool := false           -- a grid's retirement increment: the grid's leases are released after it (R318)
  deriving DecidableEq, Repr

structure SemWait where
  hpa : Nat
  target : Word
  core : Nat
  group : Nat
  listed : Bool                     -- in the anchor's pending list, or still to gain an entry (R324)
  tried : Nat
  deriving DecidableEq, Repr

structure Walk where
  core : Nat
  group : Option Nat := none        -- the group whose loc.home waits for it
  pasid : Nat
  va : Nat
  part : Nat
  deriving DecidableEq, Repr

/-- SPDM sessions and connections (R383-R386). -/
structure Session where
  id : Nat
  port : Nat
  secure : Bool := false
  key : BitVec 256 := 0             -- its AEAD key (R383)
  bound : Option Nat := none
  deriving DecidableEq, Repr

structure Spdm where
  version : List Nat := []          -- host ports that have negotiated a version
  caps : List Nat := []
  algs : List Nat := []
  sessions : List Session := []
  nextId : Nat := 0
  deriving DecidableEq, Repr

/-- What the device answers to system software and to SPDM requesters. -/
inductive Reply where
  | status (v : Nat)
  | refused
  | data (b : List Byte)
  | spdmVersion (v : Nat)
  | spdmCapabilities
  | spdmAlgorithms (accepted : Bool)
  | digests (b : List Byte)
  | certificate (b : List Byte)
  | signed (contents : List Byte) (leaf : Nat) (signature : List Byte)
  | measurement (index : Nat) (digest : List Byte)
  | session (id : Nat)
  | busy
  | unspecified
  | ack
  | anchorOp (op : AnchorOp)        -- an atomic, CAS or SC for the anchor on another panel (R246)
  deriving DecidableEq, Repr

structure ErrRegs where
  trans : BitVec 32 := 0
  last : BitVec 16 := 0
  lastRec : BitVec 64 := 0          -- MERRLAST
  deriving DecidableEq, Repr

structure StartRegs where
  warm : Bool := false
  keep : Bool := false
  kind : Bool := false              -- last start: false cold, true warm
  fstep : Nat := 0
  forced : Bool := false
  mustCold : Bool := false
  deriving DecidableEq, Repr

/-- Which stream executes: core, group, lane stream or scalar stream; the word's own address; and whether the words it
reads hold an uncorrectable error (R411, log 9). -/
structure Cursor where
  core : Nat := 0
  group : Nat := 0
  lane : Bool := false
  deriving DecidableEq, Repr

/-- Who moves at a turn: a stream issues its next word (`bad`: it reads an uncorrectable word), or a step without an
encoding takes place. -/
inductive Who where
  | issue (core group : Nat) (lane bad : Bool)
  | event (e : Instr)
  deriving DecidableEq, Repr

/-- One turn of the agenda: `dt` link cycles pass, then `who` moves (log 1). -/
structure Turn where
  dt : Nat
  who : Who
  deriving DecidableEq, Repr

structure State where
  now : Nat
  agenda : List Turn
  cursor : Nat
  fresh : Nat
  cur : Cursor
  mem : List Host.Cell
  dcBase : SMap (BitVec 64)
  dcOff : SMap (BitVec 8)
  featCap : BitVec 256
  featEn : BitVec 256
  featLocked : Bool
  merr : ErrRegs
  start : StartRegs
  nvRetired : List UnitId
  fuseRetired : List UnitId
  flagged : List UnitId
  testing : List UnitId
  leaf : Nat
  leafFuses : Nat
  minVersion : BitVec 32
  image : FwImage                   -- the firmware image as authenticated at this start (R384)
  spdm : Spdm
  outbox : List Reply
  regions : SMap Region
  dies : SMap Die
  cores : SMap Core
  routers : SMap Router
  slices : SMap Slice
  parts : SMap Partition
  net : List Msg
  anchors : List AnchorTxn
  outstanding : List Outstanding
  seqs : SMap (BitVec 16)
  dups : List DupResult
  proxies : List Proxy
  hostLines : SMap Bool
  hostReqs : SMap Bool
  tiles : SMap TileState
  tileReqs : SMap Bool
  incs : List SemInc
  semWaits : List SemWait
  msgs : List Message
  walks : List Walk
  wpHits : List WpHit
  pasids : SMap Nat
  hot : HotReg
  deriving DecidableEq, Repr

/-- The machine right after a cold start (R415, R416): every register at its stated reset value, every die Nominal (R16),
no partition enabled, no grid, empty caches and queues. Values the spec does not state: log 3. Memory: log 2.
(DESIGN CHOICE, log 3; DESIGN CHOICE, log 50.) -/
def State.reset : State where
  now := 0
  agenda := []
  cursor := 0
  fresh := 1
  cur := {}
  mem := []
  dcBase := []
  dcOff := []
  featCap := 0x3F#256
  featEn := 0
  featLocked := false
  merr := {}
  start := {}
  nvRetired := []
  fuseRetired := []
  flagged := []
  testing := []
  leaf := 0
  leafFuses := 0
  minVersion := 0
  image := {}
  spdm := {}
  outbox := []
  regions := []
  dies := []
  cores := []
  routers := []
  slices := []
  parts := []
  net := []
  anchors := []
  outstanding := []
  seqs := []
  dups := []
  proxies := []
  hostLines := []
  hostReqs := []
  tiles := []
  tileReqs := []
  incs := []
  semWaits := []
  msgs := []
  walks := []
  wpHits := []
  pasids := []
  hot := {}

end Sys2Proof.Machine
end

