-- ==== Sys2Proof/Machine/Geom.lean ====
section
/-! DEFINITION. Where things are: sites, dies and regions (R7, R9), routes and bands (R18, R19), partitions' rectangles and
windows (R376), tiers and homes (R183-R187, R245), and the accessors of the state's tables. -/

namespace Sys2Proof.Machine

open Sys2Proof

/-! ## Sites (R7, R9, R13). A site (x, y) is the number 32 y + x. -/

def siteX (n : Nat) : Nat := n % 32
def siteY (n : Nat) : Nat := n / 32
def siteNo (x y : Nat) : Nat := 32 * y + x
def isComputeSite (n : Nat) : Bool := (siteX n + siteY n) % 2 == 0
/-- The site of compute die d. -/
def dieSite (d : Nat) : Nat := siteNo (2 * (d % 16) + d / 16 % 2) (d / 16)
/-- The site of memory site ms. -/
def msSite (ms : Nat) : Nat := siteNo (2 * (ms % 16) + (1 - ms / 16 % 2)) (ms / 16)
/-- The number a site's die or memory site has. -/
def unitOfSite (n : Nat) : Nat := siteY n * 16 + siteX n / 2
def regionOfSite (n : Nat) : Nat := siteY n / 4 * 4 + siteX n / 8
def dieOf (core : Nat) : Nat := core / 32
def coreSite (core : Nat) : Nat := dieSite (dieOf core)
def coreRegion (core : Nat) : Nat := regionOfSite (coreSite core)
def dieCores (d : Nat) : List Nat := upFrom (32 * d) 32
/-- The other core of a matrix pair. -/
def pairOf (core : Nat) : Nat := if core % 2 = 0 then core + 1 else core - 1
def hostPortSite (n : Nat) : Nat := siteNo (4 * n + 2) 0
/-- The site of panel link n (Table 1-2). -/
def linkSite (n : Nat) : Nat :=
  let k := n % 8
  match n / 8 with
  | 0 => siteNo (4 * k) 0
  | 1 => siteNo 31 (2 * k + 1)
  | 2 => siteNo (29 - 4 * k) 15
  | _ => siteNo 0 (15 - 2 * k)

/-- GiB a far-memory site drives, 0 for any other memory site (R12). -/
def farGiB (ms : Nat) : Nat :=
  let x := siteX (msSite ms)
  let y := siteY (msSite ms)
  if x ≤ 1 || 30 ≤ x then 192 else if (y = 0 || y = 15) && 8 ≤ x && x ≤ 23 then 128 else 0

/-- Region boundaries a packet crosses between regions g and h. -/
def regionHops (g h : Nat) : Nat :=
  (if g % 4 ≤ h % 4 then h % 4 - g % 4 else g % 4 - h % 4) + (if g / 4 ≤ h / 4 then h / 4 - g / 4 else g / 4 - h / 4)

def dist (a b : Nat) : Nat := if a ≤ b then b - a else a - b

/-- The latency band from a core to a site (R19). -/
def bandTo (core site : Nat) : Nat :=
  let c := coreSite core
  if c = site || dist (siteX c) (siteX site) + dist (siteY c) (siteY site) = 1 then 0
  else match regionHops (regionOfSite c) (regionOfSite site) with
    | 0 => 1
    | 1 => 2
    | _ => 3

def GiB : Nat := 2 ^ 30

/-! ## The state's tables -/

def getCore (s : State) (c : Nat) : Core := mget {} s.cores c
def setCore (s : State) (c : Nat) (k : Core) : State := { s with cores := mput s.cores c k }
def modCore (s : State) (c : Nat) (f : Core → Core) : State := setCore s c (f (getCore s c))
def teamOf (s : State) (c : Nat) : Option Team := (getCore s c).team
def modTeam (s : State) (c : Nat) (f : Team → Team) : State := modCore s c fun k => { k with team := k.team.map f }
def groupIn (t : Team) (g : Nat) : Option Group := mget? t.groups g
def groupOf (s : State) (c g : Nat) : Option Group := (teamOf s c).bind fun t => groupIn t g
def setGroup (s : State) (c g : Nat) (v : Group) : State := modTeam s c fun t => { t with groups := mput t.groups g v }
def modGroup (s : State) (c g : Nat) (f : Group → Group) : State :=
  modTeam s c fun t => match mget? t.groups g with
    | some v => { t with groups := mput t.groups g (f v) }
    | none => t
def getPart (s : State) (p : Nat) : Partition := mget {} s.parts p
def setPart (s : State) (p : Nat) (v : Partition) : State := { s with parts := mput s.parts p v }
def modPart (s : State) (p : Nat) (f : Partition → Partition) : State := setPart s p (f (getPart s p))
def gridOf (s : State) (p q : Nat) : Option Grid := (getPart s p).grids.find? fun g => g.seq == q
def modGrid (s : State) (p q : Nat) (f : Grid → Grid) : State :=
  modPart s p fun v => { v with grids := v.grids.map fun g => if g.seq = q then f g else g }
def getDie (s : State) (d : Nat) : Die := mget {} s.dies d
def modDie (s : State) (d : Nat) (f : Die → Die) : State := { s with dies := mput s.dies d (f (getDie s d)) }
def getRegion (s : State) (g : Nat) : Region := mget {} s.regions g
def modRegion (s : State) (g : Nat) (f : Region → Region) : State :=
  { s with regions := mput s.regions g (f (getRegion s g)) }
def getRouter (s : State) (n : Nat) : Router := mget {} s.routers n
def modRouter (s : State) (n : Nat) (f : Router → Router) : State :=
  { s with routers := mput s.routers n (f (getRouter s n)) }
def getSlice (s : State) (n : Nat) : Slice := mget {} s.slices n
def modSlice (s : State) (n : Nat) (f : Slice → Slice) : State := { s with slices := mput s.slices n (f (getSlice s n)) }

/-- Link cycles per core cycle of a class (Table 1-3). -/
def clsDiv (c : Cls) : Nat := match c with | .economy => 5 | .nominal => 4 | .sprint => 3
def clsOf (n : Nat) : Cls := match n with | 0 => .economy | 1 => .nominal | _ => .sprint
def clsCode (c : Cls) : Nat := match c with | .economy => 0 | .nominal => 1 | .sprint => 2
/-- Link cycles per core cycle of a core's die. -/
def coreDiv (s : State) (core : Nat) : Nat := clsDiv (getDie s (dieOf core)).cls

/-- The Dayclock of region g: ticks of 0.8 ns, 4 link cycles each (R349). -/
def dayclock (s : State) (g : Nat) : BitVec 64 := mget 0 s.dcBase g + BitVec.ofNat 64 (s.now / 4)

/-! ## Partitions (R376) -/

def cfgX0 (v : Partition) : Nat := fld v.cfg.toNat 0 5
def cfgY0 (v : Partition) : Nat := fld v.cfg.toNat 5 4
def cfgX1 (v : Partition) : Nat := fld v.cfg.toNat 9 5
def cfgY1 (v : Partition) : Nat := fld v.cfg.toNat 14 4
def cfgEn (v : Partition) : Bool := bit v.cfg.toNat 18
def nearBase (v : Partition) : Nat := fld v.cfg.toNat 32 22 * GiB
def farBase (v : Partition) : Nat := fld v.far.toNat 0 22 * GiB
def hpMask (v : Partition) : Nat := fld v.edge.toNat 0 8
def lnkMask (v : Partition) : Nat := fld v.edge.toNat 32 32

/-- The numbers of the 1 bits among the low n bits, rising. -/
def onesOf (n w : Nat) : List Nat := (List.range n).filter fun i => bit w i

def hostPorts (v : Partition) : List Nat := onesOf 8 (hpMask v)

def inRect (v : Partition) (site : Nat) : Bool :=
  cfgX0 v ≤ siteX site && siteX site ≤ cfgX1 v && cfgY0 v ≤ siteY site && siteY site ≤ cfgY1 v

def rectSites (v : Partition) : List Nat := (List.range 512).filter fun n => inRect v n

/-- Memory sites of the rectangle in ascending MS, compute dies in ascending CD. -/
def memSites (v : Partition) : List Nat := (List.range 256).filter fun ms => inRect v (msSite ms)
def compDies (v : Partition) : List Nat := (List.range 256).filter fun d => inRect v (dieSite d)
def farSites (v : Partition) : List Nat := (memSites v).filter fun ms => farGiB ms != 0
def farSites192 (v : Partition) : List Nat := (memSites v).filter fun ms => farGiB ms == 192

/-- Memory sites, and far-memory sites by kind, of a rectangle, counted without listing them. -/
def nearSize (v : Partition) : Nat := (memSites v).length * (3 * GiB)
def farSize1 (v : Partition) : Nat := (farSites v).length * (128 * GiB)
def farSize (v : Partition) : Nat := farSize1 v + (farSites192 v).length * (64 * GiB)

/-- A panel aperture register's base, size in bytes and link list (R376). -/
def apBase (r : BitVec 64) : Nat := fld r.toNat 0 22 * GiB
def apSize (r : BitVec 64) : Nat := fld r.toNat 22 8 * (64 * GiB)
def apLinks (r : BitVec 64) : List Nat := onesOf 32 (fld r.toNat 32 32)

def inRange (a base size : Nat) : Bool := base ≤ a && a < base + size

def inNear (v : Partition) (h : Nat) : Bool := inRange h (nearBase v) (nearSize v)
def inFar (v : Partition) (h : Nat) : Bool := inRange h (farBase v) (farSize v)
def apOf (v : Partition) (h : Nat) : Option (BitVec 64) :=
  (mvals v.aps).find? fun r => inRange h (apBase r) (apSize r)

/-- A partition as it is laid out: while it scrubs, by the registers it had when the scrub began (R379). -/
def laid (v : Partition) : Partition := if v.scrub then { v with cfg := v.scrubCfg, far := v.scrubFar } else v

/-- The partition a site belongs to. -/
def partOfSite (s : State) (site : Nat) : Option Nat :=
  (s.parts.find? fun q => (cfgEn q.2 || q.2.scrub) && inRect (laid q.2) site).map (·.1)

/-- Whether a partition has a site in a region (R351). -/
def hasRegion (v : Partition) (g : Nat) : Bool := (List.range 512).any fun n => regionOfSite n == g && inRect v n

def partOfCore (s : State) (core : Nat) : Option Nat := partOfSite s (coreSite core)

/-- A window of the Kralis that belongs to another partition (Table 8-2). -/
def foreignWindow (s : State) (p h : Nat) : Bool :=
  s.parts.any fun q => q.1 != p && (cfgEn q.2 || q.2.scrub) && (inNear (laid q.2) h || inFar (laid q.2) h || (apOf q.2 h).isSome)

/-- The partition's context area (R397). -/
def inCtxArea (v : Partition) (h : Nat) : Bool :=
  inRange h (fld v.ctxarea.toNat 0 22 * GiB) (fld v.ctxarea.toNat 22 10 * GiB)

/-- The tier of host physical address h for partition p; none in another partition's window (R183). -/
def tierOf (s : State) (p h : Nat) : Option Nat :=
  let v := getPart s p
  if inNear v h then some 0
  else if inFar v h then some 1
  else if (apOf v h).isSome then some 3
  else if foreignWindow s p h then none
  else some 2

/-- The memory site, and the offset within it, of offset n in a window interleaved over a list (R184). -/
def interleave (l : List Nat) (n : Nat) : Nat × Nat :=
  let m := l.length
  let g := n / 4096
  (l.getD (g % m) 0, g / m * 4096 + n % 4096)

/-- The memory site that holds or drives a near or far line, with the site offset (R184, R185). -/
def memHome (v : Partition) (h : Nat) : Option (Nat × Nat) :=
  if inNear v h then some (interleave (memSites v) (h - nearBase v))
  else if inFar v h then
    let f := h - farBase v
    if f < farSize1 v then some (interleave (farSites v) f) else some (interleave (farSites192 v) (f - farSize1 v))
  else none

/-- Where the byte at a host physical address is kept, as an address of the model's memory: near and far lines at their place in
the DRAM or the LPDDR-6 of their site, whatever window shows it, above 2^52; every other line at its own address (R183 - R185).
(DESIGN CHOICE, log 2.) -/
def memKey (v : Partition) (h : Nat) : Nat :=
  match memHome v h with
  | some (ms, off) =>
    let part2 := !inNear v h && decide (farSize1 v ≤ h - farBase v)
    2 ^ 52 + ms * 2 ^ 40 + (if inNear v h then 0 else 2 ^ 39) + (if part2 then 128 * GiB else 0) + off
  | none => h

/-- The memory site that keeps a byte of the model's memory, if one does. -/
def memKeySite (a : Nat) : Option Nat := if 2 ^ 52 ≤ a then some ((a - 2 ^ 52) / 2 ^ 40) else none

/-- The number of the slice of its site, 0 to 7 (R184, R185). -/
def sliceIdx (v : Partition) (h : Nat) : Nat :=
  let n := if inNear v h then h - nearBase v else h - farBase v
  Nat.xor (fld n 7 3) (fld n 15 3)

/-- The site of the router that anchors a line (R222). -/
def anchorSite (s : State) (p h : Nat) : Nat :=
  let v := getPart s p
  match memHome v h with
  | some (ms, _) => msSite ms
  | none =>
    match apOf v h with
    | some r =>
      let ls := apLinks r
      linkSite (ls.getD ((h - apBase r) / 2048 % ls.length) 0)
    | none =>
      let ps := hostPorts v
      hostPortSite (ps.getD (h / 4096 % ps.length) 0)

/-- The slice of a near or far line, numbered 8 ms + k. -/
def sliceOf (v : Partition) (h : Nat) : Option Nat := (memHome v h).map fun q => 8 * q.1 + sliceIdx v h

/-- The key of a site in the table of dies: a compute die's number, or 256 and more for a memory site, whose router can be reset
too. -/
def siteKey (site : Nat) : Nat := if isComputeSite site then unitOfSite site else 256 + unitOfSite site

/-- Sites under reset: routes detour around their routers (R18, R413). -/
def routerDown (s : State) (site : Nat) : Bool := (getDie s (siteKey site)).reset.isSome

/-- The partition of the team on a core has been stopped by Curfew: nothing of the core moves (R420). -/
def coreStopped (s : State) (core : Nat) : Bool :=
  match teamOf s core with | some t => (getPart s t.part).stopped | none => false

/-- A die in the stop of a clock hop: messages for its L1s wait at its local port (R320). -/
def inHopStop (s : State) (d : Nat) : Bool := match (getDie s d).hop with | some h => h.step == 4 | none => false

/-- The neighbour of a site by a port (R9). -/
def neighbour (site : Nat) (p : Port) : Nat :=
  match p with
  | .n => site + 32
  | .s => site - 32
  | .e => site + 1
  | .w => site - 1
  | .loc => site

def opposite (p : Port) : Port := match p with | .n => .s | .s => .n | .e => .w | .w => .e | .loc => .loc

/-- The port towards a destination, first along x and then along y (R18). -/
def xyPort (a b : Nat) : Port :=
  if siteX a < siteX b then .e
  else if siteX b < siteX a then .w
  else if siteY a < siteY b then .n
  else if siteY b < siteY a then .s
  else .loc

/-- Bit of a port in an entry's mask (Table 10-1). -/
def portBit (p : Port) : Nat := match p with | .n => 0 | .e => 1 | .s => 2 | .w => 3 | .loc => 4
def portHas (m : BitVec 5) (p : Port) : Bool := m.getLsbD (portBit p)
def portAdd (m : BitVec 5) (p : Port) : BitVec 5 := m ||| (1#5 <<< portBit p)
def portDel (m : BitVec 5) (p : Port) : BitVec 5 := m &&& ~~~(1#5 <<< portBit p)
def allPorts : List Port := [.n, .e, .s, .w, .loc]
def meshPorts : List Port := [.n, .e, .s, .w]

/-- Whether a site has a neighbour by a port: the panel is 32 sites by 16. -/
def hasPort (site : Nat) (p : Port) : Bool :=
  match p with
  | .n => decide (siteY site < 15)
  | .s => decide (0 < siteY site)
  | .e => decide (siteX site < 31)
  | .w => decide (0 < siteX site)
  | .loc => false

/-- The next identifier is taken. -/
def bumpFresh (s : State) : State := { s with fresh := s.fresh + 1 }

end Sys2Proof.Machine
end

