-- ==== Sys2Proof/Machine/Net.lean ====
section
/-! DEFINITION. What the sharer-tree protocol (spec/10) is made of: messages and routes, Piste entries and their ways, merge
entries, L1 lines and their holders, storage and the slices' replacement state, and reads and writes of a quiet line. -/

namespace Sys2Proof.Machine

open Sys2Proof

/-- The base of the 128-byte line that holds address h. -/
def lineBase (h : Nat) : Nat := h / 128 * 128

/-! ## Routes (R17, R18, R414) -/

def requesterSite (r : Requester) : Nat :=
  match r with | .core c => coreSite c | .dcc d => dieSite d | .hostPort n => hostPortSite n | .link n => linkSite n

/-- The number of a requester (R242). -/
def requesterNo (r : Requester) : Nat :=
  match r with | .core c => c | .dcc d => 8192 + d | .hostPort n => 8448 + n | .link n => 8456 + n

/-- A router out of service: under reset or retired (R413, R414, Table 21-1). -/
def routerOut (s : State) (site : Nat) : Bool := routerDown s site || s.nvRetired.contains (.router site)

/-- A router that passes nothing any more: its reset has been forced, or it is retired (R413). -/
def routerDead (s : State) (site : Nat) : Bool := (getDie s (siteKey site)).forced || s.nvRetired.contains (.router site)

/-- The bank row that holds a line, unless it has been remapped to a spare row (Table 21-1). -/
def rowOf (s : State) (part line : Nat) : Option UnitId :=
  let key := memKey (getPart s part) line
  (memKeySite key).bind fun ms =>
    let u := UnitId.dramRow (msSite ms) (Config.dramRow (msSite ms) (key % 2 ^ 40))
    if s.nvRetired.contains u then none else some u

/-- The slice that serves a line, or the row of DRAM that holds it, is under test: requests to it wait (Table 21-1). -/
def homeTested (s : State) (part line : Nat) : Bool :=
  (s.testing.any fun u => match u with | .slice n => sliceOf (getPart s part) line == some n | _ => false) ||
    ((s.testing.any fun u => match u with | .dramRow .. => true | _ => false) &&
      (match rowOf s part line with | some u => s.testing.contains u | none => false))

/-- The port by which a packet on a detour leaves router `a` for `b`: along y first, or along a row until it is in b's column. -/
def detourPort (d : Detour) (a b : Nat) : Port :=
  let yTo := fun (y : Nat) => if siteY a < y then Port.n else .s
  match d with
  | .none => xyPort a b
  | .yFirst => if siteY a != siteY b then yTo (siteY b) else xyPort a b
  | .row y =>
    if siteX a = siteX b then xyPort a b
    else if siteY a != y then yTo y
    else if siteX a < siteX b then .e else .w
  | .col x =>
    if siteY a = siteY b then xyPort a b
    else if siteX a != x then (if siteX a < x then .e else .w)
    else yTo (siteY b)

/-- The sites a packet passes after `a` on its way. -/
def routePath : Nat → Detour → Nat → Nat → List Nat
  | 0, _, _, _ => []
  | k + 1, d, a, b =>
    if a = b then []
    else
      let c := neighbour a (detourPort d a b)
      c :: routePath k d c b

/-- Whether a way to `b` enters a site out of service before `b`. -/
def pathOut (s : State) (d : Detour) (a b : Nat) : Bool := (routePath 64 d a b).any fun n => routerOut s n && n != b

/-- The detour of a packet at `a` (R414): the one it is on while that is free, so that every message for a line goes one way; else
R18's route where it is free, the y-first one where that is, else the row to the north, or to the south at the rectangle's edge. Between
two sites of one column, where no row leads round, it is the column to the east, or to the west at the edge.
(DEDUCED, log 39.) -/
def detourOf (s : State) (part : Nat) (d : Detour) (a b : Nat) : Detour :=
  if d != .none && !pathOut s d a b then d
  else if !pathOut s .none a b then .none
  else if !pathOut s .yFirst a b then .yFirst
  else if siteX a = siteX b then .col (if siteX a + 1 ≤ cfgX1 (getPart s part) then siteX a + 1 else siteX a - 1)
  else .row (if siteY a + 1 ≤ cfgY1 (getPart s part) then siteY a + 1 else siteY a - 1)

/-- The port by which a packet for `b` leaves router `a`, and the detour it is then on. None while its next site is its destination
and out of service. -/
def nextPort (s : State) (part : Nat) (d : Detour) (a b : Nat) : Option (Port × Detour) :=
  if a = b then some (.loc, .none)
  else
    let e := detourOf s part d a b
    let p := detourPort e a b
    if routerOut s b && neighbour a p = b then none else some (p, e)

/-- Link cycles of one hop: 12 inside a region, at least 18 across a region boundary (R17). (DESIGN CHOICE, log 4.) -/
def hopTime (a b : Nat) : Nat := if regionOfSite a = regionOfSite b then 12 else 18

/-- A message put on the network at a place. -/
def post (s : State) (m : Msg) (l : Loc) (dt : Nat) : State :=
  { s with net := s.net ++ [{ m with loc := l, ready := s.now + dt, waiting := false }] }

/-- A message leaving router `site` by a port: to the next router, or to the endpoints behind the local port. -/
def hop (s : State) (m : Msg) (site : Nat) (p : Port) : State :=
  match p with
  | .loc => post s m (.site site) 0
  | _ => post s m (.router (neighbour site p) (opposite p)) (hopTime site (neighbour site p))

/-- A message entering the network from behind a site's local port. -/
def inject (s : State) (m : Msg) (site : Nat) : State := post s m (.router site .loc) 0

def dropMsg (s : State) (i : Nat) : State := { s with net := s.net.eraseIdx i }

def isRequest (k : MsgKind) : Bool :=
  match k with | .homeRead | .steered | .writeReq | .upgrade | .opReq => true | _ => false

/-- The requests an anchor takes one at a time, in the order in which they reach it (R222). -/
def forAnchor (k : MsgKind) : Bool := isRequest k && k != .steered

/-- The site of a place. -/
def siteOfLoc (l : Loc) : Nat := match l with | .router n _ => n | .site n => n

/-- The buffer slots that each router port reserves for a partition on the edge-access network (R377); an enabled partition has
from 1 to 32. -/
def edgeSlots (v : Partition) : Nat := if fld v.edge.toNat 8 8 = 0 then 1 else fld v.edge.toNat 8 8

/-- The site of a place, where it is a router. -/
def routerAt (l : Loc) : Option Nat := match l with | .router n _ => some n | .site _ => none

/-! ## Piste entries (R223, R236, R249, R250) -/

def entryAt (s : State) (site part line : Nat) : Option Entry :=
  (getRouter s site).entries.find? fun e => e.line == line && e.part == part

def putEntry (s : State) (site : Nat) (e : Entry) : State :=
  modRouter s site fun r =>
    { r with entries := r.entries.map fun q => if q.line = e.line ∧ q.part = e.part then e else q }

/-- The entry made the most recent of its set. -/
def touchEntry (s : State) (site : Nat) (e : Entry) : State := bumpFresh (putEntry s site { e with stamp := s.fresh })

/-- Way i as a value of PCWAYS assigns it: its owner, when it is used. -/
def wayIn (w : BitVec 64) (i : Nat) : Option Nat := if bit w.toNat (7 * i + 6) then some (fld w.toNat (7 * i) 6) else none

def wayOwner (r : Router) (i : Nat) : Option Nat := wayIn r.pcways i

/-- The PCVAL value of a router's registers as it applies to partition `part`: it constrains the owner of the site (R250). -/
def pcvalIn (s : State) (r : Router) (site part : Nat) : Option Nat :=
  if bit r.pcval.toNat 0 && inRect (getPart s part) site then some r.pcval.toNat else none

def pcvalOf (s : State) (site part : Nat) : Option Nat := pcvalIn s (getRouter s site) site part

/-- The ways that a router's registers give a partition, lowest first; `idle`: with those that are under test, which allocate
nothing (Table 21-1). -/
def waysIn (s : State) (r : Router) (site part : Nat) (idle : Bool) : List Nat :=
  let ws := (List.range 8).filter fun i =>
    wayOwner r i == some part && !r.badWays.contains i && (idle || !s.testing.contains (.pisteWay site i))
  match pcvalIn s r site part with
  | some v => let n := fld v 5 4; if n = 0 then ws else ws.take n
  | none => ws

/-- The ways a partition may use at a router. -/
def usableWays (s : State) (site part : Nat) : List Nat := waysIn s (getRouter s site) site part false

/-- Whether a router's registers give a partition a set and way, one under test among them. -/
def inUse (s : State) (r : Router) (site part set way : Nat) : Bool :=
  ((waysIn s r site part false).contains way || (waysIn s r site part true).contains way) &&
    (match pcvalIn s r site part with | some v => decide (8 ≤ fld v 1 4) || decide (set < 2 ^ fld v 1 4) | none => true)

/-- A router with the writes of PCVAL and PCWAYS that wait for their cuts in effect (R250, R377). -/
def nextRegs (r : Router) : Router :=
  { r with pcval := r.pcvalNext.getD r.pcval, pcways := r.pcwaysNext.getD r.pcways, pcvalNext := none, pcwaysNext := none }

/-- Whether a set and way that a partition uses goes out of use by the writes that wait. -/
def leaving (s : State) (r : Router) (site part set way : Nat) : Bool :=
  inUse s r site part set way && !inUse s (nextRegs r) site part set way

/-- A register measured at 0x40 + p has changed: every key slot is emptied and every session bound to p ends (R386). -/
def measuredChange (s : State) (p : Nat) : State :=
  { modPart s p fun v => { v with keys := [] } with
    spdm := { s.spdm with sessions := s.spdm.sessions.filter fun q => q.bound != some p } }

/-- The partitions that a value of PCWAYS names. -/
def namedBy (w : BitVec 64) : List Nat := ((List.range 8).flatMap fun i => (wayIn w i).toList).foldl addNew []

/-- PCWAYS of a router takes a new value, measured for every partition that the old or the new one names (R384, R386). -/
def setPcways (s : State) (site : Nat) (w : BitVec 64) : State :=
  let old := (getRouter s site).pcways
  if old = w then s
  else ((namedBy w).foldl addNew (namedBy old)).foldl measuredChange (modRouter s site fun r => { r with pcways := w })

/-- A write of PCVAL or PCWAYS takes effect once no entry is left in a set or way that it takes out of use (R250, R377). -/
def settleRouter (s : State) (site : Nat) : State :=
  let r := getRouter s site
  if (r.pcvalNext.isNone && r.pcwaysNext.isNone) || r.entries.any fun e => leaving s r site e.part e.set e.way then s
  else modRouter (setPcways s site (nextRegs r).pcways) site nextRegs

/-- An entry is freed; a write that waited for it takes effect. -/
def delEntry (s : State) (site part line : Nat) : State :=
  settleRouter (modRouter s site fun r => { r with entries := r.entries.filter fun q => !(q.line == line && q.part == part) }) site

/-- The set of a line at a router (R223), masked by PCVAL. -/
def pisteSet (s : State) (site part line : Nat) : Nat :=
  let x := Nat.xor (fld line 7 8) (fld line 15 8)
  match pcvalOf s site part with
  | some v => let k := fld v 1 4; if k < 8 then x % 2 ^ k else x
  | none => x

def isAnchor (s : State) (site part line : Nat) : Bool := anchorSite s part line == site

/-- The ports of an entry that lead to holders: at the anchor every set port, elsewhere every set port but the root. -/
def holderPorts (anchor : Bool) (e : Entry) : List Port :=
  allPorts.filter fun p => portHas e.mask p && (anchor || p != e.root)

/-! ## Merge entries (R239) -/

/-- Whether a router can record one more request of a partition: the site's owner owns the 16 entries of the merge table (R239, R375),
which no other partition's request reaches; the edge accesses of another partition record in the slots that partition has at the
router (R377), and at a router that nobody owns in its 16 entries. (DEDUCED, log 43.) -/
def mergeRoom (s : State) (site part : Nat) : Bool :=
  let v := getPart s part
  let l := (getRouter s site).merges
  let mine := (l.filter fun q => q.part == part).length
  if inRect v site then decide (mine < 16)
  else decide (mine < edgeSlots v) && (decide (l.length < 16) || s.parts.any fun p => p.2.active && inRect p.2 site)

def addMerge (s : State) (site : Nat) (m : Msg) (port : Port) (isRead : Bool) : State :=
  modRouter s site fun r => { r with
    merges := r.merges ++ [{ line := m.line, part := m.part, req := m.req, txn := m.txn, port := port, isRead := isRead }] }

/-- A new home-bound read of an absorbed read (R239). -/
def reissued (line part : Nat) (a : Absorbed) : Msg :=
  { kind := .homeRead, line := line, part := part, loc := .site 0, ready := 0, req := a.req, txn := a.txn, prefetch := a.prefetch }

/-- Absorbed reads issued again as home-bound reads at a router. -/
def reissueAll (s : State) (site line part : Nat) (l : List Absorbed) : State :=
  l.foldl (fun s a => post s (reissued line part a) (.router site a.port) 0) s

/-- A teardown message passes a router: its read merge entries for the line are cleared (R239). -/
def clearMerges (s : State) (site part line : Nat) : State :=
  let hit := fun (q : Merge) => q.line == line && q.part == part && q.isRead
  let l := ((getRouter s site).merges.filter hit).flatMap (·.absorbed)
  let s1 := modRouter s site fun r => { r with
    merges := r.merges.map fun q => if hit q then { q with cleared := true, absorbed := [] } else q }
  reissueAll s1 site line part l

/-! ## Messages of a teardown -/

def cutMsg (line part : Nat) (k : MsgKind) : Msg :=
  { kind := k, line := line, part := part, loc := .site 0, ready := 0, req := .core 0, txn := 0 }

def sendAll (s : State) (site : Nat) (ports : List Port) (m : Msg) : State :=
  ports.foldl (fun s p => hop s m site p) s

/-! ## L1 lines, watches and reservations -/

def l1Find (k : Core) (line : Nat) : Option L1Line := k.l1.find? fun l => l.line == line
def l1Put (k : Core) (l : L1Line) : Core := { k with l1 := l :: k.l1.filter fun q => q.line != l.line }
def l1Del (k : Core) (line : Nat) : Core := { k with l1 := k.l1.filter fun q => q.line != line }
/-- The line changed in place, keeping its recency. -/
def l1Set (k : Core) (l : L1Line) : Core := { k with l1 := k.l1.map fun q => if q.line = l.line then l else q }

/-- Whether an armed watch of a core holds the line, as an S holder (DEDUCED, log 15). -/
def armedWatch (k : Core) (line : Nat) : Bool := k.watches.any fun w => w.line == line && w.armed

/-- Whether a core holds a line: in its L1 or by a watch (R268). (DEDUCED, log 15.) -/
def coreHolds (k : Core) (line : Nat) : Bool := (l1Find k line).isSome || armedWatch k line

/-- Cores of a die that hold a line, lowest first. -/
def dieHolders (s : State) (die line : Nat) : List Nat := (dieCores die).filter fun c => coreHolds (getCore s c) line

def proxyAt (s : State) (site line : Nat) : Option Proxy :=
  s.proxies.find? fun q => requesterSite q.req == site && q.line == line

/-- Holders of a line behind a site's local port, the core `c` apart (R224). -/
def othersBehind (s : State) (c line : Nat) : Bool :=
  (dieHolders s (dieOf c) line).any (· != c) || (proxyAt s (coreSite c) line).isSome

/-! ## The edge-access network, and which message may be handled (R186, R222, R240, R377) -/

/-- Whether ports or links alone hold a line behind a site's local port. -/
def edgeSite (s : State) (site line : Nat) : Bool :=
  (proxyAt s site line).isSome && !(isComputeSite site && !(dieHolders s (unitOfSite site) line).isEmpty)

/-- Whether ports and links alone are the holders that the branch of a tree beyond port `p` of a site leads to. -/
def branchEdge (s : State) (part line : Nat) : Nat → Nat → Port → Bool
  | 0, _, _ => false
  | k + 1, site, p =>
    if p = .loc then edgeSite s site line
    else match entryAt s (neighbour site p) part line with
      | some e =>
        let ps := (holderPorts false e).filter (· != opposite p)
        !ps.isEmpty && ps.all fun q => branchEdge s part line k (neighbour site p) q
      | none => false

/-- Whether the holders beyond every one of some ports of a site are ports and links. -/
def portsEdge (s : State) (part line site : Nat) (ps : List Port) : Bool :=
  !ps.isEmpty && ps.all fun p => branchEdge s part line 64 site p

/-- The port a caught read leaves by (R227). -/
def steerPort (anchor : Bool) (e : Entry) (arrival : Port) : Port :=
  let ok := fun (p : Port) => portHas e.mask p && (p != arrival || (anchor && p == .loc)) && (anchor || p != e.root)
  match ([Port.loc, .n, .e, .s, .w].find? ok) with
  | some p => p
  | none => if !anchor && e.root != arrival then e.root else arrival

/-- Whether the holder that a steered read at a router is on its way to is a port or link. -/
def steersEdge (s : State) (part line : Nat) : Nat → Nat → Port → Bool
  | 0, _, _ => false
  | k + 1, site, arrival =>
    match entryAt s site part line with
    | some e =>
      let p := steerPort (isAnchor s site part line) e arrival
      if p = .loc then edgeSite s site line else steersEdge s part line k (neighbour site p) (opposite p)
    | none => false

/-- Whether a steered read, an invalidation or a cut is on its way to ports or links alone. -/
def toEdge (s : State) (m : Msg) : Bool :=
  match m.loc with
  | .site n => edgeSite s n m.line
  | .router n p =>
    if m.kind = .steered then steersEdge s m.part m.line 64 n p
    else if m.kind = .inval ∨ m.kind = .cut then
      match entryAt s n m.part m.line with
      | some e => portsEdge s m.part m.line n ((holderPorts false e).filter (· != p))
      | none => false
    else false

/-- Whether a message is on the edge-access network (R186): its line is served through a host port or panel link of the partition, or
its requester is one, or it is on its way to one that holds the line or from one that held it, or it stands outside the partition's
rectangle. (DEDUCED, log 11.) -/
def edgeMsg (s : State) (m : Msg) : Bool :=
  m.edge || (memHome (getPart s m.part) m.line).isNone ||
    (match m.req with | .hostPort _ | .link _ => true | .core _ | .dcc _ => false) ||
    !inRect (getPart s m.part) (siteOfLoc m.loc) || toEdge s m

/-- Whether message `q` is a request for the anchor at which `m` stands as one. -/
def sameAnchor (s : State) (m q : Msg) : Bool :=
  q.line == m.line && q.part == m.part && forAnchor q.kind && forAnchor m.kind &&
    routerAt q.loc == some (anchorSite s m.part m.line) && routerAt m.loc == some (anchorSite s m.part m.line)

/-- Whether a request stands aside where it is: it had to wait there, or it follows one for the same anchor that had to. -/
def standsAside (s : State) (q : Msg) : Bool :=
  isRequest q.kind && (q.waiting || s.net.any fun r =>
    r.waiting && r.line == q.line && r.part == q.part && forAnchor r.kind && forAnchor q.kind && (r.loc == q.loc || sameAnchor s q r))

/-- Whether an earlier message for the same line at the same place holds message `m` back (R240): every one does but a request that
stands aside; behind that, other requests for the anchor keep their order (R222). (DEDUCED, log 11.) -/
def heldBy (s : State) (m q : Msg) : Bool :=
  q.line == m.line && q.part == m.part && q.loc == m.loc && (!standsAside s q || (forAnchor q.kind && forAnchor m.kind))

/-- Whether a request at its anchor comes after another that reached the anchor before it, by any port (R222). -/
def anchorAhead (s : State) (i : Nat) (m : Msg) : Bool :=
  ((s.net.take i).any fun q => sameAnchor s m q && q.ready == m.ready) || s.net.any fun q => sameAnchor s m q && decide (q.ready < m.ready)

/-- Whether message i may be handled: its time has come, no earlier message holds it back, its partition's networks are not stopped
(the edge-access network keeps running, R420), and on the edge-access network it has one of its partition's slots at the
port (R377; requests and other messages apart). (DEDUCED, log 11.) -/
def msgEnabled (s : State) (i : Nat) : Bool :=
  match s.net[i]? with
  | none => false
  | some m =>
    let before := s.net.take i
    let edge := edgeMsg s m
    let ahead := before.filter fun q => q.part == m.part && q.loc == m.loc && isRequest q.kind == isRequest m.kind && edgeMsg s q
    decide (m.ready ≤ s.now) && (edge || !(getPart s m.part).stopped) && !(before.any (heldBy s m)) && !anchorAhead s i m &&
      (!edge || (routerAt m.loc).isNone || decide (ahead.length < edgeSlots (getPart s m.part)))

/-! ## Beginning a cut, and making an entry (R235, R236) -/

/-- A Stable entry enters Cutting: a cut goes out on every port that leads to holders (R235). With no such port the cut is
complete at once. -/
def beginCut (s : State) (site : Nat) (e : Entry) : State :=
  let anchor := isAnchor s site e.part e.line
  let ps := holderPorts anchor e
  let s0 := clearMerges s site e.part e.line
  if ps.isEmpty then
    let s1 := delEntry s0 site e.part e.line
    if anchor then s1 else hop s1 (cutMsg e.line e.part .prune) site e.root
  else
    let e1 := { e with state := .cutting, awaited := ps, answer := [], edge := portsEdge s e.part e.line site ps }
    sendAll (putEntry s0 site e1) site ps (cutMsg e.line e.part .cut)

/-- The outcome of making an entry: made, to be tried again when a way frees, or impossible (R236). -/
inductive Alloc where
  | made (s : State)
  | wait (s : State)
  | never

/-- Makes a Stable entry with one port in its mask, or adds the port to the one that is there, whose keep mark a read leaves. An entry
that is being torn down or cut stays as it is (R238). Ways and sets that are going out of use take no entry more (R250). With no
way free the least recently used Stable entry is the victim of the transaction `who`, which waits while its victim is being cut and
cuts no other meanwhile (R236). (DEDUCED, log 14.) -/
def graftEntry (s : State) (who : Requester × Nat) (site part line : Nat) (port root : Port) (reset : Bool) : Alloc :=
  match entryAt s site part line with
  | some e =>
    match e.state with
    | .stable =>
      .made (touchEntry s site
        { e with mask := if reset then portAdd 0 port else portAdd e.mask port, keep := if reset then none else e.keep,
                 root := if reset then root else e.root })
    | .tearing | .cutting => .made s
  | none =>
    let set := pisteSet s site part line
    let ws := (usableWays s site part).filter fun w => !leaving s (getRouter s site) site part set w
    let es := (getRouter s site).entries.filter fun e => e.set == set && ws.contains e.way
    if usableWays s site part = [] then .never
    else if ws = [] then .wait s
    else
      match ws.find? fun w => !(es.any fun e => e.way == w) with
      | some w =>
        let e : Entry := { set := set, way := w, line := line, part := part, mask := portAdd 0 port, root := root, state := .stable, stamp := s.fresh }
        .made (bumpFresh (modRouter s site fun r => { r with entries := r.entries ++ [e] }))
      | none =>
        let free := es.filter fun e => e.state == .stable
        if es.any fun e => e.cutFor == some who then .wait s
        else match (minOf? (free.map (·.stamp))).bind fun t => free.find? fun e => e.stamp == t with
        | some v => .wait (beginCut s site { v with cutFor := some who })
        | none => .wait s

/-! ## What the loss of a line clears -/

/-- The reservations that an L1's loss of a line clears (R233, R265). -/
def clearL1Resv (k : Core) (line : Nat) : Core :=
  { k with team := k.team.map fun t => { t with
      groups := mmap (fun g => { g with resv := g.resv.filter fun q => q.2.atAnchor || q.2.line != line }) t.groups } }

/-- The reservations kept at the anchor that a write there clears (R233). -/
def clearAnchorResv (s : State) (part line : Nat) : State :=
  { s with cores := mmap (fun k => { k with team := k.team.map fun t => if t.part ≠ part then t else { t with
      groups := mmap (fun g => { g with resv := g.resv.filter fun q => !q.2.atAnchor || q.2.line != line }) t.groups } }) s.cores }

/-- A blocked scalar instruction completes: the group goes on behind it. -/
def completeScalar (_now : Nat) (g : Group) : Group :=
  { g with spc := g.spc + 4, state := .ready, wait := .none, readySince := none, boosted := none }

/-- Ends the watch a group waits on: its `waitln` completes (R268). -/
def endWatch (s : State) (c g : Nat) : State :=
  let s1 := modCore s c fun k => { k with watches := k.watches.filter fun w => w.group != g }
  modGroup s1 c g fun v => match v.wait with | .waitln .. => completeScalar s.now v | _ => v

/-- An invalidation or cut reaches a core's watches on a line. -/
def endWatches (s : State) (c line : Nat) : State :=
  ((getCore s c).watches.filter fun w => w.line == line && w.armed).foldl (fun s w => endWatch s c w.group) s

/-! ## Storage and the slices' replacement state (R189-R191) -/

/-- A line is written to storage at its host physical address (DEDUCED, log 20). -/
def storeLine (s : State) (part line : Nat) (d : Line) : State :=
  { s with mem := writeLE s.mem (memKey (getPart s part) line) 128 d.toNat }

/-- The line storage holds (DEDUCED, log 20). -/
def storedLine (s : State) (part line : Nat) : Line := lineOf s.mem (memKey (getPart s part) line)

def setLeader (c set : Nat) : Option Bool :=
  let h := fld set 5 5
  let l := fld set 0 5
  if l = (h + 8 * c) % 32 then some true else if l = (h + 8 * c + 4) % 32 then some false else none

/-- Raises every RRPV of a set until some way has 3. -/
def ageSet (l : List SliceLine) (set : Nat) : List SliceLine :=
  let top := maxOf ((l.filter fun q => q.set == set).map (·.rrpv))
  l.map fun q => if q.set = set then { q with rrpv := q.rrpv + (3 - top) } else q

/-- One access of class `c` to a line at the slice that serves it. A fill takes the lowest-numbered free way while one is empty, which
the rules leave open. (DESIGN CHOICE, log 52.) -/
def sliceAccess (c line set : Nat) (v : Slice) : Slice :=
  if v.lines.any fun q => q.line == line then
    { v with lines := v.lines.map fun q => if q.line = line then { q with rrpv := 0 } else q }
  else
    let p := mget 512 v.psel c
    let lead := setLeader c set
    let p' := match lead with
      | some true => if p < 1023 then p + 1 else p
      | some false => p - 1
      | none => p
    let srrip := match lead with | some b => b | none => decide (p < 512)
    let n := mget 0 v.brrip c
    let rr := if srrip then 2 else if (n + 1) % 32 = 0 then 2 else 3
    let ways := (List.range 16).filter fun w => !v.badWays.contains w
    let used := (v.lines.filter fun q => q.set == set).map (·.way)
    let v1 := { v with psel := mput v.psel c p', brrip := if srrip then v.brrip else mput v.brrip c (n + 1) }
    match ways.find? fun w => !used.contains w with
    | some w => { v1 with lines := v1.lines ++ [{ line := line, set := set, way := w, rrpv := rr }] }
    | none =>
      if ways = [] then v1
      else
        let aged := ageSet v1.lines set
        match minOf? ((aged.filter fun q => q.set == set && q.rrpv == 3).map (·.way)) with
        | some w => { v1 with lines := (aged.filter fun q => !(q.set == set && q.way == w)) ++ [{ line := line, set := set, way := w, rrpv := rr }] }
        | none => v1

/-- The watchpoints of a partition that an access to a line matches (R421). (DEDUCED, log 41.) -/
def watchHits (s : State) (part c region : Nat) (write : Bool) (line : Nat) : List WpHit :=
  (getPart s part).wps.filterMap fun q =>
    if decide (q.2.base ≤ line) && decide (line < q.2.limit) && (if write then q.2.write else q.2.read) then
      some { part := part, wp := q.1, write := write, cls := c, region := region, stop := q.2.stop }
    else none

/-- The slice of a near or far line sees an access of class `c` from a region (Table 8-2; host and panel lines are in no slice), and
the watchpoints it matches will be reported (R421). (DEDUCED, log 41.) -/
def touchSlice (s : State) (part c region : Nat) (write : Bool) (line : Nat) : State :=
  let v := getPart s part
  match memHome v line with
  | none => s
  | some (ms, off) =>
    let set := Nat.xor (fld off 7 10) (fld off 17 10)
    modSlice { s with wpHits := s.wpHits ++ watchHits s part c region write line }
      (8 * ms + sliceIdx v line) (sliceAccess c line set)

/-! ## A quiet line: read and written in one step (log 5) -/

/-- No message for the line is under way or waits to be sent, and no anchor works on it. -/
def baseQuiet (s : State) (part line : Nat) : Bool :=
  !(s.net.any fun m => m.line == line && m.part == part) && !(s.outstanding.any fun o => o.held.isSome && o.msg.line == line && o.msg.part == part) &&
    !(s.anchors.any fun a => a.line == line && a.msg.part == part)

/-- The old place of a line of a page in migration that has not been pulled (R371). -/
def pullFrom (v : Partition) (line : Nat) : Option Nat :=
  (v.migs.find? fun g => g.installed && g.new == line / 4096 * 4096 && !g.valid.getLsbD (line / 128 % 32)).map fun g =>
    g.old + line % 4096

/-- The line, and its old place if it is still to be pulled, are quiet, its slice is not under test, and the site of its anchor not under
reset (R413). (DEDUCED, log 5.) -/
def lineQuiet (s : State) (part line : Nat) : Bool :=
  !homeTested s part line && !routerDown s (anchorSite s part line) && baseQuiet s part line && (match pullFrom (getPart s part) line with | some o => baseQuiet s part o | none => true)

def dirty (st : Moesi) : Bool := st == .m || st == .o

/-- The line as a core or proxy holds it dirty. -/
def dirtyCopy (s : State) (part line : Nat) : Option Line :=
  let ofCore := fun (k : Core) =>
    match k.team with
    | some t => if t.part = part then (k.l1.find? fun l => l.line == line && dirty l.state).map (·.data) else none
    | none => none
  match s.cores.findSome? fun q => ofCore q.2 with
  | some d => some d
  | none => (s.proxies.find? fun q => q.line == line && dirty q.state).map (·.data)

/-- The value of a quiet line: that of a core or proxy that holds it dirty, else storage. -/
def baseValue (s : State) (part line : Nat) : Line := (dirtyCopy s part line).getD (storedLine s part line)

/-- One byte of the value of a line that is quiet; of a line that is still to be pulled, the byte at its old place. -/
def byteValue (s : State) (part h : Nat) : Byte :=
  let l := match pullFrom (getPart s part) (lineBase h) with | some o => o | none => lineBase h
  match dirtyCopy s part l with
  | some d => BitVec.ofNat 8 (lineField d (h % 128) 1)
  | none => readByte s.mem (memKey (getPart s part) l + h % 128)

/-- The line's tree torn down in one step: the value goes to storage, every copy, watch, reservation and entry is gone. -/
def collapseOne (s : State) (part line : Nat) : State :=
  let s1 := storeLine s part line (baseValue s part line)
  let cs := (s1.cores.filter fun q => coreHolds q.2 line &&
    (match q.2.team with | some t => t.part == part | none => false)).map (·.1)
  let s2 := cs.foldl (fun s c => modCore (endWatches s c line) c fun k => clearL1Resv (l1Del k line) line) s1
  let s3 := clearAnchorResv { s2 with proxies := s2.proxies.filter fun q => q.line != line } part line
  let here := (s3.routers.filter fun q => q.2.entries.any fun e => e.line == line && e.part == part).map (·.1)
  here.foldl (fun s n => delEntry s n part line) s3

/-- The lines of a tile of 2,048 bytes, the unit in which panels give lines to one another (R245). -/
def tileLines (tile : Nat) : List Nat := tab 16 fun k => 2048 * tile + 128 * k

/-- The other lines of the tile of a line that a panel link holds: a write of this panel recalls the whole tile (R247). -/
def tileMates (s : State) (line : Nat) : List Nat :=
  let held := fun (l : Nat) => s.proxies.any fun q => q.line == l && (match q.req with | .link _ => true | _ => false)
  if held line then (tileLines (line / 2048)).filter fun l => l != line && held l else []

/-- A line's tree torn down in one step, and those of its tile where a link holds it. -/
def baseCollapse (s : State) (part line : Nat) : State :=
  (tileMates s line).foldl (fun s l => collapseOne s part l) (collapseOne s part line)

/-- The pull of a line of a page in migration: its old tree is torn down, and the line is written at its new place (R371).
(DEDUCED, log 5; DEDUCED, log 20.) -/
def pullLine (s : State) (part line : Nat) : State :=
  match pullFrom (getPart s part) line with
  | some o =>
    let s1 := baseCollapse s part o
    let bit_ := 1#32 <<< (line / 128 % 32)
    modPart (storeLine s1 part line (storedLine s1 part o)) part fun v => { v with
      migs := v.migs.map fun q => if q.new = line / 4096 * 4096 then { q with valid := q.valid ||| bit_ } else q }
  | none => s

/-- A line pulled if need be, and its tree torn down. (DEDUCED, log 5.) -/
def collapseLine (s : State) (part line : Nat) : State := baseCollapse (pullLine s part line) part line

/-- The lines that `n` bytes from `h` touch. -/
def linesOf (h n : Nat) : List Nat := if n = 0 then [] else (List.range ((h + n - 1) / 128 - h / 128 + 1)).map fun i => lineBase h + 128 * i

/-- A range cut at line boundaries: address and length of each piece. -/
def lineSegs (a n : Nat) : List (Nat × Nat) :=
  (linesOf a n).map fun l =>
    let lo := if l < a then a else l
    let hi := if a + n < l + 128 then a + n else l + 128
    (lo, hi - lo)

/-- `n` bytes at physical address h, of quiet lines. -/
def readPhys (s : State) (part h n : Nat) : List Byte :=
  tab n fun i => byteValue s part (h + i)

/-- Bytes written at physical address h: the lines' trees are torn down first (R231, R232 in one step). -/
def writePhys (s : State) (part h : Nat) (bs : List Byte) : State :=
  let s1 := (linesOf h bs.length).foldl (fun s l => collapseLine s part l) s
  (linesOf h bs.length).foldl (fun s l =>
    let a := max h l
    { s with mem := writeBytes s.mem (memKey (getPart s part) a) ((bs.drop (a - h)).take (l + 128 - a)) }) s1

def readPhysLE (s : State) (part h n : Nat) : Nat := ofBytes (readPhys s part h n)

/-! ## Giving up a line (Table 10-2, R224, R234) -/

def lineMsg (k : MsgKind) (line part : Nat) (r : Requester) (d : Option Line) : Msg :=
  { kind := k, line := line, part := part, loc := .site 0, ready := 0, req := r, txn := 0, data := d }

/-- The slice, or the anchor's atomic unit, that a requester's numbered requests for a line go to (R242, R243). -/
def homeKey (s : State) (part line : Nat) : Nat :=
  match sliceOf (getPart s part) line with | some n => n | none => 65536 + anchorSite s part line

/-- Whether a request only reads. -/
def reqReads (m : Msg) : Bool := match m.op with | some o => o.kind == AnchorOpKind.read | none => false

/-- The region a message's requester is in. -/
def reqRegion (m : Msg) : Nat := regionOfSite (requesterSite m.req)

/-- Whether a message carries numbers (R242): writes, write-backs, data acks and operations that write do; reads, and prunes
without a line, do not. -/
def numbered (m : Msg) : Bool :=
  match m.kind with
  | .writeReq | .upgrade => true
  | .opReq => !reqReads m
  | .prune | .writeBack | .dataAck => m.data.isSome
  | _ => false

/-- Whether a requester has 64 numbered requests outstanding to the slice of a line (R242). -/
def windowFull (s : State) (r : Requester) (part line : Nat) : Bool :=
  decide (64 ≤ (s.outstanding.filter fun o => o.msg.req == r && o.held.isNone && numbered o.msg &&
    homeKey s o.msg.part o.msg.line == homeKey s part line).length)

/-- The next sequence number of a requester (R242). -/
def seqOf (s : State) (r : Requester) : BitVec 16 := mget 0 s.seqs (requesterNo r)
def bumpSeq (s : State) (r : Requester) : State := { s with seqs := mput s.seqs (requesterNo r) (seqOf s r + 1) }

/-- Whether something for a line waits unsent behind a site's local port: what follows it for the line waits too (R240, R241). -/
def unsent (s : State) (part line site : Nat) : Bool :=
  s.outstanding.any fun o => o.held.isSome && o.msg.line == line && o.msg.part == part && requesterSite o.msg.req == site

/-- A numbered message leaves from behind its requester's local port and is outstanding until it is answered. What is sent again is
of kind `kind`, and of a line on its way back the line alone: it counts for no ack and clears no port. The 65th to one slice
waits until one completes (R242). -/
def sendNumbered (s : State) (m : Msg) (kind : MsgKind) : State :=
  let site := requesterSite m.req
  let m1 := { m with txn := if m.txn = 0 then s.fresh else m.txn, seq := seqOf s m.req }
  let waits := windowFull s m.req m.part m.line || unsent s m.part m.line site
  let o : Outstanding := { msg := { m1 with kind := kind, counts := false }, sent := s.now, held := if waits then some m1 else none }
  let s1 := { bumpFresh (bumpSeq s m.req) with outstanding := s.outstanding ++ [o] }
  if waits then s1 else inject s1 m1 site

/-- A message without a number leaves, behind what waits unsent for its line. -/
def sendPlain (s : State) (m : Msg) : State :=
  let site := requesterSite m.req
  if unsent s m.part m.line site then { s with outstanding := s.outstanding ++ [{ msg := m, sent := s.now, held := some m }] }
  else inject s m site

/-- One message that waited unsent leaves, if its window has room and nothing for its line waits before it. -/
def sendHeld (s : State) (o : Outstanding) : State :=
  match o.held with
  | none => s
  | some m =>
    let before := s.outstanding.takeWhile (· != o)
    let blocked := before.any fun q => q.held.isSome && q.msg.line == m.line && q.msg.part == m.part &&
      requesterSite q.msg.req == requesterSite m.req
    if blocked || (numbered m && windowFull s m.req m.part m.line) then s
    else
      let rest := if numbered m then before ++ [{ o with sent := s.now, held := none }] ++ s.outstanding.drop (before.length + 1)
        else s.outstanding.erase o
      inject { s with outstanding := rest } m (requesterSite m.req)

/-- What a completed number lets go (R242). -/
def flushHeld (s : State) : State := s.outstanding.foldl sendHeld s

/-- Numbers that have been answered are outstanding no longer. -/
def answerOut (s : State) (p : Outstanding → Bool) : State := flushHeld { s with outstanding := s.outstanding.filter fun o => !p o }

/-- A message with or without the line leaves from behind a site's local port. -/
def returnLine (s : State) (k : MsgKind) (line part : Nat) (r : Requester) (d : Option Line) : State :=
  let m := lineMsg k line part r d
  match d with | some _ => sendNumbered s m .writeBack | none => sendPlain s m

/-- A core's L1 gives up a line: the last holder behind the local port sends the prune, a dirty line that is not the last
goes as a write-back, and a clean one goes silently. -/
def giveUpLine (s : State) (c part : Nat) (l : L1Line) : State :=
  let s1 := modCore s c fun k => clearL1Resv (l1Del k l.line) l.line
  let d := if dirty l.state then some l.data else none
  if othersBehind s1 c l.line || armedWatch (getCore s1 c) l.line then
    (if dirty l.state then returnLine s1 .writeBack l.line part (.core c) d else s1)
  else returnLine s1 .prune l.line part (.core c) d

/-- A proxy gives up its line: a prune, with the line when it is dirty; a write-back when the site has other holders. -/
def giveUpProxy (s : State) (part : Nat) (q : Proxy) : State :=
  let site := requesterSite q.req
  let s1 := { s with proxies := s.proxies.filter fun p => !(p.req == q.req && p.line == q.line) }
  let d := if dirty q.state then some q.data else none
  let others := isComputeSite site && !(dieHolders s1 (unitOfSite site) q.line).isEmpty
  if !others then returnLine s1 .prune q.line part q.req d
  else if dirty q.state then returnLine s1 .writeBack q.line part q.req d
  else s1

/-- A watch entry gives up its line: the last holder behind the local port prunes. -/
def giveUpWatch (s : State) (c part line : Nat) : State :=
  if coreHolds (getCore s c) line || othersBehind s c line then s
  else sendPlain s (lineMsg .prune line part (.core c) none)

end Sys2Proof.Machine
end

