-- ==== Sys2Proof/Machine/Ops.lean ====
section
/-! DEFINITION. The operations every family of instructions shares: the acting stream, registers, interlocks, completing and
blocking, Schuss episodes, extended windows, records, the end of a task, TAKING A FAULT and returning from one, leases and
translation, and completion signals. -/

namespace Sys2Proof.Machine

open Sys2Proof

/-! ## The acting stream -/

/-- The stream that issues: its core and group, and what they hold. -/
structure Ctx where
  core : Nat
  gi : Nat
  lane : Bool
  team : Team
  g : Group
  grid : Grid

/-- The stream `State.cur` names, if a team and group stand there. -/
def ctx? (s : State) : Option Ctx :=
  match teamOf s s.cur.core with
  | none => none
  | some t =>
    match groupIn t s.cur.group with
    | none => none
    | some g =>
      match gridOf s t.part t.grid with
      | none => none
      | some q => some { core := s.cur.core, gi := s.cur.group, lane := s.cur.lane, team := t, g := g, grid := q }

/-- A meaning over the acting stream; with no such stream there is nothing to execute. -/
def withCtx (s : State) (f : Ctx → State) : Host.Outcome State Fault Refusal :=
  match ctx? s with
  | some x => .next (f x)
  | none => .next s

/-- The acting group replaced. -/
def putG (s : State) (x : Ctx) (g : Group) : State := setGroup s x.core x.gi g

/-! ## Registers (R25, R28, R31) -/

/-- s0 reads 0. -/
def rdS (g : Group) (n : Nat) : Word := if n = 0 then 0 else mget 0 g.sregs n

/-- Word k of the live mask, laid out as s61 to s63 (R25). -/
def liveWord (g : Group) (k : Nat) : Word := g.live.extractLsb' (32 * k) 32

/-- A value as s61 to s63 store it: ANDed with the live mask (R25). -/
def maskedS (g : Group) (n : Nat) (v : Word) : Word := if 61 ≤ n then v &&& liveWord g (n - 61) else v

/-- A write to s0 is discarded. -/
def wrS (g : Group) (n : Nat) (v : Word) : Group :=
  if n = 0 then g else { g with sregs := mput g.sregs n (maskedS g n v) }

/-- The lane stream's view of the scalar registers (R28). -/
def rdV (g : Group) (n : Nat) : Word := if n = 0 then 0 else mget 0 g.lane.view n

def wrV (g : Group) (n : Nat) (v : Word) : Group :=
  if n = 0 then g
  else { g with lane := { g.lane with view := mput g.lane.view n (maskedS g n v), written := insertNat g.lane.written n } }

/-- Three words as a mask, word 0 the lowest threads. -/
def maskWords (a b c : Word) : Mask := (c ++ b ++ a : BitVec 96)

/-- The activity mask of the scalar file, and the current path's mask (R25, R297). -/
def maskOfS (g : Group) : Mask := maskWords (rdS g 61) (rdS g 62) (rdS g 63)
def laneMask (g : Group) : Mask := maskWords (rdV g 61) (rdV g 62) (rdV g 63)

/-- The current path's mask set, without counting as a write of the stream's own (R297). -/
def setLaneMask (g : Group) (m : Mask) : Group :=
  let m := m &&& g.live
  let v := mput (mput (mput g.lane.view 61 (m.extractLsb' 0 32)) 62 (m.extractLsb' 32 32)) 63 (m.extractLsb' 64 32)
  { g with lane := { g.lane with view := v } }

/-- p0 reads true in every thread. -/
def rdP (g : Group) (n : Nat) : Mask := if n = 0 then allThreads else mget 0 g.preds n

/-- A predicate written in the threads of `w`; p0 discards. -/
def wrP (g : Group) (n : Nat) (w v : Mask) : Group :=
  if n = 0 then g else { g with preds := mput g.preds n ((rdP g n &&& ~~~w) ||| (v &&& w)) }

def rdRow (g : Group) (n : Nat) : List Word := mget [] g.vregs n

def rdVec (g : Group) (n t : Nat) : Word := (rdRow g n).getD t 0

/-- A vector register written in the threads of `w`. -/
def wrRow (g : Group) (n : Nat) (w : Mask) (v : Nat → Word) : Group :=
  { g with vregs := mput g.vregs n (tab 96 fun t => if mtest w t then v t else rdVec g n t) }

/-- A 64-bit value from a scalar pair, and its 57 address bits (R251). -/
def rdPair (g : Group) (n : Nat) : Nat := (rdS g n).toNat + (rdS g (n + 1)).toNat * 2 ^ 32
def addr57 (lo hi : Word) : Nat := lo.toNat + hi.toNat % 2 ^ 25 * 2 ^ 32
def pairAddr (g : Group) (n : Nat) : Nat := addr57 (rdS g n) (rdS g (n + 1))

/-- Whether every register named is below the allocation or in a held window (R33). -/
def vregHeld (x : Ctx) (n : Nat) : Bool :=
  decide (n < x.grid.base) || (decide (192 ≤ n) && decide (n < 320) && bit x.g.windows.toNat ((n - 192) / 32))

/-! ## Interlocks (R104, R256, R262) -/

/-- Registers a destination covers. A scalar pair at s0 is discarded whole (R255); in the view only s0 is. -/
def destS (d : Dest) : List Nat := match d with | .sregs n w => if n = 0 then [] else upFrom n w | _ => []
def destView (d : Dest) : List Nat := match d with | .view n w => (upFrom n w).filter (· != 0) | _ => []
def destV (d : Dest) : List Nat := match d with | .vregs n w => upFrom n w | _ => []

/-- The outstanding operations of a group but the one its episode waits on (R338). -/
def pendOps (s : State) (x : Ctx) : List PendOp :=
  let skip := match x.g.episode with | some e => if e.lane = x.lane then some e.op else none | none => none
  (getCore s x.core).ops.filter fun o => o.group == x.gi && some o.id != skip

/-- Whether a scalar instruction over these registers must wait for a load. -/
def waitsS (s : State) (x : Ctx) (regs : List Nat) : Bool :=
  (pendOps s x).any fun o => (destS o.dest).any fun r => regs.contains r

/-- Whether a load is to write the path mask, which every lane word reads. -/
def writesMask (o : PendOp) : Bool := (destView o.dest).any fun r => decide (61 ≤ r)

/-- Whether a lane word over these vector registers and view registers must wait. -/
def waitsL (s : State) (x : Ctx) (vs ss : List Nat) : Bool :=
  (pendOps s x).any fun o => writesMask o || (destV o.dest).any (fun r => vs.contains r) || (destView o.dest).any fun r => ss.contains r

/-- Whether an acquire of this stream is outstanding: later accesses wait for it (R209). -/
def acqPending (x : Ctx) : Bool := !x.g.acquiring.isEmpty

/-! ## Completing, and waiting -/

/-- A group whose stream has issued: its slot is and stays Issuing, until an instruction waits (Table 2-3), and it is no longer boosted
(R307). -/
def issuedG (_now : Nat) (g : Group) : Group :=
  { g with state := .issuing, wait := .none, boosted := none, readySince := none }

/-- The scalar instruction completes: the group as changed, behind it. -/
def scalarDone (s : State) (x : Ctx) (g : Group) : State := putG s x (issuedG s.now { g with spc := g.spc + 4 })

/-- The scalar instruction completes and the stream goes on at `pc`. -/
def scalarJump (s : State) (x : Ctx) (g : Group) (pc : Word) : State := putG s x (issuedG s.now { g with spc := pc })

/-- Whether a wait is found only once an instruction has issued (R334): every one but that for its operands. -/
def issuedWait (w : Wait) : Bool := match w with | .operand => false | _ => true

/-- The scalar instruction waits (Table 2-3, Blocked). One whose wait is found once it has issued is no longer boosted (R307);
nothing else changes. -/
def scalarWait (s : State) (x : Ctx) (w : Wait) : State :=
  let g := { x.g with state := .blocked, wait := w }
  putG s x (if issuedWait w then { g with boosted := none, readySince := none } else g)

/-! ## Lane paths (R297, R298, R300) -/

def liveList (g : Group) (l : List PathEntry) : List PathEntry := l.map fun e => { e with mask := e.mask &&& g.live }

/-- The lane stream ends: the view's mask holds the live threads that executed LEND (R300). -/
def endLane (g : Group) : Group :=
  let g1 := setLaneMask g g.lane.ended
  { g1 with lane := { g1.lane with running := false, suspended := false, stack := [], rpc := none, maskOwed := false } }

/-- Ends paths that are at their rPC or empty, popping the stack, before the next word issues (R298); not while a load into the path's
mask is outstanding, since the next word waits for it. -/
def settle : Nat → Group → Group
  | 0, g => g
  | k + 1, g =>
    if !g.lane.running || g.lane.maskOwed then g
    else if laneMask g = 0 || g.lane.rpc = some g.lane.lpc then
      match g.lane.stack with
      | [] => endLane (if laneMask g = 0 then g else { g with lane := { g.lane with ended := g.lane.ended ||| laneMask g } })
      | e :: r => settle k (setLaneMask { g with lane := { g.lane with lpc := e.lpc, rpc := e.rpc, stack := r } } e.mask)
    else g

/-- The threads of a lane stream that are runnable: on the current path or in some stack entry (R303). -/
def pathThreads (g : Group) : Mask := g.lane.stack.foldl (fun m e => m ||| e.mask) (laneMask g)

/-- The path-switch timer: it runs from the moment the lowest runnable lane thread is off the current path (R305).
(DEDUCED, log 24.) -/
def timerG (now : Nat) (g : Group) : Group :=
  let off := match mfirst (pathThreads g) with
    | none => none
    | some t => if mtest (laneMask g) t then none else (match g.lane.offSince with | none => some now | o => o)
  { g with lane := { g.lane with offSince := off } }

/-- The timer does not count while the lane stream is suspended, since it does not run (R305): what it had counted is kept, and it goes
on from there. -/
def pauseTimer (now : Nat) (g : Group) : Group :=
  if g.lane.suspended then
    { g with lane := { g.lane with offHeld := (match g.lane.offSince with | some t => now - t | none => 0), offSince := none } }
  else g
def resumeTimer (now : Nat) (g : Group) : Group :=
  timerG now { g with lane := { g.lane with offSince := some (now - g.lane.offHeld), offHeld := 0 } }

/-- The path-switch timer does not count during an episode (R301): its start is moved by the episode's length.
(DEDUCED, log 24.) -/
def timerAfter (now start : Nat) (off : Option Nat) : Option Nat :=
  match off with
  | none => none
  | some t => some (if t ≤ start then t + (now - start) else now)

/-- Discards an episode: the checkpoint is restored (R339), and a path of it that a load's value has emptied ends (R298). The stream is
then ready at the blocked instruction when the load has returned, else blocked there. -/
def endEpisodeG (now : Nat) (g : Group) (returned : Bool) : Group :=
  match g.episode with
  | none => g
  | some e =>
    let st := if returned then SlotState.ready else .blocked
    let w := if returned then Wait.none else .operand
    let c := e.saved
    let l := if e.lane then c.lane else g.lane
    let l1 := { l with offSince := timerAfter now e.start l.offSince }
    if e.lane then timerG now (settle 40 { g with preds := c.preds, vregs := c.vregs, lane := l1, episode := none })
    else { g with sregs := c.sregs, spc := c.spc, lane := l1, episode := none, state := st, wait := w }

/-- Paths that are at their rPC or empty end before the next word issues (R298), and the timer follows (R305). What would end the lane
stream in an episode of it, as LEND does, ends the episode (R301). -/
def settleLane (now : Nat) (g : Group) : Group :=
  let g1 := settle 40 g
  if !g1.lane.running && g.episode.any (·.lane) then endEpisodeG now g false else timerG now g1

/-- The lane word completes: the path goes on at `pc`; a hold of R306 is counted down. -/
def laneNext (now : Nat) (g : Group) (pc : Nat) : Group :=
  settleLane now { g with lane := { g.lane with lpc := pc, hold := g.lane.hold - 1, gathered := none },
                          state := if g.state = .ready then .issuing else g.state, boosted := none, laneReadySince := none }

/-- Completes a lane word: the group as changed, behind it. -/
def laneDone (s : State) (x : Ctx) (g : Group) : State := putG s x (laneNext s.now g (g.lane.lpc + 1))

/-- The scalar registers that the copy-back of R28 writes. -/
def joinRegs (g : Group) : List Nat := (g.lane.written.filter (· < 61)) ++ [61, 62, 63]

/-- The copy-back of R28 with the FPS merge of R132; the lane stream is then no longer started. -/
def copyBack (g : Group) : Group :=
  let g1 := (joinRegs g).foldl (fun q r => wrS q r (rdV g r)) g
  { g1 with fps := g1.fps ||| g1.lane.fps, lane := { g1.lane with started := false, fps := 0, written := [] } }

/-! ## Extended windows and Schuss episodes (R34, R35, R337 - R339) -/

def popMask (w : BitVec 4) : Nat := popCount 4 w.toNat

/-- Pool blocks held by windows, and borrowed by episodes. -/
def heldBlocks (t : Team) : Nat := sumOf ((mvals t.groups).map fun g => popMask g.windows)
def borrowedBlocks (t : Team) : Nat :=
  sumOf ((mvals t.groups).map fun g => match g.episode with | some e => e.blocks | none => 0)
def freeBlocks (t : Team) : Nat := 8 - heldBlocks t - borrowedBlocks t

/-- Removes the rows of granted or returned windows: they read 0 (R34). -/
def clearWindows (m : BitVec 4) (g : Group) : Group :=
  let gone := fun (n : Nat) => decide (192 ≤ n) && bit m.toNat ((n - 192) / 32)
  let cut := fun (r : SMap (List Word)) => r.filter fun q => !gone q.1
  { g with vregs := cut g.vregs,
           episode := g.episode.map fun e => { e with saved := { e.saved with vregs := cut e.saved.vregs } } }

/-- Ends the episodes of the highest-indexed groups until a request fits or none is left (R35). -/
def reclaim (now : Nat) : Nat → Team → Nat → Team
  | 0, t, _ => t
  | k + 1, t, need =>
    if need ≤ freeBlocks t then t
    else
      match (t.groups.filter fun q => q.2.episode.isSome).getLast? with
      | none => t
      | some (i, g) => reclaim now k { t with groups := mput t.groups i (endEpisodeG now g false) } need

/-- Grants waiting window requests in ascending group index, stopping at the first that does not fit (R34). -/
def grantWindows : Nat → Nat → Team → Team
  | 0, _, t => t
  | k + 1, now, t =>
    match t.xacq with
    | [] => t
    | (i, m) :: rest =>
      match mget? t.groups i with
      | none => grantWindows k now { t with xacq := rest }
      | some g =>
        let want := m &&& ~~~g.windows
        let t1 := reclaim now 8 t (popMask want)
        if popMask want ≤ freeBlocks t1 then
          let g1 := mget g t1.groups i
          let g2 := completeScalar now { clearWindows want g1 with windows := g1.windows ||| want }
          grantWindows k now { t1 with xacq := rest, groups := mput t1.groups i g2 }
        else t1

/-- Serves the waiting window requests of a core (R34). -/
def serveWindows (s : State) (c : Nat) : State := modTeam s c (grantWindows 8 s.now)

/-- Ends a group's episode, if it has one, and serves the blocks it returns. -/
def endEpisode (s : State) (c g : Nat) (returned : Bool) : State :=
  match groupOf s c g with
  | none => s
  | some v => if v.episode.isNone then s else serveWindows (setGroup s c g (endEpisodeG s.now v returned)) c

/-- Whether the acting stream is in an episode. -/
def inEpisode (x : Ctx) : Bool := match x.g.episode with | some e => e.lane == x.lane | none => false

/-- Ends the acting stream's episode before its instruction issues (R338). -/
def stopEpisode (s : State) (x : Ctx) : State := endEpisode s x.core x.gi false

/-- Invalid marks of the episode of the acting stream (R127, R338). -/
def invS (x : Ctx) (n : Nat) : Bool :=
  match x.g.episode with | some e => e.lane == x.lane && n != 0 && e.invS.contains n | none => false
def invP (x : Ctx) (n : Nat) : Mask :=
  match x.g.episode with | some e => if e.lane = x.lane ∧ n ≠ 0 then mget 0 e.invP n else 0 | none => 0
def invV (x : Ctx) (n : Nat) : Mask :=
  match x.g.episode with | some e => if e.lane = x.lane then mget 0 e.invV n else 0 | none => 0

/-- Marks or unmarks a scalar register of the acting stream. -/
def markS (x : Ctx) (g : Group) (n : Nat) (inv : Bool) : Group :=
  if n = 0 then g
  else { g with episode := g.episode.map fun e =>
      if e.lane = x.lane then { e with invS := if inv then addNew e.invS n else e.invS.filter (· != n) } else e }

def markP (x : Ctx) (g : Group) (n : Nat) (w inv : Mask) : Group :=
  { g with episode := g.episode.map fun e =>
      if e.lane = x.lane then { e with invP := mput e.invP n ((mget 0 e.invP n &&& ~~~w) ||| (inv &&& w)) } else e }

def markV (x : Ctx) (g : Group) (n : Nat) (w inv : Mask) : Group :=
  { g with episode := g.episode.map fun e =>
      if e.lane = x.lane then { e with invV := mput e.invV n ((mget 0 e.invV n &&& ~~~w) ||| (inv &&& w)) } else e }

/-- Renames the vector registers a word writes in an episode: one row each in a borrowed block of 32. None when no block
is free or four are borrowed (R338). -/
def renameRows (s : State) (x : Ctx) (ns : List Nat) : Option Group :=
  match x.g.episode with
  | none => some x.g
  | some e =>
    if e.lane != x.lane then some x.g
    else
      let r := ns.foldl addNew e.renamed
      let need := ceilDiv r.length 32
      if need ≤ e.blocks then some { x.g with episode := some { e with renamed := r } }
      else
        let t := (teamOf s x.core).getD x.team
        if need ≤ 4 && need - e.blocks ≤ freeBlocks t then some { x.g with episode := some { e with renamed := r, blocks := need } }
        else none

/-! ## Records and trace (R398, R419) -/

/-- The fields of a record that say where a group stood. -/
def baseRecord (s : State) (x : Ctx) (code : Nat) : Record :=
  { code := code, lane := x.lane, core := x.core, group := x.gi, region := coreRegion x.core, team := x.team.index,
    grid := x.grid.seq, pc := if x.lane then BitVec.ofNat 32 x.g.lane.lpc else x.g.spc, pasid := x.grid.pasid,
    part := x.team.part, dc := dayclock s (coreRegion x.core) }

/-- The trace ring of a partition: its offset in the context area, and the records it holds, as far as the area reaches.
(PRESUMED, log 31.) -/
def traceRing (v : Partition) : Nat × Nat :=
  let base := fld v.trc.toNat 12 36 * 4096
  (base, min (fld v.trc.toNat 48 16 * 4096) (fld v.ctxarea.toNat 22 10 * GiB - base) / 32)

/-- An event of R419, by number, on its way to the trace ring; with the last record that fits recording stops. (PRESUMED, log 31.) -/
def traceEvent (s : State) (p region event core a b : Nat) : State :=
  let v := getPart s p
  let used := v.trcNext + v.trace.length
  if bit v.trc.toNat 0 && bit (fld v.trc.toNat 1 8) event && !v.trcFull then
    if (traceRing v).2 ≤ used then modPart s p fun v => { v with trcFull := true }
    else modPart s p fun v => { v with
      trace := v.trace ++ [{ dc := dayclock s region, region := region, event := event, core := core, a := a, b := b }],
      trcFull := decide ((traceRing v).2 ≤ used + 1) }
  else s

/-- A fault traced, whether it makes a record or is delivered (R419). -/
def traceFault (s : State) (p core code grid : Nat) : State := traceEvent s p (coreRegion core) 2 core code grid

/-- A record is raised: it waits to be written to its partition's ring (R399). With EN = 0 none is written. Every record is
given the partition's next sequence number. -/
def addRecord (s : State) (r : Record) : State :=
  let v := getPart s r.part
  let s1 := if bit v.fqcfg.toNat 0 then
      modPart s r.part fun v => { v with records := v.records ++ [{ r with seq := v.recSeq }], recSeq := v.recSeq + 1 }
    else s
  traceEvent s1 r.part r.region 2 r.core r.code r.grid

/-- The buffer a record waits in until it is written (R399): that of the die that raises it; a launch unit's and those of a restore,
a migration and a pre-emption, which are raised on no compute die, share another. (DEDUCED, log 32.) -/
def recordBuffer (r : Record) : Option Nat :=
  if [0x34, 0x35, 0x40, 0x41, 0x42, 0x44].contains r.code then none else some (dieOf r.core)

/-- Records that a buffer of 32 still takes. -/
def recordRoom (s : State) (p : Nat) (b : Option Nat) : Nat :=
  32 - ((getPart s p).records.filter fun r => recordBuffer r == b).length

/-- Whether a die's record buffer is full and records are written: with EN = 0 a fault goes its way without one (R399).
(DEDUCED, log 32.) -/
def bufferFull (s : State) (p die : Nat) : Bool := bit (getPart s p).fqcfg.toNat 0 && recordRoom s p (some die) == 0

/-- An operation that needs records is held back while a buffer has no room for them; the end of a task never is (R399).
`s1` is what the operation leads to. -/
def unlessFull (s s1 : State) (p : Nat) : State :=
  let new := ((getPart s1 p).records.drop (getPart s p).records.length).filter fun r => !r.ends
  let room := fun (b : Option Nat) => decide ((new.filter fun r => recordBuffer r == b).length ≤ recordRoom s p b)
  if new.all fun r => room (recordBuffer r) then s1 else s

/-! ## The pin table (R366, R367) -/

/-- The pin that holds a page (R366): va / 4096 under a PASID. -/
def pinOf (v : Partition) (pasid page : Nat) : Option Pin :=
  v.pins.find? fun q => q.pasid == pasid && decide (q.page ≤ page) && decide (page < q.page + q.size)

/-- The physical address a pinned page gives. (DEDUCED, log 36.) -/
def pinAddr (q : Pin) (va : Nat) : Nat := q.frame + (va - 4096 * q.page)

/-- The translation that a pin holds of an address. -/
def tlbEntry (v : Partition) (pasid va : Nat) : Tlb :=
  match pinOf v pasid (va / 4096) with
  | some q => { pasid := pasid, vpage := q.page, size := q.size }
  | none => { pasid := pasid, vpage := va / 4096 }

/-- A reference to each of some pins, named by their first pages, given up (R367). -/
def giveRefs (ps : List Pin) (pasid : Nat) (pages : List Nat) : List Pin :=
  ps.map fun q => if q.pasid = pasid ∧ pages.contains q.page then { q with refs := q.refs - 1 } else q

/-- Pages without a reference are unpinned, but for those of a grid whose retirement increment has not been executed (R367). -/
def sweepPins (v : Partition) : Partition :=
  let kept := fun (q : Pin) => v.grids.any fun g => g.dropped && g.pasid == q.pasid && g.pinned.contains q.page
  { v with pins := v.pins.filter fun q => q.refs != 0 || kept q }

/-- A grid enters Retired or Ended: each of its pins loses one reference, once (R367). -/
def dropGrid (v : Partition) (seq : Nat) : Partition :=
  match v.grids.find? fun g => g.seq == seq with
  | some g =>
    if g.dropped then v
    else { v with pins := giveRefs v.pins g.pasid g.pinned,
                  grids := v.grids.map fun q => if q.seq = seq then { q with dropped := true } else q }
  | none => v

/-- The grants of a task with their pins, and the records they rest on, are released (R422). -/
def releaseGrants (v : Partition) (task pasid : Nat) : Partition :=
  let mine := v.granted.filter fun q => q.task == task
  sweepPins { v with
    pins := mine.foldl (fun ps q => giveRefs ps pasid (match pinOf v pasid q.page with | some r => [r.page] | none => [])) v.pins,
    granted := v.granted.filter fun q => q.task != task,
    parkRecs := v.parkRecs.filter fun q => q.task != task }

/-! ## Leaving a core, and the end of a task (R188, R318, R327, R422) -/

/-- A participant's team is saved no longer: it stands on a core again, or has ended. -/
def dropSaved (grid team : Nat) (n : Noon) : Noon := { n with saved := n.saved.filter fun q => !(q.grid == grid && q.team == team) }

/-- A team's core counts as arrived and leaves every Noon mask from the next generation on (R327, R353). -/
def leaveNoon (grid team core : Nat) (n : Noon) : Noon :=
  let n1 := { dropSaved grid team n with next := n.next.filter (· != core) }
  if n.mask.contains core then { n1 with arrived := insertNat n.arrived core } else n1

def noonLeave (s : State) (core : Nat) (t : Team) : State :=
  modPart s t.part fun v => { v with noon := mmap (leaveNoon t.grid t.index core) v.noon }

/-- Whether the bit of a core is set in a context's participant mask: for a team that stands there, from this generation or the next
on, or for one that left it and is Saved (R327, R353). -/
def noonBit (n : Noon) (core : Nat) : Bool := n.mask.contains core || n.next.contains core || n.saved.any (·.core == core)

/-- A core is emptied: dirty lines are written back, every copy, watch and pending access is gone (R188). -/
def emptyCore (s : State) (c part : Nat) : State :=
  let ws := (getCore s c).watches
  let s1 := modCore s c fun k => { k with watches := [], ops := [], accs := [], misses := [], prefs := [], bstore := [], winServed := [] }
  let s2 := (getCore s1 c).l1.foldl (fun s l => giveUpLine s c part l) s1
  let s3 := (ws.filter (·.armed)).foldl (fun s w => giveUpWatch s c part w.line) s2
  modCore s3 c fun k => { k with team := none }

/-- What a copy with an odd version word still writes: the rest of its payload, then the even version word. -/
def aonWrites (v : Partition) (pasid : Nat) (c : Copy) : List (Nat × List Byte) :=
  let pieces := fun (a : Nat) (bs : List Byte) => (lineSegs a bs.length).filterMap fun q =>
    (pinOf v pasid (q.1 / 4096)).map fun p => (pinAddr p q.1, (bs.drop (q.1 - a)).take q.2)
  let done := 128 * (c.units - 2)
  let even := match c.odd with | some w => (w.toNat + 1) % 2 ^ 64 | none => 0
  pieces (c.dst + 64 + done) (c.buffer.drop done) ++ pieces c.dst (toBytes 8 even)

/-- A copy whose version word is odd runs to completion whatever happens to its task (R197): what is left of it outlives its team. -/
def finishAon (s : State) (p pasid core : Nat) (c : Copy) : State :=
  if c.odd.isNone then s
  else modPart s p fun v => { v with aons := v.aons ++ [{ core := core, id := c.id, writes := aonWrites v pasid c }] }

/-- A team ends where it stands: nothing of it signals, written bytes remain (R180, R277, R318). -/
def endTeam (s : State) (c : Nat) : State :=
  match teamOf s c with
  | none => s
  | some t =>
    let pasid := match gridOf s t.part t.grid with | some q => q.pasid | none => 0
    let s1 := t.copies.foldl (fun s q => finishAon s t.part pasid c q) s
    let s2 := noonLeave (emptyCore s1 c t.part) c t
    { s2 with semWaits := s2.semWaits.filter (·.core != c), walks := s2.walks.filter (·.core != c) }

/-- A grid that its task's end ends: whatever its state but Retired, it is Ended with status 0x20 (Table 14-3). -/
def endGrid (task : Nat) (q : Grid) : Grid :=
  if q.task = task ∧ q.state ≠ .retired then { q with state := .ended, status := 0x20, nextTeam := q.teams, regrant := [] } else q

/-- The task ends: its grids are Ended with status 0x20, unplaced teams are discarded and placed and saved teams end
(Table 14-3, R389), its messages are cancelled, and its pins and granted ranges are given up (R367, R422). -/
def endTask (s : State) (p task : Nat) : State :=
  let gs := (getPart s p).grids.filter fun q => q.task == task
  let seqs := gs.map (·.seq)
  let pasid := match gs with | q :: _ => q.pasid | [] => 0
  let cs := (s.cores.filter fun q => match q.2.team with
    | some t => t.part == p && seqs.contains t.grid
    | none => false).map (·.1)
  let s0 := cs.foldl endTeam s
  let s1 := { s0 with msgs := s0.msgs.filter fun m => !(m.part == p && m.task == task) }
  modPart s1 p fun v =>
    let v1 := (gs.filter fun q => q.state != .retired).foldl (fun v q => dropGrid v q.seq) v
    releaseGrants { v1 with
      grids := v1.grids.map (endGrid task),
      saved := v.saved.filter fun q => !seqs.contains q.team.grid,
      saves := v.saves.filter fun q => !seqs.contains q.grid,
      noon := (v.saved.filter fun q => seqs.contains q.team.grid).foldl (fun m q => mmap (dropSaved q.team.grid q.team.index) m) v.noon } task pasid

/-! ## TAKING A FAULT (R389 - R396) -/

/-- What a fault says of itself (R390, R391, Table 20-2). -/
structure FaultInfo where
  code : Nat
  slot : Nat := 2
  uni : Bool := false
  thread : Nat := 127
  aux : Nat := 0
  addr : Nat := 0
  mask : Mask := 0
  desc : Word := 0
  deriving DecidableEq, Repr

/-- TCAUSE (R393). -/
def causeWord (f : FaultInfo) (lane : Bool) : Word :=
  BitVec.ofNat 32 (f.code % 256 + f.slot % 4 * 2 ^ 8 + b2n lane * 2 ^ 10 + b2n f.uni * 2 ^ 11 + f.thread % 128 * 2 ^ 12
    + f.aux % 4096 * 2 ^ 20)

/-- The record of a fault of the acting stream. -/
def faultRecord (s : State) (x : Ctx) (f : FaultInfo) (code aux : Nat) (ends : Bool) : Record :=
  { baseRecord s x code with
    ends := ends, uni := f.uni, slot := f.slot, thread := f.thread, aux := BitVec.ofNat 32 aux,
    addr := BitVec.ofNat 57 f.addr, mask := f.mask, desc := f.desc }

/-- A blocked scalar instruction is withdrawn: its requests are taken back (R394, R401). A release of either stream that was waiting
waits, when it is issued again, for what precedes it then (R209). -/
def takeBack (s : State) (c g : Nat) : State :=
  let s1 := { s with semWaits := s.semWaits.filter fun w => !(w.core == c && w.group == g),
                     walks := s.walks.filter fun w => !(w.core == c && w.group == some g) }
  let s2 := modCore s1 c fun k => { k with watches := k.watches.filter fun w => w.group != g,
                                           team := k.team.map fun t => { t with xacq := mdel t.xacq g } }
  modGroup s2 c g fun v =>
    let v1 := { v with fenceAt := none, lane := { v.lane with fenceAt := none, gathered := none } }
    if v.state = .exiting then v1 else { v1 with state := if v.state = .blocked then .ready else v.state, wait := .none }

/-- One group's instruction is withdrawn: a window request that stood behind its own may now be granted (R34). -/
def withdraw (s : State) (c g : Nat) : State := serveWindows (takeBack s c g) c

/-- Whether a handler takes an H fault (R394). -/
def handles (g : Group) : Bool := g.trap.tvec.toNat / 4 != 0 && !g.trap.h

/-- DELIVERY of an H fault to the group's handler (R394). `resume`: the scalar PC to save for a scalar fault. A lane fault
saves the lane word, and the scalar PC of the next or withdrawn scalar instruction. A running lane stream is suspended. -/
def deliverG (g : Group) (lane : Bool) (f : FaultInfo) (resume : Word) : Group :=
  let tepc := if lane then g.spc else resume
  let run := g.lane.running
  { g with
    trap := { g.trap with
      h := true, tepc := tepc, tlpc := if run then BitVec.ofNat 32 g.lane.lpc else g.trap.tlpc,
      tcause := causeWord f lane, taddr := BitVec.ofNat 57 f.addr, tmask := f.mask },
    lane := { g.lane with suspended := run },
    spc := g.trap.tvec &&& 0xFFFFFFFC#32, state := if g.state = .blocked then .ready else g.state, wait := .none }

/-- TAKING A FAULT, for the acting stream: an episode of the stream ends instead (R77); a handler takes an H fault; otherwise
the task ends with a record, under code 0x25 when the group was in handler mode (R389, R394). The instruction itself changes
nothing. -/
def raiseAt (s : State) (x : Ctx) (f : FaultInfo) (resume : Word) : State :=
  if inEpisode x then stopEpisode s x
  else if f.code < 0x20 && handles x.g then
    let s1 := traceFault (withdraw s x.core x.gi) x.team.part x.core f.code x.grid.seq
    modGroup (endEpisode s1 x.core x.gi false) x.core x.gi fun g => pauseTimer s.now (deliverG g x.lane f resume)
  else if f.code < 0x20 && x.g.trap.h then
    endTask (addRecord s (faultRecord s x f 0x25 f.code true)) x.team.part x.grid.task
  else endTask (addRecord s (faultRecord s x f f.code f.aux true)) x.team.part x.grid.task

def raise (s : State) (x : Ctx) (f : FaultInfo) : State := raiseAt s x f x.g.spc

/-- RETURNING FROM A FAULT (R396): the scalar stream resumes at TEPC, a suspended lane stream at TLPC with its path, stack and
view unchanged; TLPC = 0xFFFF_FFFF ends it, the threads of its paths counting as having reached LEND. -/
def trapReturnG (g : Group) : Group :=
  let g1 := { g with spc := g.trap.tepc, trap := { g.trap with h := false } }
  if g.lane.suspended then
    if g.trap.tlpc = 0xFFFFFFFF#32 then
      endLane { g1 with lane := { g1.lane with suspended := false, ended := g1.lane.ended ||| pathThreads g } }
    else settle 40 { g1 with lane := { g1.lane with suspended := false, lpc := g.trap.tlpc.toNat } }
  else g1

/-- Illegal-instruction, illegal-pairing and illegal-register faults name thread 127 and an empty mask (R391). -/
def raiseIllegal (s : State) (x : Ctx) : State := raise s x { code := 0x01 }

/-! ## Leases and translation (R364, R365) -/

/-- lease_ok(a, n, w): `wr` false for read. The image lease of R52 is the header's bytes below the data section. -/
def leaseOk (q : Grid) (a n : Nat) (wr : Bool) : Bool :=
  (q.leases.any fun l => !l.revoked && l.base ≤ a && a + n ≤ l.base + l.len && (if wr then l.w else l.r)) ||
    (!wr && !q.imageRevoked && q.image ≤ a && a + n ≤ q.image + q.hdr.dataOff)

/-- The outcome of translating an address of the acting task. -/
inductive Xlat where
  | ok (hpa : Nat)
  | fault          -- no translation, or one into another partition's window or a context area (0x22)
  | broken         -- the page is broken (0x21)
  deriving DecidableEq, Repr

def translate (s : State) (p pasid va : Nat) : Xlat :=
  match pinOf (getPart s p) pasid (va / 4096) with
  | none => .fault
  | some q =>
    let h := pinAddr q va
    if (tierOf s p h).isNone || inCtxArea (getPart s p) h then .fault
    else if q.broken then .broken
    else .ok h

/-- A page whose translation a migration has removed and not yet replaced: an access waits for it (R371). -/
def pageMoving (v : Partition) (pasid page : Nat) : Bool :=
  v.migs.any fun q => q.pasid == pasid && q.page == page && !q.installed

/-! ## Signals (R323): increments on their way to their anchors -/

/-- The instruction an increment is made for, which the record of its fault names (R391). -/
structure Origin where
  core : Nat
  group : Nat
  team : Nat
  grid : Nat
  pc : Word
  desc : Word := 0
  after : Nat
  tileOf : Option Nat := none

/-- An increment of the semaphore at virtual address `va` starts towards its anchor, as an access of the task: a page that is broken
or has no translation ends the task (R323, R369). -/
def signal (s : State) (p : Nat) (o : Origin) (va : Nat) (by_ : Word) : State :=
  match gridOf s p o.grid with
  | none => s
  | some g =>
    let fail := fun (code : Nat) => endTask (addRecord s {
      code := code, ends := true, core := o.core, group := o.group, region := coreRegion o.core, team := o.team, grid := o.grid,
      pc := o.pc, addr := BitVec.ofNat 57 va, desc := o.desc, pasid := g.pasid, part := p, dc := dayclock s (coreRegion o.core) }) p g.task
    match translate s p g.pasid va with
    | .ok h =>
      let i : SemInc := {
        id := s.fresh, part := p, pasid := g.pasid, va := va, hpa := h, by_ := by_, core := some o.core, grid := o.grid,
        team := some o.team, after := o.after, tileOf := o.tileOf }
      { bumpFresh s with incs := s.incs ++ [i] }
    | .fault => fail 0x22
    | .broken => fail 0x21

/-- Every 4 KiB page that n bytes from a touch. -/
def pagesOf (a n : Nat) : List Nat := if n = 0 then [] else upFrom (a / 4096) ((a + n - 1) / 4096 - a / 4096 + 1)

/-- Bytes of a virtual range read in one step, when every page translates; none where a line is not quiet or a page fails. -/
def readVirt (s : State) (p pasid a n : Nat) : Option (List Byte) :=
  (List.range n).foldr (fun i acc =>
    match acc, translate s p pasid (a + i) with
    | some r, .ok h => some (byteValue s p h :: r)
    | _, _ => none) (some [])

/-- The first fault that an access of the task to n bytes at `a` meets: out-of-lease, translation, lease-broken (R252). -/
def globalFault (s : State) (x : Ctx) (a n : Nat) (wr : Bool) : Option Nat :=
  if !leaseOk x.grid a n wr then some 0x20
  else
    let ts := (pagesOf a n).map fun pg => translate s x.team.part x.grid.pasid (if pg = a / 4096 then a else pg * 4096)
    if ts.contains .fault then some 0x22 else if ts.contains .broken then some 0x21 else none

/-! ## Scratch (R43, R195) -/

/-- Scratch bytes of a team: 256 KiB less the L1 share. -/
def scratchSize (t : Team) : Nat := 0x40000 - t.l1

/-- The first local address programs may not use (R43). -/
def localLimit (t : Team) : Nat := scratchSize t - 0x2200

/-- Whether n bytes at a local address meet a range the copy scoreboard covers (R195). -/
def boardHit (t : Team) (a n : Nat) : Bool :=
  t.copies.any fun c => match c.entry with | some (lo, hi) => decide (a ≤ hi) && decide (lo < a + n) | none => false

def scratchRead (t : Team) (a n : Nat) : Nat := readLE t.scratch a n

/-- The uncorrectable words a save listed (R411): whether n scratch bytes from `a` meet one (a word has 8 bytes), and the list
after a write there, which mends the words it replaces whole. (DEDUCED, log 35.) -/
def badScratch (t : Team) (a n : Nat) : Bool :=
  t.bad.any fun b => match b with
    | .scratch w => decide (a < alignDown w 8 + 8) && decide (alignDown w 8 < a + n)
    | _ => false

/-- Uncorrectable words of scratch, of 8 bytes each, that a write of bytes a to a + n - 1 does not replace whole (DEDUCED, log 35). -/
def mendScratch (l : List BadWord) (a n : Nat) : List BadWord :=
  l.filter fun b => match b with
    | .scratch w => !(decide (a ≤ alignDown w 8) && decide (alignDown w 8 + 8 ≤ a + n))
    | _ => true

def scratchWrite (t : Team) (a n v : Nat) : Team :=
  { t with scratch := writeLE t.scratch a n v, bad := mendScratch t.bad a n }

/-- An asynchronous operation reads an uncorrectable word: its fault waits for its group's next scalar instruction (R411). -/
def asyncFail (s : State) (c g after : Nat) (pc : Word) : State :=
  modTeam s c fun t => { t with asyncErr := t.asyncErr ++ [{ group := g, pc := pc, code := 0x12, after := after }] }

/-! ## Counts of WAIT and operations in flight (R267, R39) -/

/-- Loads or stores of a group outstanding: semaphore instructions are neither. -/
def countOps (k : Core) (gi : Nat) (store : Bool) : Nat :=
  (k.ops.filter fun o => o.group == gi && ((o.kind == .st || o.kind == .sc) == store) && o.kind != .seminc && !o.sem).length

/-- Whether an asynchronous operation with a number is the group's own: not one of an earlier group of its slot (R34). -/
def issuedBy (t : Team) (gi group n : Nat) : Bool :=
  group == gi && match groupIn t gi with | some g => decide (g.born ≤ n) | none => true

/-- The group's messages that are not placed. -/
def sendsOf (s : State) (t : Team) (gi : Nat) : List Message :=
  s.msgs.filter fun m => m.part == t.part && m.team == t.index && m.grid == t.grid && issuedBy t gi m.group m.id

/-- The group's copies, collectives and messages outstanding. -/
def countCopies (s : State) (t : Team) (gi : Nat) : Nat :=
  (t.copies.filter fun q => issuedBy t gi q.group q.id).length + (t.colls.filter fun q => issuedBy t gi q.group q.after).length +
    (sendsOf s t gi).length

/-- The group's matrix commands that have not completed: one that signals completes with its increment (R161). -/
def countTile (s : State) (t : Team) (gi : Nat) : Nat :=
  (t.queue.filter fun q => issuedBy t gi q.group q.after).length +
    (s.incs.filter fun i => i.part == t.part && i.grid == t.grid && i.team == some t.index &&
      match i.tileOf with | some g => issuedBy t gi g i.after | none => false).length

/-- Whether a team is Resident or Draining: its streams may run (R303). -/
def activeTeam (t : Team) : Bool := t.state == .resident || t.state == .draining

/-- Team leader: the resident group with the lowest index (R36). -/
def leaderOf (t : Team) : Option Nat := minOf? (mkeys t.groups)

/-! ## Team barriers (R326) -/

/-- A barrier's arrival is cleared, and a stream that waits on the barrier may go on. -/
def clearArrival (b : Nat) (g : Group) : Group :=
  let g1 := { g with arrived := g.arrived.filter (· != b) }
  if g.wait = .bar b then { g1 with state := .ready, wait := .none } else g1

/-- A team slot releases when every resident group has arrived: the generation counts up and the arrivals clear. -/
def releaseBar (t : Team) (b : Nat) : Team :=
  let gs := mvals t.groups
  if gs.any (fun g => g.arrived.contains b) && gs.all (fun g => g.arrived.contains b || g.state == .exiting) then
    { t with groups := mmap (clearArrival b) t.groups,
             bars := mput t.bars b { gen := (mget {} t.bars b).gen + 1 } }
  else t

def releaseBars (t : Team) : Team := (List.range 16).foldl releaseBar t

/-- A core arrives at a Noon context once every resident group of its team has (R326). -/
def noonArrive (s : State) (c : Nat) : State :=
  match teamOf s c with
  | none => s
  | some t =>
    let here := fun (k : Nat) => !t.groups.isEmpty && (mvals t.groups).all fun g => g.arrived.contains (16 + k) || g.state == .exiting
    let arrive := fun (q : Nat × Noon) =>
      if here q.1 && noonBit q.2 c then (q.1, { q.2 with arrived := insertNat q.2.arrived c }) else q
    modPart s t.part fun v => { v with noon := v.noon.map arrive }

end Sys2Proof.Machine
end

