-- ==== Sys2Proof/Machine/LPath.lean ====
section
/-! DEFINITION. The core's side of the L path: pending operations and their accesses, the private L1, requests to anchors,
and the ordering an issuing stream keeps (R188, R205 - R209, R224, R225, R230, R233, R241, R248). -/

namespace Sys2Proof.Machine

open Sys2Proof

/-! ## Accesses -/

def modAcc (s : State) (c id : Nat) (f : Access → Access) : State :=
  modCore s c fun k => { k with accs := k.accs.map fun a => if a.id = id then f a else a }

def opOf (k : Core) (id : Nat) : Option PendOp := k.ops.find? fun o => o.id == id

/-- An operation leaves the core: with it its accesses, and the acquire later accesses wait for. -/
def dropOp (s : State) (c : Nat) (o : PendOp) : State :=
  let s1 := modCore s c fun k => { k with ops := k.ops.filter fun q => q.id != o.id, accs := k.accs.filter fun a => a.op != o.id }
  modGroup s1 c o.group fun g => { g with acquiring := g.acquiring.filter (· != o.id) }

def opDone (k : Core) (id : Nat) : Bool := !(k.accs.any fun a => a.op == id && a.state != .done)

/-- The first write that a core has still to make among the accesses below a number, and whether there is one (R248). -/
def writeBefore (k : Core) (n : Nat) : Option Access :=
  k.accs.find? fun a => decide (a.id < n) && a.state != .done && a.kind != .ld && a.kind != .ll && a.kind != .ldver
def writesBefore (k : Core) (n : Nat) : Bool := (writeBefore k n).isSome

/-- Whether an operation is itself a release at team scope or below. -/
def ownRelease (o : PendOp) : Bool := (o.attr.order == 2 || o.attr.order == 3) && decide (o.attr.scope ≤ 1)

/-- The number below which a core's accesses precede the release that a write is, or stands for (R211, R218): its own when it is a
release at team scope or below, else that of the release fence `f` it stands behind; 0: it is none. -/
def releaseAt (k : Core) (f : FenceMark → Nat) (a : Access) : Nat :=
  match opOf k a.op with
  | none => 0
  | some o => if ownRelease o then a.id else f o.fences

/-- The note of a release that a write of operation `o` makes, behind the accesses below `n`: it names the word itself, or the fence
whose release half the write stands for, the last at team scope where the release bit is meant (R248, R392). -/
def relNote (o : PendOp) (bit_ : Bool) (n : Nat) : RelNote :=
  if ownRelease o then { upTo := n, group := o.group, lane := o.lane, pc := o.pc }
  else { upTo := n, group := o.group, lane := false, pc := if bit_ then o.fences.teamPc else o.fences.relPc }

/-- The notes of a core that still say something: writes that precede the release are still to be made. -/
def liveRels (k : Core) : SMap RelNote := k.rels.filter fun q => writesBefore k q.2.upTo

/-- A core remembers that operation `o` has written a line as a release, or behind a release fence, at team scope or below, while
writes numbered below `n`, which precede it, are still to be made: a promoted access to such a line, whoever makes it and whatever
became of the copy, waits for them (R218). (DEDUCED, log 18.) -/
def noteLine (k : Core) (l n : Nat) (o : PendOp) : Core :=
  let live := liveRels k
  let old := match mget? live l with | some r => r.upTo | none => 0
  if n = 0 ∨ writesBefore k n = false ∨ n ≤ old then { k with rels := live }
  else { k with rels := mput live l (relNote o false n) }

/-- What a core remembers once one of its accesses has been made. (DEDUCED, log 18.) -/
def noteRelease (k : Core) (a : Access) : Core :=
  match opOf k a.op with
  | some o => if a.kind = .ld ∨ a.kind = .ll ∨ a.kind = .ldver then { k with rels := liveRels k }
              else noteLine k (lineBase a.hpa) (releaseAt k (·.rel) a) o
  | none => { k with rels := liveRels k }

/-- An operation that acquires (R203). -/
def acquires (a : Attr) : Bool := a.order == 1 || a.order == 3 || a.scope == 6

/-- A group acquires, or executes a fence, at number `n`: what it does from here on may come behind any write of its core numbered
below, since a release it reads, on any path or in scratch, was made before (R209 - R214, R217). -/
def hear (n : Nat) (g : Group) : Group := { g with heard := max g.heard n }

/-- A group acquires where `b` says that a word does. -/
def hearIf (b : Bool) (n : Nat) (g : Group) : Group := if b then hear n g else g

/-- Whether an operation of the acting group that reads or writes otherwise than through its core's write buffer must wait: writes of the
core are still to be made that may come before it, since its group has acquired or executed a fence after they were issued (R209,
R214). (DEDUCED, log 18.) -/
def hearWaits (s : State) (x : Ctx) : Bool := writesBefore (getCore s x.core) x.g.heard

/-- Whether every write that precedes a core's release of a line has been made (R218). -/
def relDrained (k : Core) (line : Nat) : Bool := match mget? k.rels line with | some r => !writesBefore k r.upTo | none => true

/-! ## Draining the write buffer (R248, R392) -/

/-- Whether a write is held in the write buffer: a release at team scope follows it, and the line that carries the release bit is
still in the L1 (R248). -/
def heldWrite (k : Core) (a : Access) : Bool :=
  a.kind == .st && a.state == .queued && k.l1.any fun l => l.rel && decide (a.id < l.relAt)

/-- Whether a held write's page is broken by the time it drains (R369, R392). -/
def cannotDrain (s : State) (c : Nat) (t : Team) (a : Access) : Bool :=
  heldWrite (getCore s c) a && match gridOf s t.part t.grid with
    | some g => translate s t.part g.pasid a.va == .broken
    | none => false

/-- The first write that a drain of the accesses below a number cannot make, those before it having been made. -/
def undrainable (s : State) (c n : Nat) : Option Access :=
  match teamOf s c, writeBefore (getCore s c) n with
  | some t, some a => if cannotDrain s c t a then some a else none
  | _, _ => none

/-- The release that set the release bit of a line whose drain covers a write, the line given, or the first such; of a line that is in
the L1 no more, the last release on it (R392). (DEDUCED, log 18.) -/
def releaseOver (k : Core) (line : Option Nat) (a : Access) : Option RelNote :=
  let held := k.l1.find? fun l => l.rel && match line with | some n => l.line == n | none => decide (a.id < l.relAt)
  (held.bind (·.relBy)).or (match line with
    | some l => mget? k.rels l
    | none => (mvals k.rels).find? fun r => decide (a.id < r.upTo))

/-- Such a drain, that neither a wider release nor a fence began, ends the task: the fault is that of the release which set the
release bit of the line that is torn down or replaced, or, where no line is, of the first that covers the write; `promo` where a
promoted teardown or a replacement forced it (R392). (DEDUCED, log 18.) -/
def drainFault (s : State) (c : Nat) (line : Option Nat) (a : Access) : State :=
  let promo := line.isSome
  let note := releaseOver (getCore s c) line a
  match teamOf s c, note with
  | some t, some r =>
    match gridOf s t.part t.grid with
    | some g => endTask (addRecord s {
        code := 0x21, ends := true, lane := r.lane, promo := promo, core := c, group := r.group, region := coreRegion c, team := t.index,
        grid := g.seq, pc := BitVec.ofNat 32 r.pc, addr := BitVec.ofNat 57 a.va, pasid := g.pasid, part := t.part,
        dc := dayclock s (coreRegion c) }) t.part g.task
    | none => s
  | _, _ => s

/-- What waits for the writes of a core below a number drains them: it goes on waiting, or the drain ends the task. `line`: the line of
the release whose teardown or replacement asks for it. -/
def drainUpTo (s : State) (c n : Nat) (line : Option Nat) : State :=
  match undrainable s c n with | some a => drainFault s c line a | none => s

/-- An access is made. With one that acquires its group hears what its core has issued before (R210, R214). A store word is complete
with its last access (R256, R267). -/
def finishAcc (s : State) (c : Nat) (a : Access) (v : BitVec 128) : State :=
  let s1 := modCore (modAcc s c a.id fun q => { q with state := .done, value := v }) c fun k => noteRelease k a
  match opOf (getCore s1 c) a.op with
  | some o =>
    let s2 := if acquires o.attr then modGroup s1 c o.group (hear s.fresh) else s1
    if o.kind = .st && opDone (getCore s2 c) o.id then dropOp s2 c o else s2
  | none => s1

/-- The reservation of a thread set or replaced (R265). -/
def setResv (s : State) (c g t : Nat) (r : Option Reservation) : State :=
  modGroup s c g fun v => { v with resv := match r with | some q => mput v.resv t q | none => mdel v.resv t }

def resvHeld (s : State) (c g t line : Nat) : Bool :=
  match groupOf s c g with
  | some v => match mget? v.resv t with | some q => q.line == line | none => false
  | none => false

/-! ## Translation caches (R364): what a core and its die have translated -/

def tlbPut (l : List Tlb) (e : Tlb) (n : Nat) : List Tlb := (e :: l.filter fun q => q != e).take n

/-- The set of the die's cache that holds a translation: R364 gives 256 sets and no index. (DESIGN CHOICE, log 48.) -/
def tlbSet (e : Tlb) : Nat := e.vpage / e.size % 256

/-- The die's cache with a translation as its most recent: 256 sets of 8 ways, each least recently used (R364). -/
def dieTlbPut (l : List Tlb) (e : Tlb) : List Tlb :=
  let rest := l.filter fun q => q != e
  let mine := (rest.filter fun q => tlbSet q == tlbSet e).take 7
  e :: rest.filter fun q => tlbSet q != tlbSet e || mine.contains q

/-- A core uses a translation. A core miss looks in the die's cache, which a die miss fills first (R364). -/
def touchTlb (s : State) (c : Nat) (e : Tlb) : State :=
  let hit := (getCore s c).tlb.contains e
  let s1 := modCore s c fun k => { k with tlb := tlbPut k.tlb e 64 }
  if hit then s1 else modDie s1 (dieOf c) fun d => { d with tlb := dieTlbPut d.tlb e }

/-- Whether an entry holds the translation of an address. -/
def Tlb.holds (e : Tlb) (pasid va : Nat) : Bool :=
  e.pasid == pasid && decide (e.vpage ≤ va / 4096) && decide (va / 4096 < e.vpage + e.size)

/-- The acting stream uses a translation: the core's cache has it, or the die's, or the pin table (R364). -/
def touchPage (s : State) (x : Ctx) (va : Nat) : State :=
  let held := fun (l : List Tlb) => l.find? fun e => e.holds x.grid.pasid va
  touchTlb s x.core (match held (getCore s x.core).tlb, held (getDie s (dieOf x.core)).tlb with
    | some e, _ => e
    | none, some e => e
    | none, none => tlbEntry (getPart s x.team.part) x.grid.pasid va)

def tlbHit (k : Core) (pasid va : Nat) : Bool := k.tlb.any fun e => e.holds pasid va

/-- Whether the die's cache, in which a core miss looks, has a translation (R364). -/
def dieTlbHit (s : State) (c pasid va : Nat) : Bool := (getDie s (dieOf c)).tlb.any fun e => e.holds pasid va

/-! ## The L1 (R188, R224, R225) -/

/-- Sets of a team's L1 (R188); a share of 0 is no L1 (DEDUCED, log 17). -/
def l1Sets (t : Team) : Nat := if t.l1 = 0x20000 then 128 else 64

/-- Whether every write of a core that precedes the release on a line has been made (R248). (DEDUCED, log 18.) -/
def drained (k : Core) (l : L1Line) : Bool := !l.rel || !writesBefore k l.relAt

/-- Whether a line cannot drain before another comes: a write to that other one is among those that precede its release. -/
def needsFirst (k : Core) (line : Nat) (l : L1Line) : Bool :=
  l.rel && k.accs.any fun a => decide (a.id < l.relAt) && a.state != .done && lineBase a.hpa == line &&
    a.kind != .ld && a.kind != .ll && a.kind != .ldver

/-- The line of a full set that gives way to another: the least recently used (R188). One that could drain only after the other has come
is passed over while there is another. (DEDUCED, log 18.) -/
def lruOf (k : Core) (ls : List L1Line) (line : Nat) : Option L1Line :=
  ((ls.filter fun l => !needsFirst k line l).getLast?).or ls.getLast?

/-- The way a new line of a set displaces: none when one is free (first), or the least recently used line once it may go: its release
drained (R248), and no upgrade of it under way. (DEDUCED, log 18.) -/
def victimOf (k : Core) (set line : Nat) : Option (Option L1Line) :=
  let ls := k.l1.filter fun l => l.set == set && l.line != line
  if ls.length < 8 then some none
  else match lruOf k ls line with
    | some l => if (drained k l || needsFirst k line l) && !(k.misses.any fun m => m.line == l.line) then some (some l) else none
    | none => none

/-- A line that cannot be installed makes the line that is to give way to it drain, when that carries a release bit (R248). -/
def drainVictim (s : State) (c set line : Nat) : State :=
  let k := getCore s c
  match lruOf k (k.l1.filter fun l => l.set == set && l.line != line) line with
  | some l => if victimOf k set line = none ∧ l.rel then drainUpTo s c l.relAt (some l.line) else s
  | none => s

/-- Whether a line can be installed now: a way is free, or its line may go and its write-back is not the core's 65th to its slice
(R242). (DEDUCED, log 17.) -/
def canInstall (s : State) (c set line : Nat) : Bool :=
  match victimOf (getCore s c) set line with
  | none => false
  | some none => true
  | some (some v) => !dirty v.state || !windowFull s (.core c) (match teamOf s c with | some t => t.part | none => 0) v.line

/-- Installs a line, giving up its victim (Table 10-2). -/
def install (s : State) (c part : Nat) (l : L1Line) : State :=
  let s1 := match victimOf (getCore s c) l.set l.line with
    | some (some v) => giveUpLine s c part v
    | _ => s
  modCore s1 c fun k => l1Put k l

def setOf (t : Team) (va : Nat) : Nat := va / 128 % l1Sets t

/-- The state a supplier keeps after a steered read (Table 10-2). -/
def supplied (st : Moesi) : Moesi := match st with | .e => .s | .m => .o | .s => .s | .o => .o

/-- Another L1 of the die that supplies a line (R224): the lowest-numbered that holds it. One whose upgrade the anchor's sweep has
already served holds it for its own grant alone. (DEDUCED, log 16.) -/
def dieSupplier (s : State) (c line : Nat) : Option Nat :=
  (dieCores (dieOf c)).find? fun q => q != c && (l1Find (getCore s q) line).isSome &&
    !((getCore s q).misses.any fun m => m.line == line && m.swept)

/-! ## Requests (R226, R230, R242) -/

/-- A request, by a virtual address, enters the network at the core's router. All but reads carry a sequence number; the request is
outstanding until its response arrives. -/
def sendReq (s : State) (c : Nat) (m : Msg) (kind : MissKind) (leader va : Nat) (prefetch : Bool) : State :=
  let m1 := { m with req := .core c, txn := s.fresh, seq := seqOf s (.core c), prefetch := prefetch }
  let s0 := if numbered m then bumpSeq s (.core c) else s
  let s1 := modCore (bumpFresh s0) c fun k => { k with
    misses := k.misses ++ [{ line := m.line, txn := s.fresh, kind := kind, prefetch := prefetch, leader := leader, va := va }] }
  inject { s1 with outstanding := s1.outstanding ++ [{ msg := m1, sent := s.now }] } m1 (coreSite c)

/-- The miss a core has under way for a line (DEDUCED, log 16). -/
def missFor (k : Core) (line : Nat) : Option Miss := k.misses.find? fun m => m.line == line

/-- The response of a transaction has arrived. -/
def endMiss (s : State) (c txn : Nat) : State :=
  let s1 := modCore s c fun k => { k with misses := k.misses.filter fun m => m.txn != txn }
  answerOut s1 fun o => o.msg.req == .core c && o.msg.txn == txn

def anchorOpOf (a : Access) : AnchorOp :=
  { kind := match a.kind with
      | .ld | .ll | .ldver => .read
      | .st => .write
      | .cas => .cas
      | .sc => .sc
      | .atom | .seminc => .atom a.aop,
    addr := a.hpa, size := a.size, data := a.data, cmp := a.cmp, prom := a.prom }

/-- An operation goes to its line's anchor (R233; every access of a team without an L1, R188). -/
def sendOp (s : State) (c part : Nat) (a : Access) : State :=
  if a.kind != .ld && a.kind != .ll && a.kind != .ldver && windowFull s (.core c) part (lineBase a.hpa) then s
  else
    let m := { lineMsg .opReq (lineBase a.hpa) part (.core c) none with op := some (anchorOpOf a) }
    sendReq (modAcc s c a.id fun q => { q with state := .sent }) c m (.op a.id) a.id a.va false

/-- A store lands in a line held in E or M: the line turns M, carries a release where the store is one at team scope, and ends
the core's watches on it (R225, R248, R268). -/
def performStore (s : State) (c : Nat) (l : L1Line) (a : Access) : State :=
  let n := releaseAt (getCore s c) (·.team) a
  let by_ := (opOf (getCore s c) a.op).filter fun o => n != 0 && (o.attr.scope == 1 || !(o.attr.order == 2 || o.attr.order == 3))
  let l0 := { l with state := .m, data := setLineField l.data (a.hpa % 128) a.size a.data.toNat, rel := l.rel || by_.isSome }
  let l1 := match by_ with
    | some o => if l.relAt < n then { l0 with relAt := n, relBy := some (relNote o true n) } else l0
    | none => l0
  finishAcc (endWatches (modCore s c fun k => l1Put k l1) c l.line) c a 0

/-- The first access of a core to a line that is not made. -/
def headAcc (k : Core) (line : Nat) : Option Access := k.accs.find? fun a => lineBase a.hpa == line && a.state != .done

/-- A load takes its value from a line. -/
def performLoad (s : State) (c : Nat) (d : Line) (a : Access) (held : Bool) : State :=
  let v := BitVec.ofNat 128 (lineField d (a.hpa % 128) a.size)
  let s1 := finishAcc s c a v
  match a.kind, opOf (getCore s c) a.op with
  | .ll, some o =>
    setResv s1 c o.group a.thread (if held then some { line := lineBase a.hpa, atAnchor := false } else none)
  | _, _ => s1

/-- An access whose translation a shootdown has removed waits while its page is being migrated; one that was issued with the old
translation goes on (R371, R372). -/
def accWaits (s : State) (c : Nat) (t : Team) (a : Access) : Bool :=
  let v := getPart s t.part
  match gridOf s t.part t.grid with
  | none => false
  | some g => match v.migs.find? fun q => q.pasid == g.pasid && q.page == a.va / 4096 && !q.installed with
    | none => false
    | some q => match v.shots.find? fun h => h.id == q.shot with
      | some h => !h.toVisit.contains c && !(h.toAck.any fun r => r.1 == c && r.2.contains a.id)
      | none => true

/-- Whether an access has entered the network: its own request, which it leads, is in flight. -/
def entered (k : Core) (b : Access) : Bool := b.state != .queued || k.misses.any fun m => m.line == lineBase b.hpa && m.leader == b.id

/-- Whether an operation releases, and whether no later request overtakes it (R241). -/
def releases (o : PendOp) : Bool := o.attr.order == 2 || o.attr.order == 3 || o.attr.scope == 6
def ordered (o : PendOp) : Bool := releases o || acquires o.attr

/-- Whether a request of a group, numbered `id`, of the line at `line`, behind the group's last fence `fence`, must stay behind an earlier
one of the group that has not entered the network: no request overtakes an earlier release, acquire or fence, and no release or fence
an earlier request (R241). `rel`: it releases. The accesses that are still queued are the core's injection queue, in the order of
their numbers; a write that the buffer holds for a broken page makes no request (R248, R369). -/
def reqHeld (s : State) (c : Nat) (t : Team) (group id line fence : Nat) (rel : Bool) : Bool :=
  let k := getCore s c
  k.accs.any fun b => decide (b.id < id) && !entered k b && lineBase b.hpa != line && !cannotDrain s c t b &&
    match opOf k b.op with
    | some o => o.group == group && (rel || ordered o || decide (b.id < fence))
    | none => false

/-- Whether the request of an access must wait so. -/
def heldBack (s : State) (c : Nat) (t : Team) (a : Access) : Bool :=
  match opOf (getCore s c) a.op with
  | some o => reqHeld s c t o.group a.id (lineBase a.hpa) o.fences.last (releases o)
  | none => false

/-- Whether a prefetch must wait so (R241). -/
def prefHeld (s : State) (c : Nat) (t : Team) (q : PrefReq) : Bool := reqHeld s c t q.group q.id q.line q.fence false

/-- The accesses of a core to a line that are not made, in order. -/
def lineQueue (k : Core) (line : Nat) : List Access := k.accs.filter fun a => lineBase a.hpa == line && a.state != .done

/-- Stores laid over a line, and whether they write every byte of an access. -/
def overlay (d : Line) (l : List Access) : Line := l.foldl (fun d a => setLineField d (a.hpa % 128) a.size a.data.toNat) d
def covers (l : List Access) (a : Access) : Bool :=
  (upFrom a.hpa a.size).all fun h => l.any fun q => decide (q.hpa ≤ h) && decide (h < q.hpa + q.size)

/-- Whether a load may take its value from stores that are still to be made: an acquire at die scope or wider takes none of another
group's, which other parties cannot read yet (R216). -/
def mayForward (k : Core) (a : Access) (sts : List Access) : Bool :=
  match opOf k a.op with
  | none => false
  | some o => !(acquires o.attr && decide (2 ≤ o.attr.scope)) ||
      sts.all fun b => match opOf k b.op with | some p => p.group == o.group | none => false

/-- A load reads the core's write buffer before its L1 (R248): behind stores of the core to the line that are still to be made it takes
its value from them, and from the L1's copy where they do not write all of it. -/
def bufferedLoad (s : State) (c : Nat) (t : Team) (line : Nat) : Option State :=
  let k := getCore s c
  let q := lineQueue k line
  let sts := q.takeWhile fun a => a.kind == .st
  match sts, (q.drop sts.length).head? with
  | _ :: _, some a =>
    if a.kind ≠ .ld ∨ a.state ≠ .queued ∨ accWaits s c t a ∨ mayForward k a sts = false then none
    else match l1Find k line with
      | some l => some (performLoad s c (overlay l.data sts) a true)
      | none => if covers sts a then some (performLoad s c (overlay 0 sts) a false) else none
  | _, _ => none

/-- One access at the head of a line's queue: made, or its request sent. None when it must wait for what is in flight, or for
earlier requests. -/
def pumpHead (s : State) (c : Nat) (t : Team) (line : Nat) : Option State :=
  let k := getCore s c
  match headAcc k line with
  | none => none
  | some a =>
    if a.state = .sent ∨ (missFor k line).isSome ∨ accWaits s c t a ∨ unsent s t.part line (coreSite c) then none
    else if heldBack s c t a && ((l1Find k line).isNone || (a.kind != .st && a.kind != .ld && a.kind != .ll)) then none
    else match a.kind with
      | .atom | .cas | .seminc => some (sendOp s c t.part a)
      | .sc =>
        match opOf k a.op with
        | none => none
        | some o =>
          if resvHeld s c o.group a.thread line then some (sendOp s c t.part a)
          else some (finishAcc (setResv s c o.group a.thread none) c a 0)
      | .st =>
        if cannotDrain s c t a then none
        else if t.l1 = 0 then some (sendOp s c t.part a)
        else match l1Find k line with
          | some l =>
            if l.state = .m ∨ l.state = .e then some (performStore s c l a)
            else if heldBack s c t a then none
            else if windowFull s (.core c) t.part line then none
            else some (sendReq s c (lineMsg .upgrade line t.part (.core c) none) .upgrade a.id a.va false)
          | none =>
            if windowFull s (.core c) t.part line then none
            else some (sendReq s c (lineMsg .writeReq line t.part (.core c) none) .write a.id a.va false)
      | .ld | .ll | .ldver =>
        if t.l1 = 0 then some (sendOp s c t.part a)
        else match l1Find k line with
          | some l => some (performLoad (modCore s c fun k => l1Put k l) c l.data a true)
          | none =>
            let set := setOf t a.va
            match dieSupplier s c line with
            | some q =>
              if canInstall s c set line then
                match l1Find (getCore s q) line with
                | some l =>
                  let s1 := modCore s q fun k => l1Set k { l with state := supplied l.state }
                  some (install s1 c t.part { line := line, set := set, state := .s, data := l.data })
                | none => none
              else none
            | none => some (sendReq s c (lineMsg .homeRead line t.part (.core c) none) .read a.id a.va false)

/-- The next thing a line's queue can do: its head, or a load that the write buffer serves. -/
def pumpOne (s : State) (c : Nat) (t : Team) (line : Nat) : Option State :=
  match pumpHead s c t line with
  | some s1 => some s1
  | none => bufferedLoad s c t line

/-- Accesses of a line's queue made as far as they go. -/
def pumpLine : Nat → State → Nat → Nat → State
  | 0, s, _, _ => s
  | n + 1, s, c, line =>
    match teamOf s c with
    | none => s
    | some t =>
      match pumpOne s c t line with
      | none => s
      | some s1 => pumpLine n s1 c line

/-- The lines of a core's accesses that are not made. -/
def waitingLines (k : Core) : List Nat := ((k.accs.filter fun a => a.state == .queued).map fun a => lineBase a.hpa).foldl addNew []

/-- A prefetch that waited in the injection queue enters the network once nothing holds it back; it is not made where its line has come
meanwhile, or its translation gone (R74, R241). -/
def sendPref (s : State) (c : Nat) (q : PrefReq) : State :=
  match teamOf s c with
  | none => s
  | some t =>
    if prefHeld s c t q then s
    else
      let s1 := modCore s c fun k => { k with prefs := k.prefs.filter (· != q) }
      let k := getCore s1 c
      let there := match gridOf s t.part t.grid with
        | some g => translate s t.part g.pasid q.va == .ok (q.line + q.va % 128) && !pageMoving (getPart s t.part) g.pasid (q.va / 4096)
        | none => false
      if !there || (l1Find k q.line).isSome || (missFor k q.line).isSome || (headAcc k q.line).isSome then s1
      else sendReq s1 c (lineMsg .homeRead q.line t.part (.core c) none) .read 0 q.va true

/-- Every queue of a core, twice: a request that was sent may have held back others; then the prefetches that waited. -/
def pump (s : State) (c : Nat) : State :=
  let k := getCore s c
  let s1 := (waitingLines k ++ waitingLines k).foldl (fun s l => pumpLine (2 * k.accs.length + 2) s c l) s
  k.prefs.foldl (fun s q => sendPref s c q) s1

/-! ## Ordering at issue (R209, R211, R218, R248) -/

/-- A release at die scope or wider, or a promoted access, waits for every earlier access of the core. -/
def wideRelease (order scope : Nat) : Bool := scope == 6 || ((order == 2 || order == 3) && decide (2 ≤ scope))

def accsBefore (k : Core) (n : Nat) : Bool := k.accs.any fun a => decide (a.id < n) && a.state != .done
def opsBefore (k : Core) (n : Nat) : Bool := k.ops.any fun o => decide (o.id < n)

/-- The number from which accesses are later than the release the acting stream is making. -/
def fenceFrom (s : State) (x : Ctx) : Nat := ((if x.lane then x.g.lane.fenceAt else x.g.fenceAt)).getD s.fresh

def setFence (x : Ctx) (g : Group) (f : Option Nat) : Group :=
  if x.lane then { g with lane := { g.lane with fenceAt := f } } else { g with fenceAt := f }

/-- Whether a wide release of the acting stream must still wait. -/
def releaseWaits (s : State) (x : Ctx) : Bool :=
  let k := getCore s x.core
  accsBefore k (fenceFrom s x) || opsBefore k (fenceFrom s x)

/-- A wide release waits, from now on for the accesses issued so far. -/
def fenceWait (s : State) (x : Ctx) : State :=
  if x.lane then putG s x (setFence x x.g (some (fenceFrom s x)))
  else putG s x { setFence x x.g (some (fenceFrom s x)) with state := .blocked, wait := .fence }

/-! ## Issuing an operation -/

/-- Numbers for one operation and its accesses are taken; its accesses are queued and pumped. -/
def issueOp (s : State) (x : Ctx) (o : PendOp) (as_ : List Access) : State :=
  let id := s.fresh
  let n := as_.length
  let accs := (List.range n).map fun i => match as_[i]? with
    | some a => { a with id := id + 1 + i, op := id }
    | none => { id := 0, op := 0, thread := 0, kind := .ld, va := 0, hpa := 0, size := 0, state := .done }
  let s1 := { s with fresh := id + n + 1 }
  let s2 := modCore s1 x.core fun k => { k with ops := k.ops ++ [{ o with id := id, fences := x.g.fences }], accs := k.accs ++ accs }
  let acq := acquires o.attr && n != 0
  let s3 := modGroup s2 x.core x.gi fun g => if acq then { g with acquiring := g.acquiring ++ [id] } else g
  let s4 := as_.foldl (fun s a => touchPage s x a.va) s3
  pump s4 x.core

/-- The value of an operation for a thread: its accesses' bytes in order of address. -/
def opValue (k : Core) (o : PendOp) (t : Nat) : Nat :=
  let l := k.accs.filter fun a => a.op == o.id && a.thread == t
  (l.foldr (fun a v => a.value.toNat % 2 ^ (8 * a.size) + v * 2 ^ (8 * a.size)) 0)

/-- A value extended to 32-bit words (R255, R260). -/
def extendW (size : Nat) (sext : Bool) (v : Nat) : Nat :=
  if sext && decide (size < 4) then ofSigned 32 (toSigned (8 * size) v) else v

def wordOfNat (v k : Nat) : Word := BitVec.ofNat 32 (v / 2 ^ (32 * k))

/-- A returned value written to its destination. In a uniform word every thread of the mask receives it. -/
def writeDest (g : Group) (o : PendOp) (val : Nat → Nat) : Group :=
  match o.dest with
  | .none => g
  | .sregs n w => (List.range w).foldl (fun q k => if n = 0 then q else wrS q (n + k) (wordOfNat (val 0) k)) g
  | .view n w =>
    let t := (mfirst o.threads).getD 0
    (List.range w).foldl (fun q k => wrV q (n + k) (wordOfNat (val t) k)) g
  | .vregs n w =>
    let f := (mfirst o.threads).getD 0
    (List.range w).foldl (fun q k => wrRow q (n + k) o.threads fun t => wordOfNat (val (if o.uni then f else t)) k) g

end Sys2Proof.Machine
end

