-- ==== Sys2Proof/Machine/Cohere.lean ====
section
/-! DEFINITION. The steps of routers, anchors, private L1s and requesters in the sharer-tree protocol (R222 - R248, Table 10-2,
Table 10-3). Each names a message by its place in the network; one that is not of the step's kind, or cannot be handled yet,
changes nothing. -/

namespace Sys2Proof.Machine

open Sys2Proof

/-- The messages of a teardown. At a router whose reset was forced they stand for what its neighbours do to finish the cuts of its
entries (R413). (DEDUCED, log 39.) -/
def isTeardown (k : MsgKind) : Bool :=
  match k with | .inval | .cut | .ack | .dataAck | .prune | .writeBack => true | _ => false

/-- A transaction's path through the routers is forgotten: its request will come again (R242). -/
def purgeTxn (s : State) (part line : Nat) (r : Requester) (txn : Nat) : State :=
  let mine := fun (q : Merge) => q.line == line && q.part == part && q.req == r && q.txn == txn
  s.routers.foldl (fun s n =>
    let l := (n.2.merges.filter mine).flatMap (·.absorbed)
    if n.2.merges.any mine then
      reissueAll (modRouter s n.1 fun q => { q with merges := q.merges.filter fun g => !mine g }) n.1 line part l
    else s) s

/-- A reply or grant that has no way on from a router: the neighbour it came from clears the port, as if a prune had arrived, unless
an entry stands here (R234, R413). (DEDUCED, log 39.) -/
def disown (s : State) (m : Msg) (site : Nat) (port : Port) : State :=
  if (m.kind == .reply || m.kind == .grant) && !m.fillOnce && m.trail.isEmpty && port != .loc &&
      (entryAt s site m.part m.line).isNone then hop s (cutMsg m.line m.part .prune) site port
  else s

/-- A message that a forced reset discards; end-to-end retransmission recovers it (R413). -/
def discard (s : State) (m : Msg) : State :=
  let s1 := purgeTxn s m.part m.line m.req m.txn
  match m.loc with | .router site port => disown s1 m site port | .site _ => s1

/-- A request that a step, leading from `old` to `s`, left where it stands had to wait there: what follows it need wait for it no longer
(R239, R240). -/
def markWaiting (m : Msg) (i : Nat) (old s : State) : State :=
  if isRequest m.kind && s.net[i]? == some m && decide (old.net.count m ≤ s.net.count m) then
    { s with net := s.net.set i { m with waiting := true } }
  else s

/-- A step on a message at a router. -/
def atRouter (s : State) (i : Nat) (ks : List MsgKind) (f : Msg → Nat → Port → State) : Host.Outcome State Fault Refusal :=
  match s.net[i]? with
  | none => .next s
  | some m =>
    if !msgEnabled s i || !ks.contains m.kind then .next s
    else match m.loc with
      | .router site port => .next (if routerDead s site && !isTeardown m.kind then discard (dropMsg s i) m else markWaiting m i s (f m site port))
      | .site _ => .next s

/-- A step on a message at the endpoints behind a site's local port. -/
def atSite (s : State) (i : Nat) (ks : List MsgKind) (f : Msg → Nat → State) : Host.Outcome State Fault Refusal :=
  match s.net[i]? with
  | none => .next s
  | some m =>
    if !msgEnabled s i || !ks.contains m.kind then .next s
    else match m.loc with
      | .router .. => .next s
      | .site site =>
        if isComputeSite site && (inHopStop s (unitOfSite site) || (getPart s m.part).stopped) then .next s else .next (markWaiting m i s (f m site))

/-- The next hop of a message to a site, on its way there; none while that is out of service (R414). -/
def goTo (s : State) (m : Msg) (site dest : Nat) : Option State :=
  (nextPort s m.part m.det site dest).map fun q => hop s { m with det := q.2 } site q.1

/-- The message leaves for the next router on its route; it waits while that is out of service (R414). -/
def forward (s : State) (i : Nat) (m : Msg) (site : Nat) : State :=
  (goTo (dropMsg s i) m site (anchorSite s m.part m.line)).getD s

/-! ## Storage behind an anchor (R222, R244 - R246) -/

/-- The key of a host line in `hostLines` and `hostReqs`: each partition's anchors hold their own lines from the host. -/
def hostKey (part line : Nat) : Nat := 64 * line + part

/-- Whether the anchor may read, or own, a line's storage: near and far lines always; a host line once it is held from the
host; a line of another panel once its tile is held. -/
def storageHeld (s : State) (part line : Nat) (excl : Bool) : Bool :=
  match tierOf s part line with
  | some 2 => match mget? s.hostLines (hostKey part line) with | some own => own || !excl | none => false
  | some 3 => match mget? s.tiles (line / 2048) with | some .x => true | some .s => !excl | none => false
  | _ => true

/-- The anchor asks for it. -/
def askStorage (s : State) (part line : Nat) (excl : Bool) : State :=
  match tierOf s part line with
  | some 2 => { s with hostReqs := mput s.hostReqs (hostKey part line) (mget false s.hostReqs (hostKey part line) || excl) }
  | some 3 => { s with tileReqs := mput s.tileReqs (line / 2048) (mget false s.tileReqs (line / 2048) || excl) }
  | _ => s

/-- The anchor is at work on a line, a grant that makes no entries is not yet back in storage, the line is to be pulled
from a place that is not quiet, or its slice is under test (R205, R222, R236, R371, Table 21-1). (DEDUCED, log 14.) -/
def anchorBusy (s : State) (part line : Nat) : Bool :=
  (s.anchors.any fun a => a.line == line && a.msg.part == part) ||
    (s.net.any fun m => m.line == line && m.part == part &&
      ((m.kind == .grant || m.kind == .writeBack) && m.fillOnce)) ||
    (match pullFrom (getPart s part) line with | some o => !baseQuiet s part o | none => false) || homeTested s part line

/-! ## Reads -/

/-- A steered read leaves a router; the next router, or the holder, answers back along the trail. (DEDUCED, log 18.) -/
def steer (s : State) (m : Msg) (site : Nat) (e : Entry) (arrival : Port) (trail : List (Nat × Port)) : State :=
  hop s { m with kind := .steered, trail := trail } site (steerPort (isAnchor s site m.part m.line) e arrival)

/-- A home-bound read that reaches its anchor with no entry there: served from storage (R226). -/
def serveStorage (s : State) (i : Nat) (m : Msg) (site : Nat) (port : Port) : State :=
  if anchorBusy s m.part m.line then s
  else if !storageHeld s m.part m.line false then askStorage s m.part m.line false
  else
    let s0 := pullLine s m.part m.line
    match graftEntry s0 (m.req, m.txn) site m.part m.line port .loc false with
    | .wait s1 => s1
    | .made s1 =>
      let r := { m with kind := .reply, data := some (storedLine s1 m.part m.line), excl := !m.prefetch, trail := [] }
      hop (dropMsg (touchSlice s1 m.part 0 (reqRegion m) false m.line) i) r site port
    | .never =>
      let r := { m with kind := .reply, data := some (storedLine s0 m.part m.line), fillOnce := true, trail := [] }
      hop (dropMsg (touchSlice s0 m.part 0 (reqRegion m) false m.line) i) r site port

/-- A home-bound read at a router (R226, R238, R239). -/
def homeRead (s : State) (i : Nat) (m : Msg) (site : Nat) (port : Port) : State :=
  let merge := (getRouter s site).merges.find? fun q =>
    q.line == m.line && q.part == m.part && q.isRead && !q.cleared && !(q.req == m.req && q.txn == m.txn)
  match entryAt s site m.part m.line with
  | some e =>
    if e.state ≠ .stable then s
    else match merge with
      | some q =>
        if m.fillOnce then s else
        let a : Absorbed := { port := port, req := m.req, txn := m.txn, prefetch := m.prefetch }
        modRouter (dropMsg s i) site fun r => { r with merges := r.merges.map fun g => if g = q then { g with absorbed := g.absorbed ++ [a] } else g }
      | none =>
        if !mergeRoom s site m.part then s
        else steer (addMerge (touchEntry (dropMsg s i) site e) site m port true) m site e port []
  | none =>
    if isAnchor s site m.part m.line then serveStorage s i m site port
    else match merge with
      | some q =>
        let a : Absorbed := { port := port, req := m.req, txn := m.txn, prefetch := m.prefetch }
        modRouter (dropMsg s i) site fun r => { r with merges := r.merges.map fun g => if g = q then { g with absorbed := g.absorbed ++ [a] } else g }
      | none =>
        if !mergeRoom s site m.part then s
        else (goTo (addMerge (dropMsg s i) site m port true) { m with trail := [] } site (anchorSite s m.part m.line)).getD s

/-- A home-bound read passes a router, is absorbed there, caught and steered, or served by its anchor. R226, R227, R236, R239. -/
def execRouterHomeBoundRead (idx : Nat) (s : State) : Host.Outcome State Fault Refusal :=
  atRouter s idx [.homeRead] fun m site port => homeRead s idx m site port

/-- A steered read that lost its tree becomes a home-bound read at the router where it stands. The routers of its trail keep a
merge entry for the reply to retrace (R227, R228); while the merge table of one is full it waits, and `wait` is its state (R239). -/
def loseTree (s wait : State) (m : Msg) (site : Nat) (port : Port) (trail : List (Nat × Port)) : State :=
  if !trail.all fun q => mergeRoom s q.1 m.part then wait
  else
    let s1 := trail.foldl (fun s q => addMerge s q.1 m q.2 true) s
    post s1 { m with kind := .homeRead, trail := [], det := .none } (.router site port) 0

/-- A steered read passes a router on its way to a holder. R227, R238. -/
def execRouterSteeredRead (idx : Nat) (s : State) : Host.Outcome State Fault Refusal :=
  atRouter s idx [.steered] fun m site port =>
    match entryAt s site m.part m.line with
    | some e => if e.state ≠ .stable then s else steer (dropMsg s idx) m site e port ((site, port) :: m.trail)
    | none => loseTree (dropMsg s idx) s m site port m.trail

/-- The most recent merge entry of a transaction at a router. (DEDUCED, log 14.) -/
def lastMerge (s : State) (site : Nat) (m : Msg) : Option Merge :=
  ((getRouter s site).merges.filter fun q => q.line == m.line && q.part == m.part && q.req == m.req && q.txn == m.txn).getLast?

def eraseLast (p : Merge → Bool) (l : List Merge) : List Merge := (l.reverse.eraseP p).reverse

def freeLastMerge (s : State) (site : Nat) (m : Msg) : State :=
  modRouter s site fun r => { r with
    merges := eraseLast (fun q => q.line == m.line && q.part == m.part && q.req == m.req && q.txn == m.txn) r.merges }

/-- A reply forks to the reads absorbed at a router: each branch is grafted and carries S (R226, R239). -/
def forkReply (s : State) (m : Msg) (site : Nat) (root : Port) (l : List Absorbed) : State :=
  l.foldl (fun s a =>
    let s1 := match graftEntry s (a.req, a.txn) site m.part m.line a.port root false with | .made s' => s' | _ => s
    hop s1 { m with req := a.req, txn := a.txn, prefetch := a.prefetch, excl := false, trail := [] } site a.port) s

/-- A reply retraces the steered path and then the recorded request path, grafting as it goes; a cleared or marked one creates
nothing (R228, R229, R236, R239). -/
def execRouterReadReply (idx : Nat) (s : State) : Host.Outcome State Fault Refusal :=
  atRouter s idx [.reply] fun m site port =>
    match m.trail with
    | (_, out) :: rest => hop (dropMsg s idx) { m with trail := rest } site out
    | [] =>
      match lastMerge s site m with
      | none => disown (dropMsg s idx) m site port
      | some g =>
        let s1 := freeLastMerge (dropMsg s idx) site m
        if m.fillOnce || g.cleared then
          reissueAll (hop s1 { m with fillOnce := true } site g.port) site m.line m.part g.absorbed
        else match graftEntry s1 (m.req, m.txn) site m.part m.line g.port port false with
          | .made s2 => hop (forkReply s2 m site port g.absorbed) { m with excl := m.excl && g.absorbed.isEmpty } site g.port
          | .wait _ =>
            match graftEntry s (m.req, m.txn) site m.part m.line g.port port false with
            | .wait s2 => s2
            | _ => s
          | .never =>
            let s2 := hop s1 (cutMsg m.line m.part .prune) site port
            reissueAll (hop s2 { m with fillOnce := true } site g.port) site m.line m.part g.absorbed

/-! ## Writes, upgrades and teardown -/

/-- The anchor's entry is torn down for a transaction: invalidations on every port with holders, a sweep on the keep port
(R231). With no tree nothing is awaited. (DEDUCED, log 14.) -/
def startTeardown (s : State) (site : Nat) (m : Msg) (keep : Option Port) (drain : Bool) : State :=
  match entryAt s site m.part m.line with
  | none => s
  | some e =>
    let ps := holderPorts true e
    let e1 := { e with state := .tearing, awaited := ps, keep := keep, answer := [] }
    let s1 := putEntry (clearMerges s site m.part m.line) site e1
    let inv := { cutMsg m.line m.part .inval with req := m.req, txn := m.txn, drain := drain }
    ps.foldl (fun s p => hop s { inv with keep := keep == some p } site p) s1

def txnFor (s : State) (part line : Nat) : Option AnchorTxn := s.anchors.find? fun a => a.line == line && a.msg.part == part

def endTxn (s : State) (part line : Nat) : State :=
  { s with anchors := s.anchors.filter fun a => !(a.line == line && a.msg.part == part) }

/-- The result of a request that was executed before, within its window (R243): at the line's slice, or its anchor's atomic unit,
64 sequence numbers for each requester, each held for 16 µs (80,000 link cycles) at least. -/
def dupOf (s : State) (m : Msg) : Option DupResult :=
  s.dups.find? fun d => d.home == homeKey s m.part m.line && d.req == m.req && d.seq == m.seq

/-- A result is kept for a request that may come again, beside the requester's 63 before it, each at least 16 µs (DEDUCED, log 19). -/
def addDup (s : State) (m : Msg) (v : BitVec 128) : State :=
  let home := homeKey s m.part m.line
  let mine := s.dups.filter fun d => d.req == m.req && d.home == home
  let old := if 64 ≤ mine.length then (mine.head?).toList else []
  { s with dups := (s.dups.filter fun d => !old.contains d || decide (s.now < d.at_ + 80000)) ++
      [{ home := home, req := m.req, seq := m.seq, part := m.part, result := v, at_ := s.now }] }

/-- The anchor grants a write: the way back is entered at the anchor, and the line travels with it (R232, R236). A line being
migrated is pulled first. The write clears reservations kept at the anchor (R233). While the line's slice or row is under test it
waits (Table 21-1). -/
def sendGrant (s : State) (site : Nat) (t : AnchorTxn) : State :=
  let m := t.msg
  if homeTested s m.part m.line then s else
  let port := match m.loc with | .router _ p => p | .site _ => .loc
  let s0 := addDup (clearAnchorResv (pullLine s m.part m.line) m.part m.line) m 0
  let g := { m with kind := .grant, data := some (storedLine s0 m.part m.line), trail := [] }
  match graftEntry s0 (m.req, m.txn) site m.part m.line port .loc true with
  | .made s1 => hop (endTxn (touchSlice s1 m.part 0 (reqRegion m) true m.line) m.part m.line) g site port
  | .never => hop (endTxn (touchSlice s0 m.part 0 (reqRegion m) true m.line) m.part m.line) { g with fillOnce := true } site port
  | .wait s1 => s1

/-- A transaction whose teardown is complete: a write is granted; an operation waits for its execution. -/
def tornDown (s : State) (site part line : Nat) : State :=
  match txnFor s part line with
  | some t => if t.msg.kind = .opReq then s else sendGrant s site t
  | none => s

/-- The access that an operation at its anchor is made for. -/
def reqAccess (s : State) (m : Msg) : Option (Nat × Access) :=
  match m.req with
  | .core c => ((getCore s c).misses.find? fun q => q.txn == m.txn).bind fun q =>
      match q.kind with
      | .op acc => ((getCore s c).accs.find? fun a => a.id == acc).map fun a => (c, a)
      | _ => none
  | _ => none

/-- The reservation of the thread whose `sc` a request carries is held when the anchor takes it (R265). -/
def scHolds (s : State) (m : Msg) : Bool :=
  match reqAccess s m with
  | some (c, a) => match opOf (getCore s c) a.op with | some o => resvHeld s c o.group a.thread m.line | none => false
  | none => false

/-- Whether the operation of a request is promoted, and whether it is to be executed at all. -/
def reqProm (m : Msg) : Bool := match m.op with | some o => o.prom | none => false
def reqRuns (s : State) (m : Msg) : Bool :=
  match m.op with | some o => o.kind != AnchorOpKind.sc || scHolds s m | none => true

/-- The entry of the anchor is being torn down or cut; it awaits acks still. -/
def entryBusy (s : State) (site part line : Nat) : Bool :=
  match entryAt s site part line with | some e => e.state != EntryState.stable | none => false
def entryAwaits (s : State) (site part line : Nat) : Bool :=
  match entryAt s site part line with | some e => !e.awaited.isEmpty | none => false

/-- The answer to a request that was executed before leaves its anchor (R243): the kept result, or a fresh acknowledgement, which
retraces the path the duplicate recorded. (DEDUCED, log 19.) -/
def dupAnswer (s : State) (m : Msg) (d : DupResult) (site : Nat) : State :=
  match m.loc with
  | .router _ port =>
    if m.kind = .opReq then post s { m with kind := .opResp, result := d.result, det := .none } (.router site .loc) 0
    else hop s { m with kind := .grant, fillOnce := true, data := some (storedLine s m.part m.line) } site port
  | .site _ => s

/-- The anchor takes a request: one at a time for a line (R222). A number that was executed before is not executed again; a read is
served again (R243). -/
def takeRequest (s : State) (i : Nat) (m : Msg) (site : Nat) (keep : Option Port) : State :=
  if anchorBusy s m.part m.line then
    (if s.anchors.any fun a => a.msg.req == m.req && a.msg.txn == m.txn && a.line == m.line then dropMsg s i else s)
  else if entryBusy s site m.part m.line then s
  else match (if numbered m then dupOf s m else none) with
  | some d => dupAnswer (dropMsg s i) m d site
  | none =>
    if !storageHeld s m.part m.line (!reqReads m) then askStorage s m.part m.line (!reqReads m)
    else
      let runs := reqRuns s m
      let t : AnchorTxn := { line := m.line, msg := m, data := none, success := runs, keep := keep }
      let s1 := { dropMsg s i with anchors := s.anchors ++ [t] }
      if !runs then s1
      else
        let s2 := startTeardown s1 site m keep (reqProm m)
        if entryAwaits s2 site m.part m.line then s2
        else tornDown (delEntry s2 site m.part m.line) site m.part m.line

/-- A write request, or an operation for the anchor, passes a router or reaches its anchor. R230, R233. -/
def writeRequest (s : State) (i : Nat) (m : Msg) (site : Nat) (port : Port) : State :=
  if isAnchor s site m.part m.line then takeRequest s i m site none
  else if m.kind = .opReq then forward s i m site
  else if !mergeRoom s site m.part then s
  else (goTo (addMerge (dropMsg s i) site m port false) m site (anchorSite s m.part m.line)).getD s

/-- A write request passes a router or is taken by its anchor. R222, R230, R231. -/
def execRouterWriteRequest (idx : Nat) (s : State) : Host.Outcome State Fault Refusal :=
  atRouter s idx [.writeReq, .opReq] fun m site port => writeRequest s idx m site port

/-- Whether the requester of an upgrade still holds its line (R230). -/
def stillHolder (s : State) (m : Msg) : Bool :=
  match m.req with
  | .core c => (l1Find (getCore s c) m.line).isSome
  | r => s.proxies.any fun q => q.req == r && q.line == m.line

/-- An upgrade climbs the tree, marking keep ports, or becomes a write request where it stands when it has lost the tree. R230, R238.
(DEDUCED, log 14.) -/
def execRouterUpgrade (idx : Nat) (s : State) : Host.Outcome State Fault Refusal :=
  atRouter s idx [.upgrade] fun m site port =>
    let lost := { s with net := s.net.set idx { m with kind := .writeReq } }
    match entryAt s site m.part m.line with
    | some e =>
      if e.state = .stable ∧ portHas e.mask port then
        if isAnchor s site m.part m.line then takeRequest s idx m site (if stillHolder s m then some port else none)
        else if !mergeRoom s site m.part then s
        else hop (addMerge (putEntry (dropMsg s idx) site { e with keep := some port }) site m port false) m site e.root
      else lost
    | none => lost

/-- A teardown at a router is complete: every port that is owed an answer gets its ack, with the line when it was the last to
come (`data`, its data ack); a cut ends with a prune unless it was folded; the entry is freed (R231, R235, R237). -/
def teardownDone (s : State) (site : Nat) (e : Entry) (data : Option Msg) : State :=
  let s1 := delEntry s site e.part e.line
  let plain := fun (k : MsgKind) => { cutMsg e.line e.part k with edge := e.edge }
  let ack := fun (s : State) (p : Port) => match data with
    | some d => if p = e.root && e.state == .tearing then hop s { d with counts := true } site p else hop s (plain .ack) site p
    | none => hop s (plain .ack) site p
  if isAnchor s site e.part e.line then tornDown (e.answer.foldl ack s1) site e.part e.line
  else if e.state = .cutting then
    let s2 := hop s1 (plain (if e.folded then .ack else .prune)) site e.root
    (e.answer.filter (· != e.root)).foldl ack s2
  else e.answer.foldl ack s1

/-- One awaited ack has come in on a port. -/
def countAck (s : State) (site : Nat) (e : Entry) (port : Port) (data : Option Msg) : State :=
  let e1 := { e with awaited := e.awaited.erase port }
  if e1.awaited.isEmpty then teardownDone s site e1 data else putEntry s site e1

/-- A Stable entry that an invalidation or cut from its root meets turns Tearing and passes it on (R231, R235). -/
def tearEntry (s : State) (site : Nat) (e : Entry) (m : Msg) (port : Port) : State :=
  let ps := (holderPorts false e).filter (· != port)
  let keep := if m.kind = .inval ∧ m.keep then e.keep else none
  let e1 := { e with state := .tearing, awaited := ps, answer := [port], edge := portsEdge s e.part e.line site ps }
  if ps.isEmpty then teardownDone s site e1 none
  else ps.foldl (fun s p => hop s { m with keep := keep == some p } site p) (putEntry s site e1)

/-- An invalidation or a cut passes a router. One that meets a Stable entry by another port than its root leaves it as it is (R238) and
is acked, since its sender waits for that. R231, R235, R237, R239. (DEDUCED, log 14.) -/
def passTeardown (s : State) (i : Nat) (m : Msg) (site : Nat) (port : Port) : State :=
  let s1 := clearMerges (dropMsg s i) site m.part m.line
  match entryAt s1 site m.part m.line with
  | none => hop s1 (cutMsg m.line m.part .ack) site port
  | some e =>
    match e.state with
    | .stable => if port = e.root then tearEntry s1 site e m port else hop s1 (cutMsg m.line m.part .ack) site port
    | .tearing =>
      if e.answer.contains port then s1
      else if e.awaited.contains port then countAck s1 site e port none
      else putEntry s1 site { e with answer := e.answer ++ [port] }
    | .cutting =>
      if port = e.root then putEntry s1 site { e with folded := true }
      else if e.awaited.contains port then countAck s1 site e port none
      else putEntry s1 site { e with answer := e.answer ++ [port] }

/-- An invalidation passes a router. R231. -/
def execRouterInvalidation (idx : Nat) (s : State) : Host.Outcome State Fault Refusal :=
  atRouter s idx [.inval] fun m site port => passTeardown s idx m site port

/-- A cut passes a router, which treats it as an invalidation. R235. -/
def execRouterCut (idx : Nat) (s : State) : Host.Outcome State Fault Refusal :=
  atRouter s idx [.cut] fun m site port => passTeardown s idx m site port

/-- An ack reaches a router. One that is not awaited is discarded. R231, R237. -/
def execRouterAck (idx : Nat) (s : State) : Host.Outcome State Fault Refusal :=
  atRouter s idx [.ack] fun m site port =>
    let s1 := dropMsg s idx
    match entryAt s1 site m.part m.line with
    | some e => if e.state ≠ .stable ∧ e.awaited.contains port then countAck s1 site e port none else s1
    | none => s1

/-- A message with a line goes on towards the anchor: along the root port of an entry, else by its route (R231, R234). While that has no
way on, it stays where it is, in its place (`old`, R240, R414). -/
def rootward (old s : State) (m : Msg) (site : Nat) : State :=
  match entryAt s site m.part m.line with
  | some e => hop s m site e.root
  | none => (goTo s m site (anchorSite s m.part m.line)).getD old

/-- Whether a line that comes back has to wait at its anchor: its slice or row is under test (Table 21-1). -/
def landWaits (s : State) (m : Msg) (site : Nat) : Bool := isAnchor s site m.part m.line && m.data.isSome && homeTested s m.part m.line

/-- The anchor writes a line that comes back to storage, once for each number, and says so to its sender (R242, R243). -/
def landLine (s : State) (m : Msg) : State :=
  let site := anchorSite s m.part m.line
  let told := fun (s : State) => post s { m with kind := .written, data := none, det := .none } (.router site .loc) 0
  match dupOf s m with
  | some _ => told s
  | none => told (addDup (touchSlice (storeLine s m.part m.line (m.data.getD 0)) m.part 0 (reqRegion m) true m.line) m 0)

/-- An ack with the line. It counts at the first router in Tearing or Cutting that awaits it; the line goes on to the anchor,
which writes it to storage. R231, R235. -/
def execRouterDataAck (idx : Nat) (s : State) : Host.Outcome State Fault Refusal :=
  atRouter s idx [.dataAck] fun m site port =>
    if landWaits s m site then s else
    let s1 := dropMsg s idx
    let waits := match entryAt s1 site m.part m.line with
      | some e => if e.state ≠ .stable ∧ m.counts ∧ e.awaited.contains port then some e else none
      | none => none
    if isAnchor s site m.part m.line then
      let s2 := landLine s1 m
      match waits with
      | some e => countAck s2 site e port none
      | none => s2
    else match waits with
      | some e =>
        if e.state = .tearing ∧ e.awaited.erase port = [] then countAck s1 site e port (some m)
        else countAck (hop s1 { m with counts := false } site e.root) site e port none
      | none => rootward s s1 { m with counts := m.counts && (match entryAt s1 site m.part m.line with
          | some e => e.state == .stable | none => true) } site

/-- The line a prune carries goes on to the anchor as a write-back (R234); `old` is the state in which it stays. -/
def pruneData (old s : State) (m : Msg) (site : Nat) : State :=
  match m.data with
  | some _ => if isAnchor s site m.part m.line then landLine s m else rootward old s { m with kind := .writeBack } site
  | none => s

/-- A prune reaches a router. R234, R236, R237. -/
def execRouterPrune (idx : Nat) (s : State) : Host.Outcome State Fault Refusal :=
  atRouter s idx [.prune] fun m site port =>
    if landWaits s m site then s else
    let s1 := dropMsg s idx
    let anchor := isAnchor s site m.part m.line
    match entryAt s1 site m.part m.line with
    | none => pruneData s s1 m site
    | some e =>
      if e.state ≠ .stable then
        (if e.awaited.contains port then countAck (pruneData s s1 m site) site e port none else pruneData s s1 m site)
      else
        let e1 := { e with mask := portDel e.mask port }
        if e1.mask = 0 then
          (if anchor then pruneData s (delEntry s1 site m.part m.line) m site
           else hop (delEntry s1 site m.part m.line) m site e.root)
        else pruneData s (touchEntry s1 site e1) m site

/-- A grant retraces the recorded request path, each router keeping only the port towards the writer; the response of an
operation, and the answer to a line that was written, travel back by the route of R18. R232, R233, R236, R242. -/
def execRouterGrant (idx : Nat) (s : State) : Host.Outcome State Fault Refusal :=
  atRouter s idx [.grant, .opResp, .written] fun m site port =>
    let s1 := dropMsg s idx
    if m.kind = .opResp ∨ m.kind = .written then (goTo s1 m site (requesterSite m.req)).getD s
    else match lastMerge s site m with
      | none => if requesterSite m.req = site then hop s1 m site .loc else disown s1 m site port
      | some g =>
        let s2 := freeLastMerge s1 site m
        if m.fillOnce then hop s2 m site g.port
        else match graftEntry s2 (m.req, m.txn) site m.part m.line g.port port true with
          | .made s3 => hop s3 m site g.port
          | .never => hop (hop s2 (cutMsg m.line m.part .prune) site port) { m with fillOnce := true } site g.port
          | .wait _ => match graftEntry s (m.req, m.txn) site m.part m.line g.port port true with
            | .wait s3 => s3
            | _ => s

/-- The store a write-back completes: that of a grant that made no entries, whose access it names (R236). -/
def storeWritten (s : State) (m : Msg) : State :=
  match m.req with
  | .core c =>
    if !m.fillOnce then s
    else match (getCore s c).accs.find? fun a => a.id == m.txn && a.state == .sent with
      | some a => pump (finishAcc s c a 0) c
      | none => s
  | _ => s

/-- A write-back passes routers on its way to the anchor, which writes it to storage. R224, R234, R236. -/
def execAnchorWriteBack (idx : Nat) (s : State) : Host.Outcome State Fault Refusal :=
  atRouter s idx [.writeBack] fun m site _ =>
    if landWaits s m site then s else
    let s1 := dropMsg s idx
    if isAnchor s site m.part m.line then storeWritten (landLine s1 m) m
    else rootward s s1 m site

/-! ## Operations at the anchor (R233, R257) -/

/-- `.fadd.f32`: one rounding to nearest even; a NaN sum is 0x7FC0_0000 (R257). -/
def atomFadd (a b : Word) : Word := rne32 (addV .rne (f32 a) (f32 b)).1

/-- The new value of an atomic operation (Table 11-1). -/
def atomNew (op : Nat) (old b : Word) : Word :=
  match op with
  | 0 => old + b
  | 1 => if old.slt b then old else b
  | 2 => if old.slt b then b else old
  | 3 => old &&& b
  | 4 => old ||| b
  | 5 => old ^^^ b
  | 6 => b
  | _ => atomFadd old b

/-- What an operation reads and what it writes, if it writes. (DEDUCED, log 21.) -/
def opEffect (o : AnchorOp) (old : Nat) (ok : Bool) : BitVec 128 × Option Nat :=
  let prev := BitVec.ofNat 128 old
  match o.kind with
  | .read => (prev, none)
  | .write => (0, some (o.data.toNat % 2 ^ (8 * o.size)))
  | .atom op => (prev, some (atomNew op (BitVec.ofNat 32 old) (o.data.setWidth 32)).toNat)
  | .cas => (prev, if old = o.cmp.toNat % 2 ^ (8 * o.size) then some (o.data.toNat % 2 ^ (8 * o.size)) else none)
  | .sc => if ok then (1, some (o.data.toNat % 2 ^ (8 * o.size))) else (0, none)

/-- The reservation of a thread at the anchor, for the `ll` a read carries (R233). -/
def anchorReserve (s : State) (m : Msg) : State :=
  match reqAccess s m with
  | some (c, a) => match a.kind, opOf (getCore s c) a.op with
    | .ll, some o => setResv s c o.group a.thread (some { line := m.line, atAnchor := true })
    | _, _ => s
  | none => s

/-- The core of an operation that the anchor has executed remembers it as a release from that moment (R218). -/
def anchorNote (s : State) (m : Msg) : State :=
  match reqAccess s m with | some (c, a) => modCore s c fun k => noteRelease k a | none => s

/-- The transactions the anchors of a line work on: of two partitions' that share a host line, those whose partition is not
stopped. -/
def lineTxns (s : State) (line : Nat) : List AnchorTxn :=
  s.anchors.filter fun a => a.line == line && !(getPart s a.msg.part).stopped

/-- The cores of a partition that remember a release of a line which has writes before it still to be made (R218); what another
partition's cores hold does not count (R378). -/
def undrainedCores (s : State) (part line : Nat) : List Nat :=
  (s.cores.filter fun q => (match q.2.team with | some t => t.part == part | none => false) && !relDrained q.2 line).map (·.1)

/-- An atomic, CAS or SC on another panel's line goes to the anchor there (R246). (DEDUCED, log 21.) -/
def tellPanel (s : State) (part line : Nat) (o : AnchorOp) : State :=
  if tierOf s part line = some 3 ∧ o.kind ≠ .read ∧ o.kind ≠ .write then { s with outbox := s.outbox ++ [.anchorOp o] } else s

/-- A transaction's turn: the operation its anchor has taken is executed and answered, once its teardown is complete (R233). A promoted
one first waits until every write before a release of the line has been made (R218). Storage is what Table R222 puts behind the
anchor: of another panel's line the other panel's, at whose anchor the operation is executed once the tile is held in X
(R246). The result of one that is not a read is kept for duplicates (R243). A write whose grant found no way free at the anchor is
granted when one has freed (R236). (DEDUCED, log 21.) -/
def anchorTurn (s : State) (t : AnchorTxn) : State :=
  let m := t.msg
  let line := t.line
  let site := anchorSite s m.part line
  if homeTested s m.part line then s else
  match m.op with
  | none => if (entryAt s site m.part line).isSome then s else sendGrant s site t
  | some o =>
    let late := undrainedCores s m.part line
    if (entryAt s site m.part line).isSome && t.success then s
    else if o.prom && !late.isEmpty then
      late.foldl (fun s c => match mget? (getCore s c).rels line with
        | some r => drainUpTo s c r.upTo (some line)
        | none => s) s
    else
      let s0 := pullLine s m.part line
      let at_ := memKey (getPart s m.part) o.addr
      let r := opEffect o (readLE s0.mem at_ o.size) t.success
      let s1 := match r.2 with
        | some v => clearAnchorResv { s0 with mem := writeLE s0.mem at_ o.size v } m.part line
        | none => if o.kind = .cas then clearAnchorResv s0 m.part line else s0
      let s2 := endTxn (touchSlice s1 m.part 0 (reqRegion m) (!reqReads m) line) m.part line
      let s3 := anchorNote (anchorReserve (if numbered m then addDup s2 m r.1 else s2) m) m
      tellPanel (post s3 { m with kind := .opResp, result := r.1, det := .none } (.router site .loc) 0) m.part line o

/-- Whether a transaction's turn ends it. -/
def turnEnds (s : State) (t : AnchorTxn) : Bool := !(anchorTurn s t).anchors.contains t

/-- The anchor executes the operation it has taken for a line: the first transaction whose turn ends it, so that none waits for another
partition's (R378); with none, each does what it waits for. -/
def execAnchorAtomic (line : Nat) (s : State) : Host.Outcome State Fault Refusal :=
  match (lineTxns s line).find? (turnEnds s) with
  | some t => .next (anchorTurn s t)
  | none => .next ((lineTxns s line).foldl anchorTurn s)

/-! ## Panel links as proxy holders (R247) -/

/-- A request of a panel link enters the network at its router; a write, numbered, waits while the link's window is full (R242). -/
def sendLink (s : State) (n part line : Nat) (excl : Bool) : State :=
  let m := lineMsg (if excl then .writeReq else .homeRead) line part (.link n) none
  if excl then sendNumbered s m .writeReq
  else
    let m1 := { m with txn := s.fresh }
    inject { bumpFresh s with outstanding := s.outstanding ++ [{ msg := m1, sent := s.now }] } m1 (linkSite n)

/-- What a panel link holds of a line (DEDUCED, log 21). -/
def proxyOf (s : State) (n line : Nat) : Option Proxy := s.proxies.find? fun q => q.req == .link n && q.line == line

/-- The next line of a tile that a link has to obtain, in ascending order; with none left the tile goes to the other panel. A line
held in E turns M without a request (Table 10-2). -/
def linkNext (s : State) (n part tile : Nat) (excl : Bool) : State :=
  let lacks := fun (l : Nat) => match proxyOf s n l with | some q => excl && q.state != .m && q.state != .e | none => true
  match (tileLines tile).find? lacks with
  | some l => sendLink s n part l excl
  | none =>
    let bytes := (tileLines tile).flatMap fun l => match proxyOf s n l with | some q => toBytes 128 q.data.toNat | none => []
    let own := fun (q : Proxy) => if excl && q.req == .link n && q.line / 2048 == tile then { q with state := .m } else q
    { s with outbox := s.outbox ++ [.data bytes], proxies := s.proxies.map own }

/-- The answer to a link's request: the proxy holds the line, or asks again when no entry could be made. (DEDUCED, log 21.) -/
def linkFill (s : State) (idx n : Nat) (m : Msg) (excl : Bool) : State :=
  let s1 := dropMsg s idx
  let s2 := answerOut s1 fun o => o.msg.req == .link n && o.msg.txn == m.txn
  let back := fun (s : State) => if excl then returnLine s .writeBack m.line m.part (.link n) m.data else s
  if m.fillOnce then sendLink (back s2) n m.part m.line excl
  else
    let q : Proxy := { req := .link n, line := m.line, state := if excl then .m else if m.excl then .e else .s, data := m.data.getD 0 }
    let rest := s2.proxies.filter fun p => !(p.req == .link n && p.line == m.line)
    linkNext { s2 with proxies := rest ++ [q] } n m.part (m.line / 2048) excl

/-- A teardown that reaches a line a link holds recalls the whole tile from the other panel (R247). -/
def recallTile (s : State) (site : Nat) (m : Msg) : State :=
  match proxyAt s site m.line with
  | some { req := .link n, .. } =>
    if m.req = .link n then s
    else (s.proxies.filter fun q => q.req == .link n && q.line / 2048 == m.line / 2048 && q.line != m.line).foldl
      (fun s q => giveUpProxy s m.part q) s
  | _ => s

/-! ## Private L1s and requesters -/

/-- A steered read reaches its holder: the lowest-numbered core of the die whose L1 holds the line, a watch's copy, or the
proxy of the site supplies it; with none it becomes a home-bound read again. R224, R225, R227. -/
def execL1SteeredRead (idx : Nat) (s : State) : Host.Outcome State Fault Refusal :=
  atSite s idx [.steered] fun m site =>
    let s1 := dropMsg s idx
    let reply := fun (s : State) (d : Line) =>
      post s { m with kind := .reply, data := some d, excl := false, edge := edgeSite s site m.line } (.router site .loc) 0
    let die := unitOfSite site
    let cores := if isComputeSite site then dieCores die else []
    match cores.find? fun c => (l1Find (getCore s c) m.line).isSome with
    | some c =>
      match l1Find (getCore s c) m.line with
      | some l => reply (modCore s1 c fun k => l1Set k { l with state := supplied l.state }) l.data
      | none => s
    | none =>
      match cores.findSome? fun c => ((getCore s c).watches.find? fun w => w.line == m.line && w.armed).map (·.data) with
      | some d => reply s1 d
      | none =>
        match proxyAt s site m.line with
        | some q =>
          let up := { s1 with proxies := s1.proxies.map fun p => if p = q then { p with state := supplied p.state } else p }
          reply up q.data
        | none =>
          match m.trail with
          | (r, p) :: rest => loseTree s1 s m r p rest
          | [] => match lastMerge s1 site m with
            | some g => loseTree (freeLastMerge s1 site m) s m site g.port []
            | none => loseTree s1 s m site .loc []

/-- What an invalidation does to one core of the die: the line, its reservations and its watches go; a pending upgrade becomes
a write from I (Table 10-2). -/
def dropLine (s : State) (c line : Nat) : State :=
  let s1 := endWatches s c line
  modCore s1 c fun k => clearL1Resv { l1Del k line with misses := k.misses.map fun q =>
    if q.line = line then { q with dead := true, kind := match q.kind with | .upgrade => .write | o => o } else q } line

/-- An invalidation or cut reaches a die: every L1 that holds the line loses it, but the L1 whose upgrade a sweep serves; a
released line of a promoted teardown is first drained, and what waits unsent for the line goes first. One ack answers for the port,
with the line if it was dirty; the line bears the number of the site's proxy where one held it, else of the die's DCC, which
answers for its L1s (R242 does not say whose an L1's is). R224, R225, R242, R248, R268. (DEDUCED, log 19; DESIGN CHOICE, log 52.) -/
def execL1Invalidation (idx : Nat) (s : State) : Host.Outcome State Fault Refusal :=
  atSite s idx [.inval, .cut] fun m site =>
    let die := unitOfSite site
    let all_ := if isComputeSite site then dieCores die else []
    let hit := all_.filter fun c => coreHolds (getCore s c) m.line && !(m.kind == .inval && m.keep && m.req == .core c)
    let ready := (!m.drain || hit.all fun c => match l1Find (getCore s c) m.line with
      | some l => drained (getCore s c) l
      | none => true) && !unsent s m.part m.line site
    let owner : Requester := match s.proxies.find? fun q => requesterSite q.req == site && q.line == m.line with
      | some q => q.req
      | none => .dcc die
    if !ready then hit.foldl (fun s c => match l1Find (getCore s c) m.line with
      | some l => if m.drain && l.rel then drainUpTo s c l.relAt (some m.line) else s
      | none => s) s
    else
      let ofCore := hit.findSome? fun c => match l1Find (getCore s c) m.line with
        | some l => if dirty l.state then some l.data else none
        | none => none
      let ofProxy := match proxyAt s site m.line with | some q => if dirty q.state then some q.data else none | none => none
      let d := match ofCore with | some v => some v | none => ofProxy
      let s1 := hit.foldl (fun s c => dropLine s c m.line) (recallTile (dropMsg s idx) site m)
      let s2 := { s1 with proxies := s1.proxies.filter fun q => !(requesterSite q.req == site && q.line == m.line) }
      let s3 := match m.kind, m.keep, m.req with
        | .inval, true, .core c => modCore s2 c fun k => { k with misses := k.misses.map fun q =>
            if q.line = m.line then { q with swept := true } else q }
        | _, _, _ => s2
      match d with
      | some v => sendNumbered s3 { lineMsg .dataAck m.line m.part owner (some v) with counts := true } .dataAck
      | none => post s3 { cutMsg m.line m.part .ack with edge := edgeSite s site m.line } (.router site .loc) 0

/-- The value of a watched word in a line. -/
def watchWord (w : Watch) (d : Line) : Word := BitVec.ofNat 32 (lineField d w.off 4)

/-- A line arrives for a `waitln`: it arms the watch, or the wait completes (R268). (DEDUCED, log 15.) -/
def fillWatch (s : State) (c part : Nat) (t : Team) (g : Nat) (m : Msg) : State :=
  let d := m.data.getD 0
  match (getCore s c).watches.find? fun w => w.group == g && w.line == m.line with
  | none => if m.fillOnce then s else giveUpWatch s c part m.line
  | some w =>
    if m.fillOnce then endWatch s c g
    else if watchWord w d = w.expect then
      let arm := fun (q : Watch) => if q = w then { q with armed := true, data := d, since := s.now } else q
      modCore s c fun k => { k with watches := k.watches.map arm }
    else
      let s1 := endWatch s c g
      if t.l1 ≠ 0 && canInstall s1 c (setOf t w.va) m.line then
        install s1 c part { line := m.line, set := setOf t w.va, state := if m.excl then .e else .s, data := d }
      else giveUpWatch s1 c part m.line

/-- A reply reaches its requester: the line is installed, or consumed by the access that asked for it when it is fill-once.
R228, R229, R268. -/
def execRequesterFill (idx : Nat) (s : State) : Host.Outcome State Fault Refusal :=
  atSite s idx [.reply] fun m _ =>
    match m.req with
    | .core c =>
      let k := getCore s c
      let s1 := dropMsg s idx
      match k.misses.find? (fun q => q.txn == m.txn), k.team with
      | some q, some t =>
        let d := m.data.getD 0
        match q.kind with
        | .watch g => pump (fillWatch (endMiss s1 c m.txn) c m.part t g m) c
        | _ =>
          let set := setOf t q.va
          let s2 := endMiss s1 c m.txn
          if m.fillOnce then
            match headAcc k m.line with
            | some a =>
              if a.state = .queued ∧ (a.kind = .ld ∨ a.kind = .ll ∨ a.kind = .ldver) ∧ a.id = q.leader then
                pump (performLoad s2 c d a false) c
              else pump s2 c
            | none => s2
          else if (l1Find k m.line).isSome then pump s2 c
          else if canInstall s c set m.line then
            pump (install s2 c m.part { line := m.line, set := set, state := if m.excl && !m.prefetch then .e else .s, data := d }) c
          else drainVictim s c set m.line
      | _, _ =>
        if m.fillOnce || coreHolds k m.line || othersBehind s c m.line then s1
        else sendPlain s1 (lineMsg .prune m.line m.part (.core c) none)
    | .link n => linkFill s idx n m false
    | .hostPort _ | .dcc _ => dropMsg s idx

/-- A grant reaches the writer, which installs the line in M; where no entry could be made it merges its store and returns the
line. The response of an operation reaches its access. The answer to a line that was written ends its number. R232, R233, R236, R242. -/
def execWriterGrant (idx : Nat) (s : State) : Host.Outcome State Fault Refusal :=
  atSite s idx [.grant, .opResp, .written] fun m _ =>
    if m.kind = .written then
      answerOut (dropMsg s idx) fun o => o.msg.req == m.req && o.msg.seq == m.seq && o.msg.txn == m.txn
    else match m.req with
    | .core c =>
      let k := getCore s c
      let s1 := dropMsg s idx
      match k.misses.find? (fun q => q.txn == m.txn), k.team with
      | some q, some t =>
        let s2 := endMiss s1 c m.txn
        match q.kind with
        | .op acc =>
          match k.accs.find? fun a => a.id == acc with
          | some a =>
            let s3 := match a.kind, opOf k a.op with
              | .sc, some o => setResv s2 c o.group a.thread none
              | _, _ => s2
            pump (finishAcc s3 c a m.result) c
          | none => s2
        | _ =>
          let own := l1Find k m.line
          let d := match own with | some l => l.data | none => m.data.getD 0
          let set := setOf t q.va
          if m.fillOnce then
            match headAcc k m.line with
            | some a =>
              let d1 := setLineField d (a.hpa % 128) a.size a.data.toNat
              let s3 := modAcc (modCore s2 c fun k => l1Del k m.line) c a.id fun v => { v with state := .sent }
              sendNumbered s3 { lineMsg .writeBack m.line m.part (.core c) (some d1) with txn := a.id, fillOnce := true } .writeBack
            | none => returnLine s2 .writeBack m.line m.part (.core c) (some d)
          else if own.isSome || canInstall s c set m.line then
            let l0 : L1Line := match own with | some l => l | none => { line := m.line, set := set, state := .m, data := d }
            pump (install s2 c m.part { l0 with state := .m, data := d }) c
          else drainVictim s c set m.line
      | _, _ =>
        if m.kind = .opResp || m.fillOnce then s1
        else sendPlain s1 (lineMsg .prune m.line m.part (.core c) none)
    | .link n => linkFill s idx n m true
    | .hostPort _ | .dcc _ => dropMsg s idx

/-- A request without a response for 4 µs (20,000 link cycles) is sent again with the same number. R242, R243, R409.
(DEDUCED, log 19.) -/
def execEndToEndRetransmission (idx : Nat) (s : State) : Host.Outcome State Fault Refusal :=
  match s.outstanding[idx]? with
  | none => .next s
  | some o =>
    if o.held.isSome ∨ s.now < o.sent + 20000 ∨ (getPart s o.msg.part).stopped = true then .next s
    else
      let s1 := { s with outstanding := s.outstanding.set idx { o with sent := s.now } }
      .next (inject s1 o.msg (requesterSite o.msg.req))

end Sys2Proof.Machine
end

