-- ==== Sys2Proof/Machine/Crypto.lean ====
section
/-! DEFINITION. The cryptography the spec names: AES-256-GCM for sealed copies (R273), SHAKE256 and SHA3-384 for measurements and
SPDM (R383, R384), and CRC-32C (R50). Byte strings are lists of bytes. -/

namespace Sys2Proof.Machine

open Sys2Proof

/-! ## AES-256 -/

def gfDouble (b : Nat) : Nat := if 128 ≤ b then Nat.xor (2 * b) 0x11B else 2 * b

/-- The product in GF(2^8), from the bits of `b`. -/
def gfMul : Nat → Nat → Nat → Nat
  | 0, _, _ => 0
  | k + 1, a, b => Nat.xor (if b % 2 = 1 then a else 0) (gfMul k (gfDouble a) (b / 2))

/-- b^n in GF(2^8). -/
def gfPow (b : Nat) : Nat → Nat
  | 0 => 1
  | n + 1 => gfMul 8 (gfPow b n) b

def rotl8 (b n : Nat) : Nat := (b * 2 ^ n + b / 2 ^ (8 - n)) % 256

def aesSub (b : Nat) : Nat :=
  let i := gfPow b 254
  Nat.xor 0x63 (Nat.xor i (Nat.xor (rotl8 i 1) (Nat.xor (rotl8 i 2) (Nat.xor (rotl8 i 3) (rotl8 i 4)))))

def xorList (a b : List Nat) : List Nat := List.zipWith Nat.xor a b

/-- The words of the key schedule, each four bytes; `ws` holds those made so far. -/
def aesExpand : Nat → List (List Nat) → List (List Nat)
  | 0, ws => ws
  | k + 1, ws =>
    let i := ws.length
    let prev := ws.getD (i - 1) []
    let t := if i % 8 = 0 then xorList ((prev.drop 1 ++ prev.take 1).map aesSub) [gfPow 2 (i / 8 - 1), 0, 0, 0]
      else if i % 8 = 4 then prev.map aesSub else prev
    aesExpand k (ws ++ [xorList (ws.getD (i - 8) []) t])

def aesKeys (key : List Nat) : List (List Nat) :=
  aesExpand 52 (tab 8 fun i => (key.drop (4 * i)).take 4)

def aesRoundKey (ws : List (List Nat)) (r : Nat) : List Nat := ((ws.drop (4 * r)).take 4).flatten

def shiftRows (s : List Nat) : List Nat := tab 16 fun i => s.getD (i % 4 + 4 * ((i / 4 + i % 4) % 4)) 0

def mixColumns (s : List Nat) : List Nat :=
  tab 16 fun i =>
    let at_ := fun (k : Nat) => s.getD (i / 4 * 4 + (i + k) % 4) 0
    Nat.xor (gfDouble (at_ 0)) (Nat.xor (Nat.xor (gfDouble (at_ 1)) (at_ 1)) (Nat.xor (at_ 2) (at_ 3)))

/-- Rounds r to 13, then the last. -/
def aesRounds (ws : List (List Nat)) : Nat → Nat → List Nat → List Nat
  | 0, _, s => xorList (shiftRows (s.map aesSub)) (aesRoundKey ws 14)
  | k + 1, r, s => aesRounds ws k (r + 1) (xorList (mixColumns (shiftRows (s.map aesSub))) (aesRoundKey ws r))

/-- One block of 16 bytes encrypted. -/
def aesBlock (ws : List (List Nat)) (b : List Nat) : List Nat := aesRounds ws 13 1 (xorList b (aesRoundKey ws 0))

/-! ## GCM -/

/-- A block as a number, first byte most significant. -/
def beNat (l : List Nat) : Nat := l.foldl (fun acc b => 256 * acc + b) 0
def beBytes (n v : Nat) : List Nat := tab n fun i => v / 256 ^ (n - 1 - i) % 256

/-- The product in GF(2^128) of GCM, bit 0 the most significant. -/
def ghashMul : Nat → Nat → Nat → Nat → Nat
  | 0, _, _, z => z
  | k + 1, x, v, z =>
    ghashMul k x (if v % 2 = 1 then Nat.xor (v / 2) (0xE1 * 2 ^ 120) else v / 2) (if bit x k then Nat.xor z v else z)

def ghash (h : Nat) (blocks : List Nat) : Nat := blocks.foldl (fun y b => ghashMul 128 (Nat.xor y b) h 0) 0

def blocksOf (l : List Nat) : List (List Nat) :=
  tab ((l.length + 15) / 16) fun i => let b := (l.drop (16 * i)).take 16; b ++ tab (16 - b.length) fun _ => 0

/-- AES-256-GCM decryption with no additional data: the plaintext when the tag is right. (DEDUCED, log 26.) -/
def gcmOpen (key : List Nat) (iv : List Nat) (cipher tag : List Nat) : Option (List Nat) :=
  let ws := aesKeys key
  let h := beNat (aesBlock ws (tab 16 fun _ => 0))
  let ctr := fun (i : Nat) => aesBlock ws (iv ++ beBytes 4 i)
  let g := ghash h ((blocksOf cipher).map beNat ++ [8 * cipher.length])
  if beBytes 16 (Nat.xor g (beNat (ctr 1))) = tag then
    let cs := blocksOf cipher
    some (((List.range cs.length).flatMap fun i => xorList (cs.getD i []) (ctr (i + 2))).take cipher.length)
  else none

/-- One sealed block of R273: the IV is nonce ‖ block index. The key's byte i stands in bits [8i+7:8i]. (DEDUCED, log 26.) -/
def openSealed (key : BitVec 256) (nonce : BitVec 64) (block : Nat) (cipher tag : List Byte) : Option (List Byte) :=
  let nat := fun (l : List Byte) => l.map (·.toNat)
  (gcmOpen (nat (toBytes 32 key.toNat)) (beBytes 8 nonce.toNat ++ beBytes 4 block) (nat cipher) (nat tag)).map
    fun l => l.map (BitVec.ofNat 8)

/-! ## Keccak, as its step mappings are defined: 25 lanes of 64 bits, lane (x, y) at place x + 5 y -/

/-- The feedback register from which the round constants are drawn, after `n` steps. -/
def lfsrAt : Nat → Nat
  | 0 => 1
  | n + 1 => let v := 2 * lfsrAt n; if 256 ≤ v then Nat.xor v 0x171 else v

/-- The constant of a round: its bit 2^j - 1 is the register's low bit after 7 round + j steps. -/
def roundConst (round : Nat) : BitVec 64 :=
  BitVec.ofNat 64 (sumOf (tab 7 fun j => lfsrAt (7 * round + j) % 2 * 2 ^ (2 ^ j - 1)))

def laneAt (s : List (BitVec 64)) (x y : Nat) : BitVec 64 := s.getD (x % 5 + 5 * (y % 5)) 0

/-- Every lane takes the parity of the column before it, and of the column behind it one bit on. -/
def theta (s : List (BitVec 64)) : List (BitVec 64) :=
  let parity := fun (x : Nat) => (tab 5 fun y => laneAt s x y).foldl (· ^^^ ·) 0
  tab 25 fun i => laneAt s i (i / 5) ^^^ parity (i + 4) ^^^ (parity (i + 1)).rotateLeft 1

/-- The lanes move along one cycle that starts at (1, 0), the one at step t rotated by the triangular number of t + 1. -/
def rhoPi : Nat → Nat × Nat → List (BitVec 64) → List (BitVec 64) → List (BitVec 64)
  | 0, _, _, out => out
  | k + 1, p, s, out =>
    let t := 24 - (k + 1)
    let q := (p.2, (2 * p.1 + 3 * p.2) % 5)
    rhoPi k q s (out.set (q.1 + 5 * q.2) ((laneAt s p.1 p.2).rotateLeft ((t + 1) * (t + 2) / 2 % 64)))

def chi (s : List (BitVec 64)) : List (BitVec 64) :=
  tab 25 fun i => laneAt s i (i / 5) ^^^ (laneAt s (i + 2) (i / 5) &&& ~~~laneAt s (i + 1) (i / 5))

/-- The permutation: 24 rounds, the last of each step the constant into lane (0, 0). -/
def permute (s : List (BitVec 64)) : List (BitVec 64) :=
  (List.range 24).foldl (fun s r =>
    let u := theta s
    let v := chi (rhoPi 24 (1, 0) u u)
    v.set 0 (laneAt v 0 0 ^^^ roundConst r)) s

/-- A message's blocks of `rate` bytes go into the first lanes, one after another; the last carries the padding. -/
def absorb (rate : Nat) : Nat → List Byte → List (BitVec 64) → List (BitVec 64)
  | 0, _, s => s
  | k + 1, m, s =>
    let word := fun (i : Nat) => BitVec.ofNat 64 (ofBytes (((m.take rate).drop (8 * i)).take 8))
    absorb rate k (m.drop rate) (permute (tab 25 fun i => s.getD i 0 ^^^ word i))

/-- A sponge with one block of output: the suffix follows the message, and the last bit of the block is set. -/
def sponge (rate suffix outLen : Nat) (m : List Byte) : List Byte :=
  let blocks := m.length / rate + 1
  let body := m ++ [BitVec.ofNat 8 suffix]
  let padded := tab (blocks * rate) fun i => body.getD i 0 ||| (if i + 1 = blocks * rate then 0x80#8 else 0)
  ((absorb rate blocks padded (tab 25 fun _ => 0)).flatMap fun w => toBytes 8 w.toNat).take outLen

/-- The 64-byte SHAKE256 digest, and SHA3-384. -/
def shake256 (m : List Byte) : List Byte := sponge 136 0x1F 64 m
def sha3_384 (m : List Byte) : List Byte := sponge 104 0x06 48 m

/-! ## CRC-32C -/

def crcStep : Nat → Nat → Nat
  | 0, c => c
  | k + 1, c => crcStep k (if c % 2 = 1 then Nat.xor (c / 2) 0x82F63B78 else c / 2)

/-- CRC-32C of a byte string (reflected, initial value and final XOR all ones). -/
def crc32c (m : List Byte) : Nat := Nat.xor (m.foldl (fun c b => crcStep 8 (Nat.xor c b.toNat)) 0xFFFFFFFF) 0xFFFFFFFF

end Sys2Proof.Machine
end

