-- ==== Sys2Proof/Machine/Operands.lean ====
section
/-! DEFINITION. Lane operands: the kinds of operand fields and routing (R62-R65), the register-to-register operations with
the operand kinds each admits (Tables 5-2, 6-1), their modifier fields, and the legality of long and paired words. -/

namespace Sys2Proof.Machine

open Sys2Proof

/-- The register-to-register lane operations, named as their constructors of `Instr`. -/
inductive LaneOp where
  | nopLane | mov | tidx | addI32 | subI32 | mulI32 | mulhS32 | mulhZ32
  | minS32 | minZ32 | maxS32 | maxZ32 | absS32 | negS32 | andB32 | orB32
  | xorB32 | andnB32 | notB32 | shlB32 | shrZ32 | shrS32 | popcB32 | clzB32
  | brevB32 | cmpEqI32 | cmpNeI32 | cmpLtS32 | cmpLeS32 | cmpLtZ32 | cmpLeZ32 | addF32
  | subF32 | mulF32 | minF32 | maxF32 | cmpEqF32 | cmpLtF32 | cmpLeF32 | addF16x2
  | subF16x2 | mulF16x2 | minF16x2 | maxF16x2 | addBf16x2 | subBf16x2 | mulBf16x2 | minBf16x2
  | maxBf16x2 | classF32 | rcpF32 | rsqF32 | sqrtF32 | ex2F32 | lg2F32 | sinF32
  | cosF32 | tanhF32 | cvtF32S32 | cvtS32F32 | cvtF32Z32 | cvtZ32F32 | cvtF16x2F32 | cvtBf16x2F32
  | pand | por | pxor | pandn | madI32 | mulhMadS32 | fshRB32 | fshLB32
  | bfeZ32 | bfeS32 | bfiB32 | selB32 | dot4S8 | dot4Z8 | dot2S16 | dot2Z16
  | cmpI32 | fmaF32 | cmpF32 | rndF32 | fmaF16x2 | fmaBf16x2 | cmpF16x2 | cmpBf16x2
  | rndF16x2 | rndBf16x2 | cvt | qpack | qpackScale | qunpkF32 | voteAny | voteAll
  | ballot | firstThread | smpl | randB32 | randCoF32 | randOcF32 | randV1v2
  deriving DecidableEq, Repr

/-- The kind of a 9-bit operand field (Table 3-8). -/
inductive FieldKind where
  | vec | scal | pred | reserved | const
  deriving DecidableEq, Repr

def fieldKind (f : Nat) : FieldKind :=
  if f < 320 then .vec else if f < 384 then .scal else if f < 400 then .pred else if f < 448 then .reserved else .const

/-- The constant a field of kind const stands for (R62). -/
def constOf (f : Nat) : Int := (f : Int) - 480

/-- Whether a routing field stands in Table 3-9. -/
def routeOk (rt : Nat) : Bool :=
  match fld rt 7 3 with
  | 0 => fld rt 0 7 == 0
  | 2 => decide (fld rt 0 7 < 96)
  | 7 => false
  | _ => true

/-- How an operation uses a source: not at all; as a 32-bit value, with what a constant then stands for; as one narrow
element, which admits no constant; as a predicate; or as `smpl` admits its sources (Tables 5-2, 6-1). -/
inductive Src where
  | unused | int | f32 | f16 | bf16 | elem | pred | vecOnly | scalOrConst
  deriving DecidableEq, Repr

/-- What an operation's destination may be. -/
inductive DstK where
  | none            -- no destination; the field is 0
  | vec             -- a vector register, or a scalar register when U = 1
  | pred
  | predOrVec
  | predOrScal
  | scal
  | scal3           -- three scalar registers (R125)
  deriving DecidableEq, Repr

/-- Width in bits of the type codes of R145. -/
def typeWidth (c : Nat) : Nat := [32, 16, 16, 8, 8, 8, 32, 32, 16, 16, 8, 8].getD c 0

def typeIsFloat (c : Nat) : Bool := decide (c < 6)

/-- The uses of sources A, B and C (Tables 5-2 and 6-1), which for some operations depend on mod. -/
def srcUse (op : LaneOp) (mod : Nat) : Src × Src × Src :=
  match op with
  | .nopLane | .tidx => (.unused, .unused, .unused)
  | .mov | .absS32 | .negS32 | .notB32 | .popcB32 | .clzB32 | .brevB32 => (.unused, .int, .unused)
  | .addI32 | .subI32 | .mulI32 | .mulhS32 | .mulhZ32 | .minS32 | .minZ32 | .maxS32 | .maxZ32 | .andB32 | .orB32
  | .xorB32 | .andnB32 | .shlB32 | .shrZ32 | .shrS32 | .cmpEqI32 | .cmpNeI32 | .cmpLtS32 | .cmpLeS32 | .cmpLtZ32
  | .cmpLeZ32 | .bfeZ32 | .bfeS32 => (.int, .int, .unused)
  | .addF32 | .subF32 | .mulF32 | .minF32 | .maxF32 | .cmpEqF32 | .cmpLtF32 | .cmpLeF32 | .cvtF16x2F32 | .cvtBf16x2F32 =>
    (.f32, .f32, .unused)
  | .addF16x2 | .subF16x2 | .mulF16x2 | .minF16x2 | .maxF16x2 => (.f16, .f16, .unused)
  | .addBf16x2 | .subBf16x2 | .mulBf16x2 | .minBf16x2 | .maxBf16x2 => (.bf16, .bf16, .unused)
  | .classF32 | .rcpF32 | .rsqF32 | .sqrtF32 | .ex2F32 | .lg2F32 | .sinF32 | .cosF32 | .tanhF32 | .cvtS32F32 | .cvtZ32F32
  | .rndF32 => (.unused, .f32, .unused)
  | .cvtF32S32 | .cvtF32Z32 => (.unused, .int, .unused)
  | .rndF16x2 => (.unused, .f16, .unused)
  | .rndBf16x2 => (.unused, .bf16, .unused)
  | .pand | .por | .pxor | .pandn => (.pred, .pred, .unused)
  | .madI32 | .mulhMadS32 | .fshRB32 | .fshLB32 | .bfiB32 | .dot4S8 | .dot4Z8 | .dot2S16 | .dot2Z16 => (.int, .int, .int)
  | .selB32 => (.int, .int, .pred)
  | .cmpI32 => (.int, .int, if fld mod 4 2 = 0 then .unused else .pred)
  | .fmaF32 => (.f32, .f32, .f32)
  | .fmaF16x2 => (.f16, .f16, .f16)
  | .fmaBf16x2 => (.bf16, .bf16, .bf16)
  | .cmpF32 => (.f32, .f32, if fld mod 4 2 = 0 then .unused else .pred)
  | .cmpF16x2 => (.f16, .f16, if fld mod 4 2 = 0 then .unused else .pred)
  | .cmpBf16x2 => (.bf16, .bf16, if fld mod 4 2 = 0 then .unused else .pred)
  | .cvt =>
    let st := fld mod 2 4
    (if st = 0 then .f32 else if st < 5 then .elem else .int, .unused,
      if typeWidth (fld mod 8 4) = 32 then .unused else .int)
  | .qpack => (if fld mod 8 4 = 0 then .f32 else .elem, if bit mod 5 then .f32 else .int, .int)
  | .qpackScale => (.unused, .f32, .unused)
  | .qunpkF32 => (.int, .int, .unused)
  | .voteAny | .voteAll | .ballot | .firstThread => (.pred, .unused, .unused)
  | .smpl => (.vecOnly, .scalOrConst, .unused)
  | .randB32 | .randCoF32 | .randOcF32 | .randV1v2 => (.int, .int, .int)

def dstUse (op : LaneOp) : DstK :=
  match op with
  | .nopLane => .none
  | .cmpEqI32 | .cmpNeI32 | .cmpLtS32 | .cmpLeS32 | .cmpLtZ32 | .cmpLeZ32 | .cmpEqF32 | .cmpLtF32 | .cmpLeF32
  | .pand | .por | .pxor | .pandn => .pred
  | .cmpI32 | .cmpF32 | .cmpF16x2 | .cmpBf16x2 => .predOrVec
  | .voteAny | .voteAll => .predOrScal
  | .ballot => .scal3
  | .firstThread | .smpl => .scal
  | _ => .vec

/-- Whether the rounding field applies (R129). -/
def usesRnd (op : LaneOp) : Bool :=
  match op with
  | .addF32 | .subF32 | .mulF32 | .addF16x2 | .subF16x2 | .mulF16x2 | .addBf16x2 | .subBf16x2 | .mulBf16x2
  | .fmaF32 | .fmaF16x2 | .fmaBf16x2 | .rndF32 | .rndF16x2 | .rndBf16x2 | .rcpF32 | .sqrtF32
  | .cvtF32S32 | .cvtS32F32 | .cvtF32Z32 | .cvtZ32F32 | .cvtF16x2F32 | .cvtBf16x2F32 | .cvt => true
  | _ => false

/-- R145: the type codes, the element index, and the rounding field of an integer-to-integer conversion. -/
def cvtModOk (mod : Nat) : Bool :=
  let dt := fld mod 8 4
  let st := fld mod 2 4
  let n := fld mod 0 2
  let wd := typeWidth dt
  let ws := typeWidth st
  let w := if wd = 32 then ws else if ws = 32 then wd else if wd < ws then ws else wd
  decide (dt ≤ 11) && decide (st ≤ 11) && st != 5 &&
    (if wd = 32 && ws = 32 then n == 0 else decide (n < 32 / w)) &&
    (typeIsFloat dt || typeIsFloat st || fld mod 6 2 == 0)

/-- Whether mod holds only what the operation's definition gives it (R113, R116, R118, R121, R129, R137, R138, R145, R147,
R150, R151, R152). `vd`: the destination is a vector register. -/
def modOk (op : LaneOp) (mod : Nat) (vd : Bool) : Bool :=
  (usesRnd op || fld mod 6 2 == 0) &&
  (match op with
  | .fshRB32 | .fshLB32 | .dot4S8 | .dot4Z8 | .dot2S16 | .dot2Z16
  | .minF32 | .maxF32 | .minF16x2 | .maxF16x2 | .minBf16x2 | .maxBf16x2 => fld mod 1 5 == 0 && fld mod 8 4 == 0
  | .cmpI32 => decide (fld mod 0 4 ≤ 9) && fld mod 4 2 != 3 && fld mod 8 4 == 0
  | .cmpF32 => decide (fld mod 0 4 ≤ 7) && fld mod 4 2 != 3 && fld mod 8 4 == 0
  | .cmpF16x2 | .cmpBf16x2 =>
    decide (fld mod 0 4 ≤ 7) && fld mod 4 2 != 3 && fld mod 9 3 == 0 && (!vd || (fld mod 8 1 == 0 && fld mod 4 2 == 0))
  | .cvt => cvtModOk mod
  | .qpack => decide (fld mod 8 4 ≤ 4)
  | .qpackScale => bit mod 5 && fld mod 0 3 == 0
  | .qunpkF32 => fld mod 3 3 == 0 && fld mod 8 4 == 0
  | .randB32 | .randCoF32 | .randOcF32 | .randV1v2 => decide (fld mod 0 2 ≤ 2) && fld mod 2 4 == 0 && fld mod 8 4 == 0
  | _ => fld mod 0 6 == 0 && fld mod 8 4 == 0)

/-- Whether a source field and its routing field are ones the use admits (R63, R72, R128). -/
def srcOk (use : Src) (f rt : Nat) : Bool :=
  let k := fieldKind f
  (match use with
  | .unused => f == 0 && rt == 0
  | .int | .f32 | .f16 | .bf16 => k == .vec || k == .scal || k == .const
  | .elem => k == .vec || k == .scal
  | .pred => k == .pred
  | .vecOnly => k == .vec
  | .scalOrConst => k == .scal || k == .const) &&
  (if k = .vec then routeOk rt else rt == 0)

def dstOk (use : DstK) (f : Nat) (u : Bool) : Bool :=
  let k := fieldKind f
  match use with
  | .none => f == 0
  | .vec => k == .vec || (u && k == .scal)
  | .pred => k == .pred
  | .predOrVec => k == .pred || k == .vec
  | .predOrScal => k == .pred || k == .scal
  | .scal => k == .scal
  | .scal3 => k == .scal && decide (f ≤ 378)

/-- Cross-thread operations, whose U must be 0 (R123, R151). -/
def isCross (op : LaneOp) : Bool :=
  match op with | .voteAny | .voteAll | .ballot | .firstThread | .smpl => true | _ => false

/-- The illegal-instruction checks of a long-form operation (R72). For `nop` every other field is 0 (R61, R69). -/
def aluLegal (op : LaneOp) (w : LaneWord) : Bool :=
  let m := w.mod.toNat
  let s := srcUse op m
  srcOk s.1 w.srcA.toNat w.rtA.toNat && srcOk s.2.1 w.srcB.toNat w.rtB.toNat && srcOk s.2.2 w.srcC.toNat w.rtC.toNat &&
  dstOk (dstUse op) w.dst.toNat (w.u == 1) && modOk op m (fieldKind w.dst.toNat == .vec) &&
  !(isCross op && w.u == 1) && (op != .nopLane || (w.pred == 0 && w.neg == 0 && w.u == 0))

/-! ## Paired words (R60, R61, R67) -/

/-- The operation of a short opcode in encoding version `v` (Table 3-11, Table 3-2). -/
def shortOpcode (v op : Nat) : Option LaneOp :=
  match op with
  | 0x00 => some .nopLane
  | 0x01 => some .mov
  | 0x02 => some .tidx
  | 0x08 => some .addI32
  | 0x09 => some .subI32
  | 0x0A => some .mulI32
  | 0x0B => some .mulhS32
  | 0x0C => some .mulhZ32
  | 0x0D => some .minS32
  | 0x0E => some .minZ32
  | 0x0F => some .maxS32
  | 0x10 => some .maxZ32
  | 0x11 => some .absS32
  | 0x12 => some .negS32
  | 0x13 => some .andB32
  | 0x14 => some .orB32
  | 0x15 => some .xorB32
  | 0x16 => some .andnB32
  | 0x17 => some .notB32
  | 0x18 => some .shlB32
  | 0x19 => some .shrZ32
  | 0x1A => some .shrS32
  | 0x1B => some .popcB32
  | 0x1C => some .clzB32
  | 0x1D => some .brevB32
  | 0x20 => some .cmpEqI32
  | 0x21 => some .cmpNeI32
  | 0x22 => some .cmpLtS32
  | 0x23 => some .cmpLeS32
  | 0x24 => some .cmpLtZ32
  | 0x25 => some .cmpLeZ32
  | 0x28 => some .addF32
  | 0x29 => some .subF32
  | 0x2A => some .mulF32
  | 0x2B => some .minF32
  | 0x2C => some .maxF32
  | 0x2D => some .cmpEqF32
  | 0x2E => some .cmpLtF32
  | 0x2F => some .cmpLeF32
  | 0x30 => some .addF16x2
  | 0x31 => some .subF16x2
  | 0x32 => some .mulF16x2
  | 0x33 => some .minF16x2
  | 0x34 => some .maxF16x2
  | 0x35 => some .addBf16x2
  | 0x36 => some .subBf16x2
  | 0x37 => some .mulBf16x2
  | 0x38 => some .minBf16x2
  | 0x39 => some .maxBf16x2
  | 0x3A => some .classF32
  | 0x40 => some .rcpF32
  | 0x41 => some .rsqF32
  | 0x42 => some .sqrtF32
  | 0x43 => some .ex2F32
  | 0x44 => some .lg2F32
  | 0x45 => some .sinF32
  | 0x46 => some .cosF32
  | 0x47 => if 2 ≤ v then some .tanhF32 else none
  | 0x48 => some .cvtF32S32
  | 0x49 => some .cvtS32F32
  | 0x4A => some .cvtF32Z32
  | 0x4B => some .cvtZ32F32
  | 0x4C => some .cvtF16x2F32
  | 0x4D => some .cvtBf16x2F32
  | 0x50 => some .pand
  | 0x51 => some .por
  | 0x52 => some .pxor
  | 0x53 => some .pandn
  | _ => none

/-- The long form of a short operation (R61). -/
def shortWord (s : ShortOp) : LaneWord where
  dst := s.dst
  srcA := s.srcA
  rtA := 0
  srcB := s.srcB
  rtB := s.rtB
  srcC := 0
  rtC := 0
  pred := s.pred.setWidth 4
  neg := 0
  u := 0
  mod := 0

/-- The index register a routing field names, if any (R65). -/
def indexReg (rt : Nat) : Option Nat := if fld rt 7 3 = 4 then some (fld rt 0 7) else none

/-- The vector registers an operation reads, index registers included. -/
def vecReads (op : LaneOp) (w : LaneWord) : List Nat :=
  let s := srcUse op w.mod.toNat
  let one := fun (use : Src) (f rt : Nat) =>
    if use ≠ .unused && fieldKind f = .vec then f :: (indexReg rt).toList else []
  one s.1 w.srcA.toNat w.rtA.toNat ++ one s.2.1 w.srcB.toNat w.rtB.toNat ++ one s.2.2 w.srcC.toNat w.rtC.toNat

/-- Every operand field an operation reads: sources, index registers and the guard, but not p0 (R67). -/
def fieldReads (op : LaneOp) (w : LaneWord) : List Nat :=
  let s := srcUse op w.mod.toNat
  let one := fun (use : Src) (f rt : Nat) =>
    if use = .unused || f = 384 then [] else f :: (if fieldKind f = .vec then (indexReg rt).toList else [])
  one s.1 w.srcA.toNat w.rtA.toNat ++ one s.2.1 w.srcB.toNat w.rtB.toNat ++
    (if w.pred = 0 then [] else [384 + w.pred.toNat])

/-- The destination field of an operation that has one other than p0. -/
def destField (op : LaneOp) (w : LaneWord) : Option Nat :=
  if dstUse op = .none || w.dst.toNat = 384 then none else some w.dst.toNat

/-- The classes X and C of R69, of which at most one may stand in a pair. -/
def isXC (op : LaneOp) : Bool :=
  match op with
  | .rcpF32 | .rsqF32 | .sqrtF32 | .ex2F32 | .lg2F32 | .sinF32 | .cosF32 | .tanhF32
  | .cvtF32S32 | .cvtS32F32 | .cvtF32Z32 | .cvtZ32F32 | .cvtF16x2F32 | .cvtBf16x2F32 => true
  | _ => false

def dedup : List Nat → List Nat
  | [] => []
  | x :: r => let d := dedup r; if d.contains x then d else x :: d

def distinctBanks : List Nat → Bool
  | [] => true
  | x :: r => !(r.map (· % 4)).contains (x % 4) && distinctBanks r

/-- R67. A nop slot satisfies every restriction. (DEDUCED, log 22.) -/
def pairLegal (a b : LaneOp) (wa wb : LaneWord) : Bool :=
  let da := destField a wa
  let db := destField b wb
  (match da, db with | some x, some y => x != y | _, _ => true) &&
  (match da with | some x => !(fieldReads b wb).contains x | none => true) &&
  (match db with | some y => !(fieldReads a wa).contains y | none => true) &&
  distinctBanks (dedup (vecReads a wa ++ vecReads b wb)) &&
  !(isXC a && isXC b)

/-! ## Group and pair operands of the other families -/

/-- A global base: an even pair from v0 to v318 or s2 to s58 (R251). -/
def basePairOk (f : Nat) : Bool := f % 2 == 0 && (decide (f ≤ 318) || (decide (322 ≤ f) && decide (f ≤ 378)))

/-- An even scalar register from s2 to s58 (R251). (DEDUCED, log 22.) -/
def scalPairOk (r : Nat) : Bool := r % 2 == 0 && decide (2 ≤ r) && decide (r ≤ 58)

/-- A group of `g` consecutive registers starting at a multiple of `g` (R261). -/
def groupOk (f g : Nat) : Bool :=
  match fieldKind f with
  | .vec => f % g == 0 && decide (f + g ≤ 320)
  | .scal => (f - 320) % g == 0 && decide (f - 320 + g ≤ 64)
  | .const => g == 1
  | _ => false

/-- The lane memory operations. -/
inductive MemOp where
  | ld | ldVer | st | atom | cas | ll | sc
  deriving DecidableEq, Repr

/-- Fields of a lane memory word's mod (Table 11-2). -/
def mWidth (m : Nat) : Nat := fld m 0 3
def mSext (m : Nat) : Bool := bit m 3
def mLocal (m : Nat) : Bool := bit m 4
def mOrder (m : Nat) : Nat := fld m 5 2
def mScope (m : Nat) : Nat := fld m 7 3

/-- Registers a width code takes. -/
def widthRegs (w : Nat) : Nat := match w with | 3 => 2 | 4 => 4 | _ => 1

/-- The signed 19-bit offset in bits [36:18] (R59). -/
def laneOff (w : LaneWord) : Int := toSigned 19 (w.srcC.toNat * 2 ^ 10 + w.rtC.toNat)

/-- Registers of the destination and of the data operand of a lane memory word. -/
def memDstRegs (op : MemOp) (m : Nat) : Nat :=
  match op with | .st => 0 | .atom => 1 | .sc => 1 | _ => widthRegs (mWidth m)

def memDataRegs (op : MemOp) (m : Nat) : Nat :=
  match op with | .ld => 0 | .ll => 0 | .ldVer => 1 | .atom => 1 | _ => widthRegs (mWidth m)

/-- The illegal-instruction checks of a lane memory word (R251, R254, R260, R261, R264). -/
def memLegal (op : MemOp) (w : LaneWord) : Bool :=
  let m := w.mod.toNat
  let wd := mWidth m
  let u := w.u == 1
  let nd := memDstRegs op m
  let nb := memDataRegs op m
  let base := w.srcA.toNat
  let bk := fieldKind base
  w.rtA == 0 && !bit m 11 &&
  (match op with
  | .ld | .ldVer | .st => decide (wd ≤ 4)
  | .atom => true
  | .cas | .ll | .sc => wd == 2 || wd == 3) &&
  (!mSext m || ((op == .ld || op == .ldVer) && decide (wd ≤ 1))) &&
  (!mLocal m || (op != .ll && op != .sc && op != .ldVer)) &&
  (match op with
  | .ld | .ll => decide (mOrder m ≤ 1)
  | .ldVer => mOrder m == 0
  | .st | .sc => mOrder m == 0 || mOrder m == 2
  | .atom | .cas => true) &&
  decide (mScope m ≤ if op = .atom ∨ op = .cas then 6 else 5) &&
  (bit m 10 == (op == .ldVer)) &&
  (if mLocal m then bk == .vec || bk == .scal else basePairOk base) &&
  (op != .ldVer || (bk == .scal && laneOff w == 0)) &&
  (if nd = 0 then w.dst == 0
   else (fieldKind w.dst.toNat == .vec || (u && fieldKind w.dst.toNat == .scal)) && groupOk w.dst.toNat nd) &&
  (if nb = 0 then w.srcB == 0 && w.rtB == 0
   else groupOk w.srcB.toNat nb && (if fieldKind w.srcB.toNat = .vec then routeOk w.rtB.toNat else w.rtB == 0))

/-- The control words. -/
inductive CtlOp where
  | bra | brx | lend | exit
  deriving DecidableEq, Repr

/-- Bits [74:55], [54:35] and [34:27] of a control word, from its long-form fields (R295). -/
def ctlBits (w : LaneWord) : Nat :=
  w.srcA.toNat * 2 ^ 48 + w.rtA.toNat * 2 ^ 38 + w.srcB.toNat * 2 ^ 29 + w.rtB.toNat * 2 ^ 19 + w.srcC.toNat * 2 ^ 10
    + w.rtC.toNat

def ctlTarget (w : LaneWord) : Nat := fld (ctlBits w) 37 20
def ctlRcv (w : LaneWord) : Nat := fld (ctlBits w) 17 20
def ctlN (w : LaneWord) : Nat := fld (ctlBits w) 9 8 + 1

/-- The illegal-instruction checks of a control word (R295). -/
def ctlLegal (op : CtlOp) (w : LaneWord) : Bool :=
  w.u == 0 && w.mod == 0 &&
  (match op with
  | .bra => w.dst == 0 && fld (ctlBits w) 0 17 == 0
  | .brx => (fieldKind w.dst.toNat == .vec || fieldKind w.dst.toNat == .scal) && fld (ctlBits w) 0 9 == 0 &&
      w.pred == 0 && w.neg == 0
  | .lend => w.dst == 0 && ctlBits w == 0 && w.pred == 0 && w.neg == 0
  | .exit => w.dst == 0 && ctlBits w == 0)

end Sys2Proof.Machine
end

