-- ==== Sys2Proof/Machine/Legal.lean ====
section
/-! DEFINITION. The encoding rules of the scalar families beyond the table's mask and match (R57): register pairs, ranges and
codes whose breach raises the illegal-instruction fault. -/

namespace Sys2Proof.Machine

open Sys2Proof

/-- s0, or an even register from s2 to s58 (R157, R255, R258, R404). -/
def pairOrZero (r : BitVec 6) : Bool := r == 0 || scalPairOk r.toNat

/-- The semaphore register of a copy, collective, send or posted receive: s0 or any even register (R158, R270, R279, R283, R284).
(DEDUCED, log 22.) -/
def semPairOk (r : BitVec 6) : Bool := r.toNat % 2 == 0

/-- An even register from s2 to s58 (R21, R251, R315, R322). -/
def pairReg (r : BitVec 6) : Bool := scalPairOk r.toNat

/-- Width and position of a scalar bit field (R110). -/
def bitFieldOk (w : BitVec 6) (p : BitVec 5) : Bool :=
  decide (1 ≤ w.toNat) && decide (w.toNat ≤ 32) && decide (p.toNat + w.toNat ≤ 32)

/-- A link register (R292, R293). -/
def linkOk (r : BitVec 6) : Bool := decide (r.toNat ≤ 60)

/-- `ld` (R255): `w` width, `x` sign-extend, `l` local, `c` scope. -/
def ldOk (d a : BitVec 6) (w : BitVec 2) (x l : BitVec 1) (c : BitVec 3) : Bool :=
  (x == 0 || decide (w.toNat ≤ 1)) && decide (c.toNat ≤ 5) && (l == 1 || pairReg a) && (w != 3 || pairOrZero d)

def stOk (d a : BitVec 6) (w : BitVec 2) (l : BitVec 1) (c : BitVec 3) : Bool :=
  decide (c.toNat ≤ 5) && (l == 1 || pairReg a) && (w != 3 || pairOrZero d)

/-- `atom` and `cas` (R258): scope code 7 is a local access. -/
def atomOk (a : BitVec 6) (c : BitVec 3) : Bool := c == 7 || pairReg a

def casOk (d a b : BitVec 6) (c : BitVec 3) (w : BitVec 1) : Bool :=
  (c == 7 || pairReg a) && (w == 0 || (pairOrZero d && pairOrZero b))

/-- `fence` (R266): `t` tag, `c` scope, `m` path mask. -/
def fenceOk (t : BitVec 4) (c : BitVec 3) (m : BitVec 4) : Bool :=
  decide (t.toNat ≤ 3) && decide (c.toNat ≤ 5) && m != 0

/-- The semaphore instructions (R322). -/
def semOk (a : BitVec 6) (c : BitVec 3) : Bool := pairReg a && decide (c.toNat ≤ 5)

/-- A barrier number (R325). -/
def barOk (b : BitVec 5) : Bool := decide (b.toNat ≤ 19)

/-- Registers of a matrix command (R157): the semaphore pair, and the pair `sa` where the command reads one. -/
def matOk (d a : BitVec 6) (paired : Bool) : Bool := pairOrZero d && (!paired || pairOrZero a)

/-- The modifier bits that tell apart the operations of one long opcode (Table 3-12). -/
def modIs (w : LaneWord) (lo len v : Nat) : Bool := fld w.mod.toNat lo len == v

/-- An opcode of the lane hint space that no row of Table 3-13 assigns (R74). -/
def hintOpOk (op : BitVec 10) : Bool :=
  decide (0x3E3 ≤ op.toNat) && op.toNat != 0x3F0

/-- The system registers (Table 20-5): whether number `n` is assigned, and whether its register has 64 bits. -/
def sysAssigned (n : Nat) : Bool :=
  decide (n ≤ 0x005) || (decide (0x010 ≤ n) && decide (n ≤ 0x018)) || (decide (0x100 ≤ n) && decide (n ≤ 0x10B)) ||
    (decide (0x200 ≤ n) && decide (n ≤ 0x26F)) || (decide (0x300 ≤ n) && decide (n ≤ 0x308)) ||
    (decide (0x310 ≤ n) && decide (n ≤ 0x318)) || (decide (0x320 ≤ n) && decide (n ≤ 0x33F))

def sysWide (n : Nat) : Bool :=
  n == 0x005 || n == 0x015 || (decide (0x100 ≤ n) && decide (n ≤ 0x103)) || (decide (0x250 ≤ n) && decide (n ≤ 0x25F)) ||
    (decide (0x320 ≤ n) && decide (n ≤ 0x33F))

/-- `sysrd` and `syswr` (R404). -/
def sysOk (d : BitVec 6) (n : BitVec 12) : Bool := sysAssigned n.toNat && (!sysWide n.toNat || pairOrZero d)

/-- The two operations of a paired word in encoding version `v`, with their long forms. -/
def pairOps (v : Nat) (a b : ShortOp) : Option (LaneOp × LaneOp) :=
  match shortOpcode v a.op.toNat, shortOpcode v b.op.toNat with
  | some x, some y => some (x, y)
  | _, _ => none

/-- A paired word with legal slots that R67 admits. (DEDUCED, log 22.) -/
def pairedOk (v : Nat) (a b : ShortOp) : Bool :=
  match pairOps v a b with
  | some (x, y) => aluLegal x (shortWord a) && aluLegal y (shortWord b) && pairLegal x y (shortWord a) (shortWord b)
  | none => false

end Sys2Proof.Machine
end

