-- ==== Sys2Proof/Machine/Direct.lean ====
section
/-! DEFINITION. Accesses that are made at quiet lines in one step: those of the C, M and K paths, of the host, and of semaphores
(log 5); and what every asynchronous command shares: its issue, its semaphore, and the B-store source record (R158, R179, R271). -/

namespace Sys2Proof.Machine

open Sys2Proof

/-! ## Virtual ranges -/

/-- Whether a range can be accessed now: every page of it translates and every line is quiet; else the first piece that
faults (a foreign or context page 0x22, a broken page 0x21), or that is busy. -/
inductive Reach where
  | ready
  | busy
  | fault (code addr : Nat)
  deriving DecidableEq, Repr

/-- Whether a range may be accessed now (DEDUCED, log 5). -/
def reachOf (s : State) (p pasid a n : Nat) : Reach :=
  (lineSegs a n).foldr (fun q acc =>
    match translate s p pasid q.1 with
    | .fault => .fault 0x22 q.1
    | .broken => .fault 0x21 q.1
    | .ok h => if lineQuiet s p (lineBase h) && !pageMoving (getPart s p) pasid (q.1 / 4096) then acc else .busy) .ready

def physOf (s : State) (p pasid a : Nat) : Nat :=
  match pinOf (getPart s p) pasid (a / 4096) with | some q => pinAddr q a | none => 0

/-- Bytes read by class `cls` accesses from a region; a page in migration supplies its line first (R371). -/
def readV (s : State) (p pasid cls region a n : Nat) : State × List Byte :=
  (lineSegs a n).foldl (fun acc q =>
    let h := physOf acc.1 p pasid q.1
    let s1 := touchSlice (pullLine acc.1 p (lineBase h)) p cls region false (lineBase h)
    (s1, acc.2 ++ readPhys s1 p h q.2)) (s, [])

/-- Bytes written by class `cls` accesses from a region. -/
def writeV (s : State) (p pasid cls region a : Nat) (bs : List Byte) : State :=
  (lineSegs a bs.length).foldl (fun s q =>
    let h := physOf s p pasid q.1
    writePhys (touchSlice (pullLine s p (lineBase h)) p cls region true (lineBase h)) p h ((bs.drop (q.1 - a)).take q.2)) s

/-- Scratch and B-store bytes. -/
def scratchBytes (s : State) (c a n : Nat) : List Byte :=
  match teamOf s c with | some t => readBytes t.scratch a n | none => []
def putScratch (s : State) (c a : Nat) (bs : List Byte) : State :=
  modTeam s c fun t => { t with scratch := writeBytes t.scratch a bs, bad := mendScratch t.bad a bs.length }
def putBstore (s : State) (c a : Nat) (bs : List Byte) : State := modCore s c fun k => { k with bstore := writeBytes k.bstore a bs }

/-! ## Issuing an asynchronous command -/

/-- A scalar word that issues an asynchronous command or acts on another unit: it ends an episode before it issues, and waits
for its registers, an outstanding acquire, and the writes of its core that a release its group has acquired covers, since its path
does not read the write buffer (R209, R214, R338). (DEDUCED, log 18.) -/
def asyncCmd (s : State) (legal : Bool) (regs : List Nat) (f : Ctx → State) : Host.Outcome State Fault Refusal :=
  withCtx s fun x =>
    if !legal then raiseIllegal s x
    else if inEpisode x then stopEpisode s x
    else if waitsS s x regs || acqPending x then scalarWait s x .operand
    else if hearWaits s x then drainUpTo (scalarWait s x .fence) x.core x.g.heard none
    else f x

/-- The semaphore a command names: none for s0 (R158). -/
def semOf (x : Ctx) (d : BitVec 6) : Option Nat := if d = 0 then none else some (pairAddr x.g d.toNat)
def semRegs (d : BitVec 6) : List Nat := if d = 0 then [] else [d.toNat, d.toNat + 1]
def semMisaligned (o : Option Nat) : Option Nat := match o with | some a => if a % 8 ≠ 0 then some a else none | none => none

/-- The first of some ranges (address, length, write) outside the leases. -/
def outOfLease (x : Ctx) (l : List (Nat × Nat × Bool)) : Option Nat :=
  (l.find? fun r => !leaseOk x.grid r.1 r.2.1 r.2.2).map (·.1)

/-- The four bytes of a semaphore, to be written (DEDUCED, log 27). -/
def semRange (o : Option Nat) : List (Nat × Nat × Bool) := match o with | some a => [(a, 4, true)] | none => []

/-- The first of some local ranges (address, length) that passes the end of usable scratch (R43). -/
def pastLocal (x : Ctx) (l : List (Nat × Nat)) : Option Nat :=
  (l.find? fun r => decide (localLimit x.team < r.1 + r.2)).map (·.1)

/-- The first check that fails raises its fault (R160, R271); each is a fault code with the address its record names. -/
def firstFault (l : List (Option (Nat × Nat))) : Option (Nat × Nat) := l.findSome? id

def asFault (code : Nat) (o : Option Nat) : Option (Nat × Nat) := o.map fun a => (code, a)
def ifFault (b : Bool) (code : Nat) : Option (Nat × Nat) := if b then some (code, 0) else none

/-! ## The B-store source record (R179) -/

/-- Neighbouring ranges joined. -/
def mergeSegs : List (Nat × Nat) → List (Nat × Nat)
  | [] => []
  | (a, n) :: r =>
    match mergeSegs r with
    | (b, m) :: q => if a + n = b then (a, n + m) :: q else (a, n) :: (b, m) :: q
    | [] => [(a, n)]

/-- Whether every range of `old` lies inside one of `new`. -/
def segsCover (new old : List (Nat × Nat)) : Bool :=
  old.all fun o => new.any fun n => decide (n.1 ≤ o.1) && decide (o.1 + o.2 ≤ n.1 + n.2)

/-- The oldest entry that is replayed turns into bytes saved by value. -/
def valueOldest : List SrcEntry → List SrcEntry
  | [] => []
  | e :: r => if e.byValue then e :: valueOldest r else { e with byValue := true } :: r

/-- A new entry: what it covers wholly is dropped; when a 17th would be needed, the oldest is saved by value. -/
def addSource (l : List SrcEntry) (e : SrcEntry) : List SrcEntry :=
  let l1 := l.filter fun o => !segsCover (mergeSegs e.segs) o.segs
  let l2 := if 16 ≤ (l1.filter fun o => !o.byValue).length then valueOldest l1 else l1
  l2 ++ [{ e with segs := mergeSegs e.segs }]

end Sys2Proof.Machine
end

