-- ==== Sys2Proof/Machine/Copy.lean ====
section
/-! DEFINITION. Copies: the eight kinds of `cpy`, the units in which a copy moves its bytes, its completion and its faults
(R194, R197, R198, R270 - R278, R400, R418). -/

namespace Sys2Proof.Machine

open Sys2Proof

/-! ## The descriptor (Tables 11-3, 11-4) -/

/-- A descriptor as read, with its flags apart. -/
structure Desc where
  src : Nat
  dst : Nat
  len : Nat
  n : Nat
  sstride : Nat
  dstride : Nat
  aux : Nat
  nonce : Nat
  flags : Nat
  last : Nat

def readDesc (t : Team) (a : Nat) : Desc where
  src := scratchRead t a 8
  dst := scratchRead t (a + 0x08) 8
  len := scratchRead t (a + 0x10) 4
  n := scratchRead t (a + 0x14) 4
  sstride := scratchRead t (a + 0x18) 4
  dstride := scratchRead t (a + 0x1C) 4
  aux := scratchRead t (a + 0x20) 8
  nonce := scratchRead t (a + 0x28) 8
  flags := scratchRead t (a + 0x30) 4
  last := scratchRead t (a + 0x3C) 4

def fSrcLocal (f : Nat) : Bool := bit f 0
def fDstLocal (f : Nat) : Bool := bit f 1
def fDstB (f : Nat) : Bool := bit f 2
def fCount (f : Nat) : Bool := bit f 3
def fSlot (f : Nat) : Nat := fld f 4 4

/-- Bytes from the first to past the last that the copy may touch on a side with rows `stride` apart. (DEDUCED, log 25.) -/
def extent (k : CopyKind) (d : Desc) (stride : Nat) : Nat :=
  match k with | .d2 => (d.n - 1) * stride + d.len | .gather => d.n * d.len | _ => d.len

/-- Where a tile's payload and header count: `.aon` writes, and `.ver` reads, 64 bytes more (R196). (DEDUCED, log 25.) -/
def srcExtent (k : CopyKind) (d : Desc) : Nat := match k with | .ver => d.len + 64 | _ => extent k d d.sstride
def dstExtent (k : CopyKind) (d : Desc) : Nat := match k with | .aon => d.len + 64 | _ => extent k d d.dstride

def sectors (len : Nat) : Nat := ceilDiv len 512
def bitmapBytes (len : Nat) : Nat := ceilDiv (sectors len) 8

/-- The entries of a gather's index list (R272). -/
def readIndex (t : Team) (k : CopyKind) (d : Desc) : List Nat :=
  if k = .gather ∧ d.n ≤ 65536 then tab d.n fun i => scratchRead t (d.aux + 4 * i) 4 else []

/-- The source ranges of a copy, each an address; all have the length of a row or an element. -/
def srcRows (k : CopyKind) (d : Desc) (index : List Nat) : List Nat :=
  match k with
  | .d2 => tab d.n fun r => d.src + r * d.sstride
  | .gather => index.map fun i => d.src + i * d.sstride
  | _ => [d.src]

/-- Whether `len` bytes at `a` meet one of `n` rows of `len` bytes, `stride` apart, from `dst`: the last row that begins before their
end is the one that ends last. -/
def meetsRows (a len dst stride n : Nat) : Bool :=
  let last := (a + len - 1 - dst) / stride
  decide (dst < a + len) && decide (a < dst + (if last < n then last else n - 1) * stride + len)

/-- Whether a source range and a destination range overlap in one space (R271). (DEDUCED, log 25.) -/
def copyOverlap (k : CopyKind) (d : Desc) (index : List Nat) : Bool :=
  (srcRows k d index).any fun a => match k with
    | .d2 => meetsRows a d.len d.dst d.dstride d.n
    | .gather => meetsRows a d.len d.dst d.len d.n
    | _ => meetsRows a d.len d.dst d.len 1

/-- Whether a field value breaks Table 11-3 or Table 11-4, or the source and the destination overlap in one space (R271). Bits of an
address above its field, which no rule gives a fault, count as such a value. (DEDUCED, log 25; DESIGN CHOICE, log 52.) -/
def descBad (k : CopyKind) (ft : Bool) (d : Desc) (index : List Nat) : Bool :=
  let sl := fSrcLocal d.flags
  let dl := fDstLocal d.flags
  let db := fDstB d.flags
  let strided := k == .d2 || k == .gather
  let tolerant := ft || k == .replay
  let usesAux := k == .gather || k == .seal || tolerant
  let common := decide (2 ^ (if sl then 18 else 57) ≤ d.src) || decide (2 ^ (if db then 21 else if dl then 18 else 57) ≤ d.dst) ||
    (dl && db) || d.last != 0 || d.flags / 2 ^ 8 != 0 || (k != .seal && fSlot d.flags != 0) || (!strided && d.n != 0) ||
    (!strided && k != .seal && d.sstride != 0) || (k != .d2 && d.dstride != 0) || (!usesAux && d.aux != 0) ||
    (usesAux && decide (2 ^ (if k = .seal then 57 else 18) ≤ d.aux)) || (k != .seal && d.nonce != 0)
  let rows := decide (1 ≤ d.n) && decide (d.n ≤ 65536)
  let tile := decide (128 ≤ d.len) && decide (d.len ≤ 32768) && d.len % 128 == 0
  let kind := match k with
    | .d1 | .replay =>
      if tolerant then decide (1 ≤ d.len) && decide (d.len ≤ 4 * 2 ^ 20) && !sl && !dl && !db
      else decide (1 ≤ d.len) && decide (d.len ≤ 2 ^ 30)
    | .d2 => decide (1 ≤ d.len) && rows && decide (d.len ≤ d.dstride)
    | .gather => d.len % 4 == 0 && decide (d.len ≤ 4096) && rows && d.aux % 4 == 0
    | .seal => !sl && (dl || db) && d.src % 4096 == 0 && d.len % 4096 == 0 && decide (d.len ≤ 2 ^ 20) && d.aux % 16 == 0
    | .aon => !dl && !db && d.dst % 64 == 0 && tile
    | .ver => !sl && !db && d.src % 64 == 0 && tile
  let same := (sl && dl) || (!sl && !dl && !db)
  common || !kind || (same && k != .ver && k != .aon && copyOverlap k d index)

/-- Step 2 of R271. -/
def descLocal (k : CopyKind) (ft : Bool) (desc : Nat) (d : Desc) (index : List Nat) : List (Nat × Nat) :=
  [(desc, 64)] ++ (if !fSrcLocal d.flags then [] else if k = .gather then (srcRows k d index).map fun a => (a, d.len)
    else [(d.src, srcExtent k d)]) ++
    (if fDstLocal d.flags then [(d.dst, dstExtent k d)] else []) ++
    (if k = .gather then [(d.aux, 4 * d.n)] else []) ++
    (if ft || k == .replay then [(d.aux, bitmapBytes d.len)] else [])

/-- The global ranges of step 4: those a fault-tolerant copy reads and writes are exempt. -/
def descGlobal (k : CopyKind) (ft : Bool) (d : Desc) : List (Nat × Nat × Bool) :=
  let rows := fun (a stride : Nat) (wr : Bool) => (List.range d.n).map fun r => (a + r * stride, d.len, wr)
  if ft || k == .replay then []
  else
    (if fSrcLocal d.flags || k == .gather then []
     else if k = .d2 then rows d.src d.sstride false else [(d.src, srcExtent k d, false)]) ++
    (if k = .seal then [(d.aux + 16 * d.sstride, 16 * (d.len / 4096), false)] else []) ++
    (if fDstLocal d.flags || fDstB d.flags then []
     else if k = .d2 then rows d.dst d.dstride true else [(d.dst, dstExtent k d, true)])

/-! ## The sector test (R275, R276, R422) -/

/-- The address up to which the bytes from `a` on lie in leases, those of one beginning where those of another end. -/
def leasedTo (g : Grid) (wr : Bool) : Nat → Nat → Nat
  | 0, a => a
  | n + 1, a =>
    match g.leases.find? fun l => !l.revoked && decide (l.base ≤ a) && decide (a < l.base + l.len) && (if wr then l.w else l.r) with
    | some l => leasedTo g wr n (l.base + l.len)
    | none => if leaseOk g a 1 wr then leasedTo g wr n (g.image + g.hdr.dataOff) else a

/-- Whether every byte of a range lies in some lease. -/
def leasedBytes (g : Grid) (a n : Nat) (wr : Bool) : Bool := decide (a + n ≤ leasedTo g wr (g.leases.length + 1) a)

/-- Whether a byte range on one page may be reached by a fault-tolerant copy: its bytes leased, or the page granted to the task, and
translated. -/
def ftOk (s : State) (x : Ctx) (a n : Nat) (wr : Bool) : Bool :=
  let v := getPart s x.team.part
  (leasedBytes x.grid a n wr ||
    v.granted.any fun g => g.task == x.grid.task && g.page == a / 4096 && (if wr then g.w else g.r)) &&
  (pinOf v x.grid.pasid (a / 4096)).isSome

/-- The granules for which a sector parks. -/
def parkedBy (s : State) (x : Ctx) (d : Desc) (i : Nat) : List Nat :=
  let lo := 512 * i
  let n := if d.len < lo + 512 then d.len - lo else 512
  let bad := fun (base : Nat) (wr : Bool) => (pagesOf (base + lo) n).filter fun pg =>
    let a := if pg * 4096 < base + lo then base + lo else pg * 4096
    let e := if base + lo + n < (pg + 1) * 4096 then base + lo + n else (pg + 1) * 4096
    !ftOk s x a (e - a) wr
  (bad d.src false ++ bad d.dst true).foldl insertNat []

/-- The sectors a fault-tolerant copy names: all, or those whose bitmap bit is 1 for a replay. -/
def namedSectors (t : Team) (k : CopyKind) (d : Desc) : List Nat :=
  (List.range (sectors d.len)).filter fun i => k != .replay || bit (scratchRead t (d.aux + i / 8) 1) (i % 8)

/-- The faulting granules with the number of sectors each parks, in rising order (R400). -/
def granules (l : List (List Nat)) : List (Nat × Nat) :=
  l.foldl (fun acc gs => gs.foldl (fun m g => mmod 0 m g (· + 1)) acc) []

/-! ## Issue (R270, R271) -/

def newCopy (s : State) (x : Ctx) (k : CopyKind) (ft : Bool) (desc : Nat) (d : Desc) (sem : Option Nat) : Copy :=
  let tolerant := ft || k == .replay
  let named := if tolerant then namedSectors x.team k d else []
  let tested := named.map fun i => (i, parkedBy s x d i)
  { id := s.fresh, kind := k, ft := tolerant, desc := desc, src := d.src, dst := d.dst, len := d.len, n := d.n,
    sstride := d.sstride, dstride := d.dstride, aux := d.aux, nonce := BitVec.ofNat 64 d.nonce,
    flags := BitVec.ofNat 32 d.flags, sem := sem, group := x.gi, pc := x.g.spc,
    index := readIndex x.team k d,
    key := if k = .seal then (mget? (getPart s x.team.part).keys (fSlot d.flags)).map (·.key) else none,
    todo := if tolerant then some ((tested.filter fun q => q.2.isEmpty).map (·.1)) else none,
    parked := (tested.filter fun q => !q.2.isEmpty).map (·.1),
    faults := granules (tested.map (·.2)),
    entry := if fDstLocal d.flags ∧ dstExtent k d ≠ 0 then some (d.dst, d.dst + dstExtent k d - 1) else none }

/-- What a copy writes at its end: the status words of its descriptor, and its bitmap. -/
def endRanges (c : Copy) : List (Bool × Nat × Nat) :=
  (true, c.desc + 0x34, 8) :: (if c.ft then [(true, c.aux, bitmapBytes c.len)] else [])

/-- The ranges of a side of a copy: whether in scratch, address, length. A gather reads its index list too, and a sealed copy its tags;
the side written has the bytes written at the end. (DEDUCED, log 25.) -/
def copyRanges (c : Copy) (dst : Bool) : List (Bool × Nat × Nat) :=
  let f := c.flags.toNat
  let extra := if (c.kind == .aon && dst) || (c.kind == .ver && !dst) then 64 else 0
  let l := if dst then fDstLocal f else fSrcLocal f
  (if dst then endRanges c else []) ++
  if dst && fDstB f then []
  else match c.kind with
    | .d2 => tab c.n fun r => (l, (if dst then c.dst + r * c.dstride else c.src + r * c.sstride), c.len)
    | .gather => if dst then [(l, c.dst, c.n * c.len)] else (true, c.aux, 4 * c.n) :: c.index.map fun i => (l, c.src + i * c.sstride, c.len)
    | .seal => if dst then [(l, c.dst, c.len)] else [(l, c.src, c.len), (false, c.aux + 16 * c.sstride, 16 * (c.len / 4096))]
    | _ => [(l, if dst then c.dst else c.src, c.len + extra)]

def rangesHit (a b : List (Bool × Nat × Nat)) : Bool :=
  a.any fun p => b.any fun q => p.1 == q.1 && decide (p.2.1 < q.2.1 + q.2.2) && decide (q.2.1 < p.2.1 + p.2.2)

/-- What a copy reads at issue: the fields of its descriptor, a gather's index list, a replay's bitmap. -/
def issueReads (k : CopyKind) (desc : Nat) (d : Desc) : List (Bool × Nat × Nat) :=
  [(true, desc, 0x34), (true, desc + 0x3C, 4)] ++
    (match k with
    | .gather => [(true, d.aux, 4 * d.n)]
    | .replay => [(true, d.aux, bitmapBytes d.len)]
    | _ => [])

/-- Whether an earlier copy of the group is still to write what a copy reads at issue: the copy waits, since accesses of one party on one
path to a byte keep program order (R205, R272, R276). (DEDUCED, log 25.) -/
def descBusy (x : Ctx) (k : CopyKind) (desc : Nat) (d : Desc) : Bool :=
  x.team.copies.any fun q => issuedBy x.team x.gi q.group q.id && rangesHit (issueReads k desc d) (copyRanges q true)

/-- Whether a copy reads a version word, as an acquire at sys scope, that it has not read yet (R197, R198, R203). -/
def awaitsVersion (c : Copy) : Bool :=
  match c.kind with | .ver => c.units == 0 | .aon => decide (c.units < 2) | _ => false

/-- One `cpy`: the checks in R271's order, then the copy is in flight. A 33rd copy waits before they are made, a 17th into scratch
after them, an order that R271 leaves open. One that reads a version word holds back the group's later accesses until it has (R203,
R209). (DESIGN CHOICE, log 52.) -/
def copyIssue (s : State) (k : CopyKind) (ft : Bool) (d a : BitVec 6) : Host.Outcome State Fault Refusal :=
  asyncCmd s (semPairOk d && (k != .seal || s.featEn.getLsbD 5)) (semRegs d ++ [a.toNat]) fun x =>
    let sa := (rdS x.g a.toNat).toNat
    let e := readDesc x.team sa
    let index := readIndex x.team k e
    let sem := semOf x d
    let toScratch := fDstLocal e.flags
    let checks := [
      ifFault (sa % 64 != 0 || sa / 2 ^ 18 != 0 || descBad k ft e index) 0x0D,
      asFault 0x05 (semMisaligned sem),
      asFault 0x06 (pastLocal x (descLocal k ft sa e index)),
      ifFault (fDstB e.flags && decide (2 ^ 21 < e.dst + dstExtent k e)) 0x0B,
      ifFault (k == .seal && (mget? (getPart s x.team.part).keys (fSlot e.flags)).isNone) 0x0E,
      asFault 0x20 (outOfLease x (descGlobal k ft e ++ semRange sem))]
    if 32 ≤ x.team.copies.length then scalarWait s x .queue
    else if descBusy x k sa e then scalarWait s x .scoreboard
    else match firstFault checks with
      | some (code, adr) => raise s x { code := code, addr := adr, desc := BitVec.ofNat 32 sa }
      | none =>
        if toScratch && decide (16 ≤ (x.team.copies.filter fun c => c.entry.isSome).length) then scalarWait s x .scoreboard
        else
          let c := newCopy s x k ft sa e sem
          let g := if awaitsVersion c then { x.g with acquiring := x.g.acquiring ++ [c.id] } else x.g
          modTeam (bumpFresh (scalarDone s x g)) x.core fun t => { t with copies := t.copies ++ [c] }

/-- A linear copy. R270 - R272. -/
def execCpy1d (d a : BitVec 6) (s : State) : Host.Outcome State Fault Refusal := copyIssue s .d1 false d a

/-- A linear copy that parks the sectors it cannot reach. R275. -/
def execCpy1dFt (d a : BitVec 6) (s : State) : Host.Outcome State Fault Refusal := copyIssue s .d1 true d a

/-- A copy of rows. R272. -/
def execCpy2d (d a : BitVec 6) (s : State) : Host.Outcome State Fault Refusal := copyIssue s .d2 false d a

/-- A gather through an index list. R272. -/
def execCpyGather (d a : BitVec 6) (s : State) : Host.Outcome State Fault Refusal := copyIssue s .gather false d a

/-- A copy of sealed blocks; illegal without its feature. R273, R418. -/
def execCpySeal (d a : BitVec 6) (s : State) : Host.Outcome State Fault Refusal := copyIssue s .seal false d a

/-- An all-or-nothing store of a versioned tile. R197, R274. -/
def execCpyAon (d a : BitVec 6) (s : State) : Host.Outcome State Fault Refusal := copyIssue s .aon false d a

/-- A version-checked read of a tile. R198, R274. -/
def execCpyVer (d a : BitVec 6) (s : State) : Host.Outcome State Fault Refusal := copyIssue s .ver false d a

/-- The parked sectors of a fault-tolerant copy repeated. R276. -/
def execCpyReplay (d a : BitVec 6) (s : State) : Host.Outcome State Fault Refusal := copyIssue s .replay false d a

/-! ## Units: the pieces a copy moves, each at once (R272 - R275, R402) -/

/-- What one unit comes to. -/
inductive UnitRes where
  | done (s : State) (c : Copy)
  | busy
  | fault (code addr : Nat)

def rowPieces (c : Copy) : Nat := ceilDiv c.len 512

/-- Units a copy takes in all. -/
def copyUnits (c : Copy) : Nat :=
  match c.kind with
  | .d1 | .replay => match c.todo with | some l => l.length | none => rowPieces c
  | .d2 => c.n * rowPieces c
  | .gather => c.n
  | .seal => c.len / 4096
  | .aon => 3 + c.len / 128
  | .ver => 1

def tailLen (len lo n : Nat) : Nat := if len < lo + n then len - lo else n

/-- What a unit of a copy of bytes moves: source, destination, length. -/
def copyPiece (c : Copy) (k : Nat) : Nat × Nat × Nat :=
  match c.kind with
  | .d2 =>
    let r := k / rowPieces c
    let j := 512 * (k % rowPieces c)
    (c.src + r * c.sstride + j, c.dst + r * c.dstride + j, tailLen c.len j 512)
  | .gather => (c.src + c.index.getD k 0 * c.sstride, c.dst + k * c.len, c.len)
  | .seal => (c.src + 4096 * k, c.dst + 4096 * k, 4096)
  | _ =>
    let i := match c.todo with | some l => l.getD k 0 | none => k
    (c.src + 512 * i, c.dst + 512 * i, tailLen c.len (512 * i) 512)

/-- What the units done so far have moved. -/
def doneSegs (c : Copy) : List (Nat × Nat × Nat) := tab c.units (copyPiece c)

/-- Bytes of a source, local or global, when it can be reached. -/
def srcReach (s : State) (p pasid : Nat) (c : Copy) (a n : Nat) : Reach :=
  if fSrcLocal c.flags.toNat then .ready else reachOf s p pasid a n
def srcRead (s : State) (core p pasid : Nat) (c : Copy) (a n : Nat) : State × List Byte :=
  if fSrcLocal c.flags.toNat then (s, scratchBytes s core a n) else readV s p pasid 1 (coreRegion core) a n
def dstReach (s : State) (p pasid : Nat) (c : Copy) (a n : Nat) : Reach :=
  if fDstLocal c.flags.toNat || fDstB c.flags.toNat then .ready else reachOf s p pasid a n
def dstWrite (s : State) (core p pasid : Nat) (c : Copy) (a : Nat) (bs : List Byte) : State :=
  if fDstLocal c.flags.toNat then putScratch s core a bs
  else if fDstB c.flags.toNat then putBstore s core a bs
  else writeV s p pasid 1 (coreRegion core) a bs

/-- One piece copied as it is. -/
def movePiece (s : State) (core p pasid : Nat) (c : Copy) (src dst n : Nat) : UnitRes :=
  match srcReach s p pasid c src n, dstReach s p pasid c dst n with
  | .fault k a, _ => .fault k a
  | .busy, _ => .busy
  | .ready, .fault k a => .fault k a
  | .ready, .busy => .busy
  | .ready, .ready =>
    let r := srcRead s core p pasid c src n
    .done (dstWrite r.1 core p pasid c dst r.2) { c with units := c.units + 1, written := c.written + n }

/-- A step of `.aon`: the source whole, the version word turned odd, the payload, the version word turned even, which is a release at
sys scope (R197, R203, R209). -/
def aonUnit (s : State) (core p pasid : Nat) (c : Copy) : UnitRes :=
  let next := { c with units := c.units + 1 }
  match c.units with
  | 0 => match srcReach s p pasid c c.src c.len with
    | .fault k a => .fault k a
    | .busy => .busy
    | .ready =>
      let r := srcRead s core p pasid c c.src c.len
      .done r.1 { next with buffer := r.2 }
  | 1 => match reachOf s p pasid c.dst (c.len + 64) with
    | .fault k a => .fault k a
    | .busy => .busy
    | .ready =>
      let r := readV s p pasid 1 (coreRegion core) c.dst 8
      let v := ofBytes r.2
      if v % 2 = 1 then .busy
      else .done (writeV r.1 p pasid 1 (coreRegion core) c.dst (toBytes 8 (v + 1))) { next with odd := some (BitVec.ofNat 64 (v + 1)) }
  | k + 2 =>
    let quiet := fun (a n : Nat) => (lineSegs a n).all fun q =>
      lineQuiet s p (lineBase (physOf s p pasid q.1)) && !pageMoving (getPart s p) pasid (q.1 / 4096)
    if k < c.len / 128 then
      let a := c.dst + 64 + 128 * k
      if quiet a 128 then
        .done (writeV s p pasid 1 (coreRegion core) a ((c.buffer.drop (128 * k)).take 128)) { next with written := c.written + 128 }
      else .busy
    else if quiet c.dst 8 && !accsBefore (getCore s core) c.id then
      let v := match c.odd with | some v => v.toNat + 1 | none => 0
      .done (writeV s p pasid 1 (coreRegion core) c.dst (toBytes 8 (v % 2 ^ 64))) { next with odd := none }
    else .busy

/-- `.ver`: the payload under one even version word, written to the destination at once (R198). -/
def verUnit (s : State) (core p pasid : Nat) (c : Copy) : UnitRes :=
  match reachOf s p pasid c.src (c.len + 64), dstReach s p pasid c c.dst c.len with
  | .fault k a, _ => .fault k a
  | .busy, _ => .busy
  | .ready, .fault k a => .fault k a
  | .ready, .busy => .busy
  | .ready, .ready =>
    let r := readV s p pasid 1 (coreRegion core) c.src (c.len + 64)
    if ofBytes (r.2.take 8) % 2 = 1 then .busy
    else .done (dstWrite r.1 core p pasid c c.dst (r.2.drop 64)) { c with units := c.units + 1, written := c.len }

/-- `.seal`: one block decrypted and authenticated before any of its bytes is written (R273). (DEDUCED, log 26.) -/
def sealUnit (s : State) (core p pasid : Nat) (c : Copy) : UnitRes :=
  let b := c.sstride + c.units
  let a := c.src + 4096 * c.units
  let tag := c.aux + 16 * b
  match reachOf s p pasid a 4096, reachOf s p pasid tag 16 with
  | .fault k e, _ => .fault k e
  | .busy, _ => .busy
  | .ready, .fault k e => .fault k e
  | .ready, .busy => .busy
  | .ready, .ready =>
    let r := readV s p pasid 1 (coreRegion core) a 4096
    let q := readV r.1 p pasid 1 (coreRegion core) tag 16
    match openSealed (c.key.getD 0) c.nonce b r.2 q.2 with
    | none => .fault 0x23 a
    | some bs =>
      .done (dstWrite q.1 core p pasid c (c.dst + 4096 * c.units) bs)
        { c with units := c.units + 1, written := c.written + 4096 }

/-- The next unit of a copy. -/
def copyUnit (s : State) (core : Nat) (t : Team) (g : Grid) (c : Copy) : UnitRes :=
  let p := copyPiece c c.units
  match c.kind with
  | .d1 | .replay | .d2 => movePiece s core t.part g.pasid c p.1 p.2.1 p.2.2
  | .gather =>
    if !fSrcLocal c.flags.toNat && !leaseOk g p.1 c.len false then .fault 0x20 p.1
    else movePiece s core t.part g.pasid c p.1 p.2.1 p.2.2
  | .seal => sealUnit s core t.part g.pasid c
  | .aon => aonUnit s core t.part g.pasid c
  | .ver => verUnit s core t.part g.pasid c

/-- Scratch bytes the next unit of a copy reads. -/
def copyReads (c : Copy) : List (Nat × Nat) :=
  let k := c.units
  let l := fSrcLocal c.flags.toNat
  match c.kind with
  | .gather =>
    let idx := (c.aux + 4 * k, 4)
    if l then [idx, (c.src + c.index.getD k 0 * c.sstride, c.len)] else [idx]
  | .d2 => if l then [(c.src + k / rowPieces c * c.sstride + 512 * (k % rowPieces c), tailLen c.len (512 * (k % rowPieces c)) 512)] else []
  | .aon => if l && k == 0 then [(c.src, c.len)] else []
  | _ => if l then [(c.src + 512 * k, tailLen c.len (512 * k) 512)] else []

/-- A copy that reads an uncorrectable word writes no more and signals nothing (R411). (DEDUCED, log 35.) -/
def copyBad (t : Team) (c : Copy) : Bool :=
  decide (c.units < copyUnits c) && (copyReads c).any fun r => badScratch t r.1 r.2

/-- What waits for the version word of a copy waits no longer (R209). -/
def versionRead (s : State) (core : Nat) (c : Copy) : State :=
  modGroup s core c.group fun g => { g with acquiring := g.acquiring.filter (· != c.id) }

def dropCopy (s : State) (core : Nat) (c : Copy) : State :=
  versionRead (modTeam (asyncFail s core c.group c.id c.pc) core fun t => { t with copies := t.copies.filter fun q => q.id != c.id }) core c

/-- Up to `n` units, as far as they go. -/
def copyRun : Nat → State → Nat → Team → Grid → Copy → State × Copy
  | 0, s, _, _, _, c => (s, c)
  | n + 1, s, core, t, g, c =>
    if copyUnits c ≤ c.units || copyBad t c then (s, c)
    else match copyUnit s core t g c with
      | .done s1 c1 => copyRun n s1 core t g c1
      | .busy => (s, c)
      | .fault .. => (s, c)

/-! ## Completion (R277, R278, R399, R400) -/

def putCopy (s : State) (core : Nat) (c : Copy) : State :=
  modTeam s core fun t => { t with copies := t.copies.map fun q => if q.id = c.id then c else q }

/-- The record fields of a copy. -/
def copyRecord (s : State) (core : Nat) (t : Team) (g : Grid) (c : Copy) (code addr aux : Nat) (ends : Bool) : Record :=
  { code := code, ends := ends, aux := BitVec.ofNat 32 aux, core := core, group := c.group, region := coreRegion core, team := t.index,
    grid := g.seq, pc := c.pc, addr := BitVec.ofNat 57 addr, desc := BitVec.ofNat 32 c.desc, pasid := g.pasid, part := t.part,
    dc := dayclock s (coreRegion core) }

/-- A 0x30 record, and what the engine keeps with it for a later grant (R422). -/
def parkRecord (s : State) (core : Nat) (t : Team) (g : Grid) (c : Copy) (q : Nat × Nat) : State :=
  let v := getPart s t.part
  let keep : ParkRec := { seq := v.recSeq, task := g.task, pasid := g.pasid, page := q.1,
                          srcLo := c.src, srcLen := c.len, dstLo := c.dst, dstLen := c.len }
  let s1 := addRecord s (copyRecord s core t g c 0x30 (q.1 * 4096) q.2 false)
  if bit v.fqcfg.toNat 0 then modPart s1 t.part fun v => { v with parkRecs := v.parkRecs ++ [keep] } else s1

/-- The records of a copy: up to 16 granules in rising order, then one for the rest. -/
def copyRecords (s : State) (core : Nat) (t : Team) (g : Grid) (c : Copy) : State :=
  let s1 := (c.faults.take 16).foldl (fun s q => parkRecord s core t g c q) s
  match (c.faults.drop 16).head? with
  | some q => addRecord s1 (copyRecord s1 core t g c 0x31 (q.1 * 4096) (c.faults.length - 16) false)
  | none => s1

/-- The bitmap of parked sectors. -/
def bitmapOf (c : Copy) : List Byte :=
  tab (bitmapBytes c.len) fun b =>
    BitVec.ofNat 8 ((List.range 8).foldl (fun acc k => if c.parked.contains (8 * b + k) then acc + 2 ^ k else acc) 0)

/-- The B-store ranges a copy wrote. -/
def copySegs (c : Copy) : List (Nat × Nat) :=
  match c.kind with
  | .d2 => (List.range c.n).map fun r => (c.dst + r * c.dstride, c.len)
  | .gather => [(c.dst, c.n * c.len)]
  | _ => [(c.dst, c.len)]

/-- The source entry of a copy: of all of it, or of the units done when it is saved part-way (R179). -/
def copySource (c : Copy) (whole : Bool) : SrcEntry :=
  if whole then { segs := copySegs c, cmd := none, copy := some { c with units := 0, buffer := [] } }
  else { segs := (doneSegs c).map (·.2), cmd := none, copy := some { c with buffer := [] } }

/-- The end of a copy whose bytes are written: bitmap and status words, its entry released, its signal. -/
def copyEnd (s : State) (core : Nat) (t : Team) (g : Grid) (c : Copy) : State :=
  let s1 := if c.ft then putScratch s core c.aux (bitmapOf c) else s
  let s2 := putScratch s1 core (c.desc + 0x34) (toBytes 4 c.written ++ toBytes 4 (c.parked.length % 2 ^ 16))
  let s3 := modTeam s2 core fun t => { t with
    copies := t.copies.filter fun q => q.id != c.id,
    srcRec := if fDstB c.flags.toNat then addSource t.srcRec (copySource c true) else t.srcRec }
  let o : Origin := { core := core, group := c.group, team := t.index, grid := g.seq, pc := c.pc, desc := BitVec.ofNat 32 c.desc, after := c.id }
  match c.sem with
  | some a => signal s3 t.part o a (if fCount c.flags.toNat then BitVec.ofNat 32 c.written else 1)
  | none => s3

/-- A copy whose units are done: its records are raised and written before it ends. -/
def copyFinish (s : State) (core : Nat) (t : Team) (g : Grid) (c : Copy) : State :=
  if c.faults.isEmpty || !bit (getPart s t.part).fqcfg.toNat 0 then copyEnd s core t g c
  else match c.posted with
    | none =>
      let s1 := copyRecords s core t g c
      unlessFull s (putCopy s1 core { c with posted := some (getPart s1 t.part).recSeq }) t.part
    | some n => if (getPart s t.part).records.any fun r => decide (r.seq < n) then s else copyEnd s core t g c

/-- Whether a team's copies move: on its core, or an `.aon` whose version word is odd (R402).
(DEDUCED, log 25; DEDUCED, log 32.) -/
def copyMoves (s : State) (core : Nat) (t : Team) (c : Copy) : Bool :=
  !(getPart s t.part).stopped && (t.state == .resident || t.state == .draining || c.odd.isSome) && (getDie s (dieOf core)).reset.isNone

/-- Whether an earlier copy of the same group reads or writes a byte that a copy reads or writes: the later one is made after it, since
accesses of one party on one path to a byte keep program order (R200, R205). (DEDUCED, log 25.) -/
def copyBehind (t : Team) (c : Copy) : Bool :=
  let mine := copyRanges c false ++ copyRanges c true
  t.copies.any fun q => q.group == c.group && decide (q.id < c.id) && rangesHit mine (copyRanges q false ++ copyRanges q true)

/-- Up to `n` writes of a store that outlived its task, as far as the lines are quiet. -/
def aonRun (p core : Nat) : Nat → State → List (Nat × List Byte) → State × List (Nat × List Byte)
  | n + 1, s, (h, bs) :: l =>
    if lineQuiet s p (lineBase h) then
      aonRun p core n (writePhys (touchSlice (pullLine s p (lineBase h)) p 1 (coreRegion core) true (lineBase h)) p h bs) l
    else (s, (h, bs) :: l)
  | _, s, l => (s, l)

/-- A store that outlived its task goes on, and is gone with its last write (R197). (DEDUCED, log 5.) -/
def restAon (s : State) (core copy units : Nat) : State :=
  let mine := fun (r : AonRest) => r.core == core && r.id == copy
  match s.parts.find? fun p => p.2.aons.any mine with
  | none => s
  | some p =>
    match p.2.aons.find? mine with
    | none => s
    | some r =>
      if p.2.stopped || (getDie s (dieOf core)).reset.isSome then s
      else
        let q := aonRun p.1 core units s r.writes
        modPart q.1 p.1 fun v => { v with
          aons := if q.2.isEmpty then v.aons.filter fun o => !mine o else v.aons.map fun o => if mine o then { o with writes := q.2 } else o }

/-- A copy moves up to `units` units; with its last it completes. R272 - R277. -/
def execCopyComplete (core copy units : Nat) (s : State) : Host.Outcome State Fault Refusal :=
  match teamOf s core with
  | none => .next (restAon s core copy units)
  | some t =>
    match t.copies.find? fun c => c.id == copy, gridOf s t.part t.grid with
    | some c, some g =>
      if !copyMoves s core t c || copyBehind t c then .next s
      else if copyBad t c then .next (dropCopy s core c)
      else
        let r := copyRun units s core t g c
        let s0 := putCopy r.1 core r.2
        let s1 := if awaitsVersion c && !awaitsVersion r.2 then versionRead s0 core c else s0
        if copyUnits r.2 ≤ r.2.units then .next (copyFinish s1 core t g r.2) else .next s1
    | _, _ => .next (restAon s core copy units)

/-- A copy that reaches bytes it may not access, or a block that does not authenticate, ends its task; what it wrote remains.
R272, R273, R275. -/
def execCopyAccessFault (core copy : Nat) (s : State) : Host.Outcome State Fault Refusal :=
  match teamOf s core with
  | none => .next s
  | some t =>
    match t.copies.find? fun c => c.id == copy, gridOf s t.part t.grid with
    | some c, some g =>
      if copyUnits c ≤ c.units || !copyMoves s core t c || copyBehind t c then .next s
      else match copyUnit s core t g c with
        | .fault code a => .next (endTask (addRecord s (copyRecord s core t g c code a 0 true)) t.part g.task)
        | .done .. => .next s
        | .busy => .next s
    | _, _ => .next s

end Sys2Proof.Machine
end

