-- ==== Sys2Proof/Machine/Flags.lean ====
section
/-! DEFINITION. The floating-point status word (R130 - R132): flags are sticky; the lane stream ORs its own into a private copy
until LJOIN (the merge stands in `copyBack`, Machine/Ops.lean). The flags of each operation are computed with its value
(Machine/Float.lean, Machine/Special.lean, Machine/LaneAlu.lean). -/

namespace Sys2Proof.Machine

open Sys2Proof

/-- The lane stream's private copy gains flags. -/
def raiseLane (g : Group) (f : Flags) : Group := { g with lane := { g.lane with fps := g.lane.fps ||| f } }

/-- FPS as a register reads it, and as a write leaves it: the reserved bits read 0. -/
def readFps (g : Group) : Word := g.fps.setWidth 32
def writeFps (g : Group) (v : Word) : Group := { g with fps := v.extractLsb' 0 5 }

end Sys2Proof.Machine
end

