-- ==== Sys2Proof/Machine/Special.lean ====
section
/-! DEFINITION. The special functions (R141-R143). rcp and sqrt are exact rational and root approximations with a sticky
bit. The six bounded functions take the part's own bits (Config.special) where they meet the bound of Table 6-3, and a
rounded approximation otherwise (log 6). Approximations are fixed-point numbers with 200 fraction bits. -/

namespace Sys2Proof.Machine

open Sys2Proof

/-- Fraction bits of the approximations. -/
def fxBits : Nat := 200

def fxOne : Nat := 2 ^ fxBits

/-- π and ln 2, times 2^320. -/
def piFx : Nat := 0x3243f6a8885a308d313198a2e03707344a4093822299f31d0082efa98ec4e6c89452821e638d01377

def ln2Fx : Nat := 0xb17217f7d1cf79abc9e3b39803f2f6af40f343267298b62d8a0d175b8baafa2be7b876206debac98

def fxMul (a b : Nat) : Nat := a * b / fxOne

/-- The integer square root, from its bits: fuel bits are decided. -/
def isqrt : Nat → Nat → Nat → Nat
  | 0, r, _ => r
  | k + 1, r, n => if (r + 2 ^ k) * (r + 2 ^ k) ≤ n then isqrt k (r + 2 ^ k) n else isqrt k r n

/-- 1 / (m × 2^e): exact, or 64 bits and a sticky bit. -/
def recipV (neg : Bool) (m : Nat) (e : Int) : FVal :=
  let k := Nat.log2 m + 64
  let q := 2 ^ k / m
  if 2 ^ k % m = 0 then .fin neg q (-e - k) else .fin neg (2 * q + 1) (-e - k - 1)

/-- √(m × 2^e), exact or with a sticky bit. -/
def rootV (m : Nat) (e : Int) : FVal :=
  let sh := (128 - Nat.log2 m) + ((e % 2 + (128 - (Nat.log2 m : Int)) % 2) % 2).toNat
  let n := m * 2 ^ sh
  let ex : Int := e - sh
  let r := isqrt 80 0 n
  if r * r = n then .fin false r (ex / 2) else .fin false (2 * r + 1) (ex / 2 - 1)

/-- 1 / √(m × 2^e) to 100 bits, marked inexact. -/
def rsqV (m : Nat) (e : Int) : FVal :=
  let m' := if e % 2 = 0 then m else 2 * m
  let e' : Int := if e % 2 = 0 then e else e - 1
  let r := isqrt 140 0 (2 ^ 260 / m')
  .fin false (2 * r + 1) (-(e' / 2) - 131)

/-- exp of a fixed-point x in [0, 1): the series to its fuel-th term. -/
def expSeries : Nat → Nat → Nat → Nat → Nat → Nat
  | 0, _, _, _, acc => acc
  | k + 1, i, x, term, acc =>
    let t := fxMul term x / i
    expSeries k (i + 1) x t (acc + t)

def expFx (x : Nat) : Nat := expSeries 50 1 x fxOne fxOne

/-- The sine (first = x, i = 1) or cosine (first = 1, i = 0) series of x ≤ 1 by alternating terms. -/
def trigSeries : Nat → Nat → Nat → Int → Bool → Int → Int
  | 0, _, _, _, _, acc => acc
  | k + 1, i, x2, term, neg, acc =>
    let t := term * (x2 : Int) / (fxOne : Int) / ((i + 1) * (i + 2) : Nat)
    trigSeries k (i + 2) x2 t (!neg) (if neg then acc + t else acc - t)

def sinFx (x : Nat) : Int := trigSeries 30 1 (fxMul x x) x false x

def cosFx (x : Nat) : Int := trigSeries 30 0 (fxMul x x) fxOne false fxOne

/-- 2^(m × 2^e) for a signed value: mantissa with 200 fraction bits and an exponent. -/
def ex2V (neg : Bool) (m : Nat) (e : Int) : FVal :=
  -- the argument with 360 fraction bits, floored
  let a : Int := if 0 ≤ e + 360 then (m * 2 ^ (e + 360).toNat : Nat) else (m / 2 ^ (-e - 360).toNat : Nat)
  let a := if neg then -a else a
  let n := a / (2 ^ 360 : Nat)
  let f := (a % (2 ^ 360 : Nat)).toNat
  let x := f * ln2Fx / 2 ^ 480
  .fin false (2 * expFx x + 1) (n - 201)

/-- Fraction bits of log2 of y in [1, 2), y with 200 fraction bits: fuel squarings. -/
def lg2Bits : Nat → Nat → Nat → Nat
  | 0, _, acc => acc
  | k + 1, y, acc =>
    let z := fxMul y y
    if 2 * fxOne ≤ z then lg2Bits k (z / 2) (2 * acc + 1) else lg2Bits k z (2 * acc)

/-- log2 (m × 2^e), with 100 fraction bits. -/
def lg2V (m : Nat) (e : Int) : FVal :=
  let l := Nat.log2 m
  let y := m * 2 ^ (fxBits - l)
  let fr := lg2Bits 100 y 0
  dyadic false (2 * (((l : Int) + e) * (2 ^ 100 : Nat) + fr) + 1) (-101)

/-- sin (or cos) of m × 2^e: argument reduction by π/2 with 320 fraction bits. -/
def trigV (cosine neg : Bool) (m : Nat) (e : Int) : FVal :=
  if e + (Nat.log2 m : Int) < -60 then
    -- sin x lies just below x, cos x just below 1
    if cosine then .fin false (2 ^ 100 - 1) (-100) else .fin neg (m * 2 ^ 100 - 1) (e - 100)
  else
    let a := if 0 ≤ e + 320 then m * 2 ^ (e + 320).toNat else m / 2 ^ (-e - 320).toNat
    let half := piFx / 2
    let k := (2 * a + half) / (2 * half)
    let r : Int := (a : Int) - (k * half : Nat)
    let rn := decide (r < 0)
    let x := r.natAbs / 2 ^ 120
    let q := (k + (if cosine then 1 else 0)) % 4
    let s : Int := if rn then -(sinFx x) else sinFx x
    let c := cosFx x
    let v := match q with | 0 => s | 1 => c | 2 => -s | _ => -c
    let v := if !cosine && neg then -v else v
    dyadic false (2 * v + 1) (-201)

/-- tanh of m × 2^e, 2^-12 ≤ |x| < 9.5: (y - 1) / (y + 1) for y = 2^(2x / ln 2). -/
def tanhV (neg : Bool) (m : Nat) (e : Int) : FVal :=
  let a := if 0 ≤ e + 321 then m * 2 ^ (e + 321).toNat else m / 2 ^ (-e - 321).toNat
  let n := a / ln2Fx
  let x := (a % ln2Fx) / 2 ^ 120
  let y := expFx x * 2 ^ n
  let t := (y - fxOne) * fxOne / (y + fxOne)
  .fin neg (2 * t + 1) (-201)

/-- The spacing of FP32 at the magnitude of a non-zero value, as an exponent (Table 6-3). -/
def ulpExp (m : Nat) (e : Int) : Int :=
  let q : Int := (Nat.log2 m : Int) + e - 23
  if q < -149 then -149 else q

/-- Whether |c - x| ≤ n × 2^q. An approximation x lies on the same side as the exact value of every bound about an FP32 value. -/
def within (c x : FVal) (n : Nat) (q : Int) : Bool :=
  match c with
  | .fin .. =>
    let e0 : Int := if c.exp < x.exp then c.exp else x.exp
    let e' : Int := if q < e0 then q else e0
    decide ((c.scaled e' - x.scaled e').natAbs ≤ n * 2 ^ (q - e').toNat)
  | _ => false

/-- The part's bits for function `fn` of `b` when they meet the bound n × 2^q about the approximation, else its rounding.
The flags are those of the exact value (R131, R142). (DESIGN CHOICE, log 6.) -/
def bounded (fn : Nat) (b : Word) (x : FVal) (n : Nat) (q : Int) : Word × Flags :=
  let r := roundF .f32 .rne false x
  let c := Config.special fn b
  (if within (f32 c) x n q then c else BitVec.ofNat 32 r.1, r.2 ||| flNX)

def nan32 : Word := 0x7FC00000#32
def inf32 (neg : Bool) : Word := if neg then 0xFF800000#32 else 0x7F800000#32
def zero32 (neg : Bool) : Word := if neg then 0x80000000#32 else 0
def one32 (neg : Bool) : Word := if neg then 0xBF800000#32 else 0x3F800000#32

/-- Whether m is a power of two. -/
def isPow2 (m : Nat) : Bool := m != 0 && m == 2 ^ Nat.log2 m

def rcpOp (mode : Rnd) (b : Word) : Word × Flags :=
  match f32 b with
  | .nan => (nan32, 0)
  | .inf n => (zero32 n, 0)
  | .fin n m e =>
    if m = 0 then (inf32 n, flDZ)
    else let r := roundF .f32 mode false (recipV n m e); (BitVec.ofNat 32 r.1, r.2)

def sqrtOp (mode : Rnd) (b : Word) : Word × Flags :=
  match f32 b with
  | .nan => (nan32, 0)
  | .inf n => if n then (nan32, flNV) else (inf32 false, 0)
  | .fin n m e =>
    if m = 0 then (zero32 n, 0)
    else if n then (nan32, flNV)
    else let r := roundF .f32 mode false (rootV m e); (BitVec.ofNat 32 r.1, r.2)

def rsqOp (b : Word) : Word × Flags :=
  match f32 b with
  | .nan => (nan32, 0)
  | .inf n => if n then (nan32, flNV) else (zero32 false, 0)
  | .fin n m e =>
    if m = 0 then (inf32 n, flDZ)
    else if n then (nan32, flNV)
    else
      let t : Int := (Nat.log2 m : Int) + e
      if isPow2 m && t % 2 = 0 then (BitVec.ofNat 32 (exactBits .f32 (.fin false 1 (-(t / 2)))), 0)
      else
        match rsqV m e with
        | .fin _ xm xe => bounded 0 b (.fin false xm xe) 1 (ulpExp xm xe)
        | _ => (nan32, 0)

/-- The integer a finite value is, if it is one. -/
def asInt? (n : Bool) (m : Nat) (e : Int) : Option Int :=
  let r := toIntV .rtz (.fin n m e)
  if r.2 then none else some r.1

def ex2Op (b : Word) : Word × Flags :=
  match f32 b with
  | .nan => (nan32, 0)
  | .inf n => (if n then zero32 false else inf32 false, 0)
  | .fin n m e =>
    if m = 0 then (one32 false, 0)
    else if !n && !ltV (f32 b) (ofInt 128) then (inf32 false, flOF ||| flNX)
    else if n && !ltV (ofInt (-150)) (f32 b) then (zero32 false, flUF ||| flNX)
    else
      match asInt? n m e with
      | some k => (BitVec.ofNat 32 (exactBits .f32 (.fin false 1 k)), 0)
      | none =>
        match ex2V n m e with
        | .fin _ xm xe => bounded 1 b (.fin false xm xe) 1 (ulpExp xm xe)
        | _ => (nan32, 0)

def lg2Op (b : Word) : Word × Flags :=
  match f32 b with
  | .nan => (nan32, 0)
  | .inf n => if n then (nan32, flNV) else (inf32 false, 0)
  | .fin n m e =>
    if m = 0 then (inf32 true, flDZ)
    else if n then (nan32, flNV)
    else if isPow2 m then (BitVec.ofNat 32 (exactBits .f32 (ofInt ((Nat.log2 m : Int) + e))), 0)
    else
      let x := lg2V m e
      let inside := !ltV (f32 b) (.fin false 1 (-1)) && !ltV (ofInt 2) (f32 b)
      match x with
      | .fin _ xm xe => bounded 2 b x 1 (if inside then -22 else ulpExp xm xe)
      | _ => (nan32, 0)

def sinOp (b : Word) : Word × Flags :=
  match f32 b with
  | .nan => (nan32, 0)
  | .inf _ => (nan32, flNV)
  | .fin n m e => if m = 0 then (zero32 n, 0) else bounded 3 b (trigV false n m e) 1 (-22)

def cosOp (b : Word) : Word × Flags :=
  match f32 b with
  | .nan => (nan32, 0)
  | .inf _ => (nan32, flNV)
  | .fin n m e => if m = 0 then (one32 false, 0) else bounded 4 b (trigV true n m e) 1 (-22)

/-- `tanh` (R141, R142). A subnormal sets NX alone, as Table 6-4 has it for 0 < |B| < 2^-12, not UF with it (R131).
(DESIGN CHOICE, log 6.) -/
def tanhOp (b : Word) : Word × Flags :=
  match f32 b with
  | .nan => (nan32, 0)
  | .inf n => (one32 n, 0)
  | .fin n m e =>
    if m = 0 then (zero32 n, 0)
    else if ltV (.fin false m e) (.fin false 1 (-12)) then (b, flNX)
    else if !ltV (.fin false m e) (.fin false 19 (-1)) then (one32 n, flNX)
    else
      match tanhV n m e with
      | .fin _ xm xe => bounded 5 b (.fin n xm xe) 2 (ulpExp xm xe)
      | _ => (nan32, 0)

end Sys2Proof.Machine
end

