-- ==== Sys2Proof/Machine/LaneAlu.lean ====
section
/-! DEFINITION. The register-to-register lane operations: routed reads, the two phases of a word, the value of every operation,
the cross-thread operations and paired words (R60 - R69, R111 - R152). -/

namespace Sys2Proof.Machine

open Sys2Proof

/-! ## Reading (R111) -/

/-- The thread a routed read takes its value from; none reads 0. -/
def routeFrom (g : Group) (rt t : Nat) : Option Nat :=
  let p := fld rt 0 7
  match fld rt 7 3 with
  | 0 => some t
  | 1 => some ((t + p) % 96)
  | 2 => some p
  | 3 => some (if 96 ≤ Nat.xor t p then t else Nat.xor t p)
  | 4 => some ((rdVec g p t).toNat % 96)
  | 5 => if p ≤ t then some (t - p) else none
  | 6 => if t + p ≤ 95 then some (t + p) else none
  | _ => none

/-- An exited thread supplies 0. -/
def routeVec (g : Group) (n rt t : Nat) : Word :=
  match routeFrom g rt t with
  | some u => if mtest g.live u then rdVec g n u else 0
  | none => 0

def halves (h : Nat) : Word := BitVec.ofNat 32 (h + 2 ^ 16 * h)

/-- A constant as its source reads it (R62, R128). -/
def constWord (use : Src) (c : Int) : Word :=
  match use with
  | .f32 => BitVec.ofNat 32 (constBits .f32 c)
  | .f16 => halves (constBits .f16 c)
  | .bf16 => halves (constBits .bf16 c)
  | .unused | .int | .elem | .pred | .vecOnly | .scalOrConst => BitVec.ofInt 32 c

/-- operand() of R111 for one thread; a predicate reads 1 or 0, an unused source 0. -/
def operand (g : Group) (use : Src) (f rt t : Nat) : Word :=
  if use = .unused then 0
  else match fieldKind f with
    | .vec => routeVec g f rt t
    | .scal => rdV g (f - 320)
    | .pred => b2w (mtest (rdP g (f - 384)) t)
    | .const => constWord use (constOf f)
    | .reserved => 0

/-- Whether what a source reads for one thread carries an invalid mark (R127). -/
def operandInv (x : Ctx) (use : Src) (f rt t : Nat) : Bool :=
  if use = .unused then false
  else match fieldKind f with
    | .vec =>
      (match indexReg rt with | some r => mtest (invV x r) t | none => false) ||
        (match routeFrom x.g rt t with | some u => mtest x.g.live u && mtest (invV x f) u | none => false)
    | .scal => invS x (f - 320)
    | .pred => mtest (invP x (f - 384)) t
    | .const => false
    | .reserved => false

/-- The threads that are active (R26), and those whose guard passes. -/
def activeMask (g : Group) : Mask := laneMask g &&& g.live
def guardMask (g : Group) (w : LaneWord) : Mask := if w.neg = 1 then ~~~(rdP g w.pred.toNat) else rdP g w.pred.toNat
def considered (g : Group) (w : LaneWord) : Mask := activeMask g &&& guardMask g w

/-! ## Values: integer operations (R115 - R122) -/

def condI (n : Nat) (a b : Word) : Bool :=
  match n with
  | 0 => a == b
  | 1 => a != b
  | 2 => a.slt b
  | 3 => a.sle b
  | 4 => b.slt a
  | 5 => b.sle a
  | 6 => a.ult b
  | 7 => a.ule b
  | 8 => b.ult a
  | _ => b.ule a

/-- The combine field of a compare. -/
def combine (m : Nat) (r : Bool) (c : Word) : Bool :=
  match fld m 4 2 with
  | 0 => r
  | 1 => r && c != 0
  | _ => r || c != 0

/-- A truth value as a predicate's bit, or as all ones in a vector destination. -/
def boolWord (vd r : Bool) : Word := if vd then (if r then 0xFFFFFFFF#32 else 0) else b2w r

/-- The exact sum of products of `k` elements of `n` bits, signed or not (R121). -/
def dotSum (signed : Bool) (n k : Nat) (a b : Word) : Int :=
  let el := fun (w : Word) (i : Nat) =>
    if signed then toSigned n (fld w.toNat (n * i) n) else ((fld w.toNat (n * i) n : Nat) : Int)
  (List.range k).foldl (fun acc i => acc + el a i * el b i) 0

/-- A dot product added to C, wrapping or clamped. -/
def dotOp (signed sat : Bool) (n k : Nat) (a b c : Word) : Word :=
  let v := (if signed then c.toInt else (c.toNat : Int)) + dotSum signed n k a b
  let lo : Int := if signed then -(2 ^ 31 : Nat) else 0
  let hi : Int := if signed then (2 ^ 31 : Nat) - 1 else (2 ^ 32 : Nat) - 1
  BitVec.ofInt 32 (if sat then (if v < lo then lo else if hi < v then hi else v) else v)

/-- The funnel shift of A ‖ B. -/
def funnel (left : Bool) (a b c : Word) : Word :=
  let n := fld c.toNat 0 5
  BitVec.ofNat 32 (fld (a.toNat * 2 ^ 32 + b.toNat) (if left then 32 - n else n) 32)

/-- Position and width in B (R119). -/
def fieldPos (b : Word) : Nat := fld b.toNat 0 8
def fieldWidth (b : Word) : Nat := let w := fld b.toNat 8 8; if 32 < w then 32 else w

def bfeLaneZ (a b : Word) : Word := BitVec.ofNat 32 (fld a.toNat (fieldPos b) (fieldWidth b))

def bfeLaneS (a b : Word) : Word :=
  let w := fieldWidth b
  if w = 0 then 0 else BitVec.ofInt 32 (toSigned w (ofSigned 32 (a.toInt / 2 ^ fieldPos b)))

def bfiLane (a b c : Word) : Word :=
  let p := fieldPos b
  let w := if 32 - p < fieldWidth b then 32 - p else fieldWidth b
  if 32 ≤ p ∨ w = 0 then c else BitVec.ofNat 32 (setFld c.toNat p w a.toNat)

/-! ## Values: floating point (R135 - R140, R144 - R150) -/

/-- A result rounded once, with the flags of both. -/
def rounded (f : Fmt) (mode : Rnd) (v : FVal × Flags) : Nat × Flags :=
  let r := roundF f mode false v.1
  (r.1, r.2 ||| v.2)

def addBits (f : Fmt) (mode : Rnd) (a b : Nat) : Nat × Flags := rounded f mode (addV mode (decodeF f a) (decodeF f b))
def subBits (f : Fmt) (mode : Rnd) (a b : Nat) : Nat × Flags := rounded f mode (addV mode (decodeF f a) (decodeF f b).negate)
def mulBits (f : Fmt) (mode : Rnd) (a b : Nat) : Nat × Flags := rounded f mode (mulV (decodeF f a) (decodeF f b))
def fmaBits (f : Fmt) (mode : Rnd) (a b c : Nat) : Nat × Flags :=
  rounded f mode (fmaV mode (decodeF f a) (decodeF f b) (decodeF f c))

/-- min and max (R137): -0 is less than +0; `nanForm` lets a NaN through. -/
def minMax (f : Fmt) (mx nanForm : Bool) (a b : Nat) : Nat :=
  let x := decodeF f a
  let y := decodeF f b
  if (x.isNan && y.isNan) || (nanForm && (x.isNan || y.isNan)) then f.nanBits
  else if x.isNan then b
  else if y.isNan then a
  else
    let lt := ltV x y || (x.isZero && y.isZero && x.neg && !y.neg)
    if mx then (if lt then b else a) else (if lt then a else b)

/-- A floating-point condition, with NV for an ordered compare of a NaN (R131, R138). -/
def condF (n : Nat) (x y : FVal) : Bool × Flags :=
  let un := x.isNan || y.isNan
  let fl : Flags := if un && decide (2 ≤ n) && decide (n ≤ 5) then flNV else 0
  (match n with
  | 0 => eqV x y
  | 1 => !eqV x y
  | 2 => !un && ltV x y
  | 3 => !un && !ltV y x
  | 4 => !un && ltV y x
  | 5 => !un && !ltV x y
  | 6 => un
  | _ => !un, fl)

def classMask (x : FVal) : Nat :=
  match x with
  | .nan => 0x100
  | .inf n => if n then 0x001 else 0x080
  | .fin n m _ =>
    if m = 0 then (if n then 0x008 else 0x010)
    else if m < 2 ^ 23 then (if n then 0x004 else 0x020)
    else (if n then 0x002 else 0x040)

/-- A value rounded to an integral value of its format (R140). -/
def rndBits (f : Fmt) (mode : Rnd) (b : Nat) : Nat :=
  match decodeF f b with
  | .nan => f.nanBits
  | .inf _ => b
  | .fin n m e => if m = 0 then b else exactBits f (.fin n (toIntV mode (.fin n m e)).1.natAbs 0)

/-- An operation on each 16-bit half (R136). -/
def packed (f : Nat → Nat → Nat → Nat × Flags) (a b c : Word) : Word × Flags :=
  let at_ := fun (k : Nat) => f (fld a.toNat k 16) (fld b.toNat k 16) (fld c.toNat k 16)
  (BitVec.ofNat 32 ((at_ 0).1 + 2 ^ 16 * (at_ 16).1), (at_ 0).2 ||| (at_ 16).2)

/-- A packed compare: the halves folded, or a mask of each half (R138). -/
def cmpPacked (f : Fmt) (m : Nat) (vd : Bool) (a b c : Word) : Word × Flags :=
  let at_ := fun (k : Nat) => condF (fld m 0 4) (decodeF f (fld a.toNat k 16)) (decodeF f (fld b.toNat k 16))
  let lo := at_ 0
  let hi := at_ 16
  let ones := fun (r : Bool) => if r then 0xFFFF else 0
  (if vd then BitVec.ofNat 32 (ones lo.1 + 2 ^ 16 * ones hi.1)
   else b2w (combine m (if bit m 8 then lo.1 || hi.1 else lo.1 && hi.1) c), lo.2 ||| hi.2)

/-- The floating-point format of a type code, and the range of an integer type (R145). -/
def typeFmt (c : Nat) : Fmt := match c with | 0 => .f32 | 1 => .f16 | 2 => .bf16 | 3 => .e4m3 | _ => .e5m2
def typeSigned (c : Nat) : Bool := c % 2 == 0
def typeLo (c : Nat) : Int := if typeSigned c then -(2 ^ (typeWidth c - 1) : Nat) else 0
def typeHi (c : Nat) : Int := if typeSigned c then (2 ^ (typeWidth c - 1) : Nat) - 1 else (2 ^ typeWidth c : Nat) - 1

/-- cvt(A, C) of R146: `dt` to type, `st` from type, `n` the element. (DEDUCED, log 22.) -/
def cvtOp (mode : Rnd) (dt st n : Nat) (a c : Word) : Word × Flags :=
  let ws := typeWidth st
  let wd := typeWidth dt
  let e := fld a.toNat (if ws = 32 then 0 else ws * n) ws
  let i : Int := if typeSigned st then toSigned ws e else (e : Nat)
  let r : Nat × Flags :=
    if typeIsFloat dt then roundF (typeFmt dt) mode (dt == 5) (if typeIsFloat st then decodeF (typeFmt st) e else ofInt i)
    else if typeIsFloat st then
      let v := cvtInt mode (typeLo dt) (typeHi dt) (decodeF (typeFmt st) e)
      (ofSigned wd v.1, v.2)
    else (ofSigned wd (if i < typeLo dt then typeLo dt else if typeHi dt < i then typeHi dt else i), 0)
  (if wd = 32 then BitVec.ofNat 32 r.1 else BitVec.ofNat 32 (setFld c.toNat (wd * n) wd r.1), r.2)

/-- The element a qpack reads (R147). -/
def qpackElem (fmt : Nat) (a : Word) : FVal :=
  match fmt with
  | 0 => f32 a
  | 1 => decodeF .f16 (fld a.toNat 0 16)
  | 2 => decodeF .f16 (fld a.toNat 16 16)
  | 3 => decodeF .bf16 (fld a.toNat 0 16)
  | _ => decodeF .bf16 (fld a.toNat 16 16)

/-- qpack (R149). -/
def qpackOp (m : Nat) (a b c : Word) : Word × Flags :=
  let type := fld m 3 2
  let n := fld m 0 3
  let e := if bit m 5 then qscaleE (f32 b) type else fld b.toNat 0 6
  let v := qpackElem (fld m 8 4) a
  let put := fun (k : Nat) => BitVec.ofNat 32 (setFld c.toNat (4 * n) 4 k)
  if e = 63 then (put 0, 0)
  else if v.isNan then (put 0, flNV)
  else
    let r := q4Encode v type e
    (put r.1, (if r.2.1 then flOF ||| flNX else 0) ||| (if r.2.2 then flNX else 0))

/-- The scale byte: type ‖ E (R149, format 8). -/
def qscaleOp (m : Nat) (b : Word) : Word := BitVec.ofNat 32 (fld m 3 2 * 64 + qscaleE (f32 b) (fld m 3 2))

def qunpkOp (m : Nat) (a b : Word) : Word :=
  BitVec.ofNat 32 (exactBits .f32 (q4Decode (fld a.toNat (4 * fld m 0 3) 4) (fld b.toNat 0 8)))

/-- rand (R152): A the row, B the column, C the step. -/
def randOp (key : BitVec 64) (m : Nat) (a b c : Word) : Word :=
  let v := vesper key (vcounter c.toNat a.toNat b.toNat)
  match fld m 0 2 with
  | 0 => v
  | 1 => BitVec.ofNat 32 (exactBits .f32 (.fin false (v.toNat / 2 ^ 8) (-24)))
  | _ => BitVec.ofNat 32 (exactBits .f32 (.fin false (v.toNat / 2 ^ 8 + 1) (-24)))

/-- A 32-bit result. -/
def w32 (r : Nat × Flags) : Word × Flags := (BitVec.ofNat 32 r.1, r.2)

/-- The value and the flags of an operation for one thread. `vd`: the destination is a vector register; otherwise a truth value
is 1 or 0. The cross-thread operations have no value of one thread. -/
def laneValue (key : BitVec 64) (op : LaneOp) (m t : Nat) (vd : Bool) (a b c : Word) : Word × Flags :=
  let mode := rndOf (fld m 6 2)
  match op with
  | .nopLane | .voteAny | .voteAll | .ballot | .firstThread | .smpl => (0, 0)
  | .mov => (b, 0)
  | .tidx => (BitVec.ofNat 32 t, 0)
  | .addI32 => (a + b, 0)
  | .subI32 => (a - b, 0)
  | .mulI32 => (a * b, 0)
  | .mulhS32 => (BitVec.ofInt 32 (a.toInt * b.toInt / 2 ^ 32), 0)
  | .mulhZ32 => (BitVec.ofNat 32 (a.toNat * b.toNat / 2 ^ 32), 0)
  | .minS32 => (if a.slt b then a else b, 0)
  | .minZ32 => (if a.ult b then a else b, 0)
  | .maxS32 => (if a.slt b then b else a, 0)
  | .maxZ32 => (if a.ult b then b else a, 0)
  | .absS32 => (if b.msb then -b else b, 0)
  | .negS32 => (-b, 0)
  | .andB32 => (a &&& b, 0)
  | .orB32 => (a ||| b, 0)
  | .xorB32 => (a ^^^ b, 0)
  | .andnB32 => (a &&& ~~~b, 0)
  | .notB32 => (~~~b, 0)
  | .shlB32 => (shiftLeft a b.toNat, 0)
  | .shrZ32 => (shiftRightZ a b.toNat, 0)
  | .shrS32 => (shiftRightS a b.toNat, 0)
  | .popcB32 => (BitVec.ofNat 32 (popCount 32 b.toNat), 0)
  | .clzB32 => (BitVec.ofNat 32 (leadingZeros 32 b.toNat), 0)
  | .brevB32 => (BitVec.ofNat 32 (revBits 32 b.toNat), 0)
  | .cmpEqI32 => (b2w (condI 0 a b), 0)
  | .cmpNeI32 => (b2w (condI 1 a b), 0)
  | .cmpLtS32 => (b2w (condI 2 a b), 0)
  | .cmpLeS32 => (b2w (condI 3 a b), 0)
  | .cmpLtZ32 => (b2w (condI 6 a b), 0)
  | .cmpLeZ32 => (b2w (condI 7 a b), 0)
  | .addF32 => w32 (addBits .f32 mode a.toNat b.toNat)
  | .subF32 => w32 (subBits .f32 mode a.toNat b.toNat)
  | .mulF32 => w32 (mulBits .f32 mode a.toNat b.toNat)
  | .minF32 => (BitVec.ofNat 32 (minMax .f32 false (bit m 0) a.toNat b.toNat), 0)
  | .maxF32 => (BitVec.ofNat 32 (minMax .f32 true (bit m 0) a.toNat b.toNat), 0)
  | .cmpEqF32 => (b2w (condF 0 (f32 a) (f32 b)).1, (condF 0 (f32 a) (f32 b)).2)
  | .cmpLtF32 => (b2w (condF 2 (f32 a) (f32 b)).1, (condF 2 (f32 a) (f32 b)).2)
  | .cmpLeF32 => (b2w (condF 3 (f32 a) (f32 b)).1, (condF 3 (f32 a) (f32 b)).2)
  | .addF16x2 => packed (fun a b _ => addBits .f16 mode a b) a b c
  | .subF16x2 => packed (fun a b _ => subBits .f16 mode a b) a b c
  | .mulF16x2 => packed (fun a b _ => mulBits .f16 mode a b) a b c
  | .minF16x2 => packed (fun p q _ => (minMax .f16 false (bit m 0) p q, 0)) a b c
  | .maxF16x2 => packed (fun p q _ => (minMax .f16 true (bit m 0) p q, 0)) a b c
  | .addBf16x2 => packed (fun a b _ => addBits .bf16 mode a b) a b c
  | .subBf16x2 => packed (fun a b _ => subBits .bf16 mode a b) a b c
  | .mulBf16x2 => packed (fun a b _ => mulBits .bf16 mode a b) a b c
  | .minBf16x2 => packed (fun p q _ => (minMax .bf16 false (bit m 0) p q, 0)) a b c
  | .maxBf16x2 => packed (fun p q _ => (minMax .bf16 true (bit m 0) p q, 0)) a b c
  | .classF32 => (BitVec.ofNat 32 (classMask (f32 b)), 0)
  | .rcpF32 => rcpOp mode b
  | .rsqF32 => rsqOp b
  | .sqrtF32 => sqrtOp mode b
  | .ex2F32 => ex2Op b
  | .lg2F32 => lg2Op b
  | .sinF32 => sinOp b
  | .cosF32 => cosOp b
  | .tanhF32 => tanhOp b
  | .cvtF32S32 => cvtOp mode 0 6 0 b 0
  | .cvtS32F32 => cvtOp mode 6 0 0 b 0
  | .cvtF32Z32 => cvtOp mode 0 7 0 b 0
  | .cvtZ32F32 => cvtOp mode 7 0 0 b 0
  | .cvtF16x2F32 =>
    let lo := roundF .f16 mode false (f32 a)
    let hi := roundF .f16 mode false (f32 b)
    (BitVec.ofNat 32 (lo.1 + 2 ^ 16 * hi.1), lo.2 ||| hi.2)
  | .cvtBf16x2F32 =>
    let lo := roundF .bf16 mode false (f32 a)
    let hi := roundF .bf16 mode false (f32 b)
    (BitVec.ofNat 32 (lo.1 + 2 ^ 16 * hi.1), lo.2 ||| hi.2)
  | .pand => (a &&& b, 0)
  | .por => (a ||| b, 0)
  | .pxor => (a ^^^ b, 0)
  | .pandn => (a &&& ~~~b, 0)
  | .madI32 => (a * b + c, 0)
  | .mulhMadS32 => (BitVec.ofInt 32 ((a.toInt * b.toInt + c.toInt) / 2 ^ 32), 0)
  | .fshRB32 => (funnel false a b c, 0)
  | .fshLB32 => (funnel true a b c, 0)
  | .bfeZ32 => (bfeLaneZ a b, 0)
  | .bfeS32 => (bfeLaneS a b, 0)
  | .bfiB32 => (bfiLane a b c, 0)
  | .selB32 => (if c ≠ 0 then a else b, 0)
  | .dot4S8 => (dotOp true (bit m 0) 8 4 a b c, 0)
  | .dot4Z8 => (dotOp false (bit m 0) 8 4 a b c, 0)
  | .dot2S16 => (dotOp true (bit m 0) 16 2 a b c, 0)
  | .dot2Z16 => (dotOp false (bit m 0) 16 2 a b c, 0)
  | .cmpI32 => (boolWord vd (combine m (condI (fld m 0 4) a b) c), 0)
  | .fmaF32 => w32 (fmaBits .f32 mode a.toNat b.toNat c.toNat)
  | .cmpF32 =>
    let r := condF (fld m 0 4) (f32 a) (f32 b)
    (boolWord vd (combine m r.1 c), r.2)
  | .rndF32 => (BitVec.ofNat 32 (rndBits .f32 mode b.toNat), 0)
  | .fmaF16x2 => packed (fmaBits .f16 mode) a b c
  | .fmaBf16x2 => packed (fmaBits .bf16 mode) a b c
  | .cmpF16x2 => cmpPacked .f16 m vd a b c
  | .cmpBf16x2 => cmpPacked .bf16 m vd a b c
  | .rndF16x2 => packed (fun _ b _ => (rndBits .f16 mode b, 0)) a b c
  | .rndBf16x2 => packed (fun _ b _ => (rndBits .bf16 mode b, 0)) a b c
  | .cvt => cvtOp mode (fld m 8 4) (fld m 2 4) (fld m 0 2) a c
  | .qpack => qpackOp m a b c
  | .qpackScale => (qscaleOp m b, 0)
  | .qunpkF32 => (qunpkOp m a b, 0)
  | .randB32 | .randCoF32 | .randOcF32 | .randV1v2 => (randOp key m a b c, 0)

/-! ## Sampling (R151) -/

/-- A weight at exponent -149: none for +∞, 0 for what is not above 0. -/
def weight (a : Word) : Option Nat :=
  match f32 a with
  | .nan => some 0
  | .inf n => if n then some 0 else none
  | .fin n m e => if n then some 0 else some (m * 2 ^ (e + 149).toNat)

/-- The first thread whose running sum reaches the threshold. -/
def smplPick (u total : Nat) : Nat → List (Nat × Nat) → Word
  | _, [] => 0xFFFFFFFF#32
  | acc, (t, w) :: r =>
    if w ≠ 0 ∧ u * total ≤ (acc + w) * 2 ^ 32 then BitVec.ofNat 32 t else smplPick u total (acc + w) r

/-- smpl over the considered threads and their weights. -/
def smplOp (u : Nat) (l : List (Nat × Word)) : Word :=
  match l.find? fun q => (weight q.2).isNone with
  | some q => BitVec.ofNat 32 q.1
  | none =>
    let ws := l.map fun q => (q.1, (weight q.2).getD 0)
    let total := sumOf (ws.map (·.2))
    if total = 0 then 0xFFFFFFFF#32 else smplPick u total 0 ws

/-! ## A word's slot: what it writes -/

/-- What one slot writes: its destination field, the threads written and their values, the threads whose result carries an
invalid mark, scalar registers with their values and marks, and the flags raised. -/
structure LaneOut where
  field : Option Nat
  mask : Mask
  vals : List Word
  inv : Mask
  scal : List (Nat × Word × Bool)
  flags : Flags

/-- The active threads whose guard carries an invalid mark and reads false: their destination is marked and keeps its value, since
the guard is among what R127 counts as read. (DESIGN CHOICE, log 46.) -/
def guardInv (x : Ctx) (w : LaneWord) : Mask := activeMask x.g &&& invP x w.pred.toNat &&& ~~~(guardMask x.g w)

/-- A cross-thread operation (R123 - R126, R151). Under (!p0) a vote, ballot or first word writes its scalar with no thread considered.
(DESIGN CHOICE, log 46.) -/
def crossOut (x : Ctx) (op : LaneOp) (w : LaneWord) : LaneOut :=
  let s := srcUse op w.mod.toNat
  let d := w.dst.toNat
  let cm := considered x.g w
  let ts := maskThreads cm
  let a := fun (t : Nat) => operand x.g s.1 w.srcA.toNat w.rtA.toNat t
  let am := maskOf fun t => mtest cm t && a t != 0
  let gInv := invP x w.pred.toNat != 0
  let inv := gInv || (ts.any fun t => operandInv x s.1 w.srcA.toNat w.rtA.toNat t)
    || operandInv x s.2.1 w.srcB.toNat w.rtB.toNat 0
  let one := fun (v : Word) =>
    if fieldKind d = .pred then
      ({ field := some d, mask := cm, vals := tab 96 fun _ => v, inv := if inv then cm ||| guardInv x w else 0, scal := [],
         flags := 0 } : LaneOut)
    else { field := some d, mask := 0, vals := [], inv := 0, scal := [(d - 320, v, inv)], flags := 0 }
  match op with
  | .voteAny => one (b2w (am != 0))
  | .voteAll => one (b2w (am == cm))
  | .ballot =>
    let put := fun (k : Nat) => (d - 320 + k, am.extractLsb' (32 * k) 32, inv)
    { field := some d, mask := 0, vals := [], inv := 0, flags := 0,
      scal := if d = 320 then [] else [put 0, put 1, put 2] }
  | .firstThread => one (match mfirst am with | some t => BitVec.ofNat 32 t | none => 0xFFFFFFFF#32)
  | _ => one (smplOp (operand x.g s.2.1 w.srcB.toNat w.rtB.toNat 0).toNat (ts.map fun t => (t, a t)))

/-- Phase one and the values of phase two, from the state before the word (R112, R127). -/
def laneOut (x : Ctx) (op : LaneOp) (w : LaneWord) : LaneOut :=
  if isCross op then crossOut x op w
  else
    let m := w.mod.toNat
    let u := srcUse op m
    let d := w.dst.toNat
    let vd := fieldKind d == .vec
    let a := operand x.g u.1 w.srcA.toNat w.rtA.toNat
    let b := operand x.g u.2.1 w.srcB.toNat w.rtB.toNat
    let c := operand x.g u.2.2 w.srcC.toNat w.rtC.toNat
    let val := fun (t : Nat) => laneValue x.grid.key op m t vd (a t) (b t) (c t)
    let invAt := fun (t : Nat) => mtest (invP x w.pred.toNat) t || operandInv x u.1 w.srcA.toNat w.rtA.toNat t
      || operandInv x u.2.1 w.srcB.toNat w.rtB.toNat t || operandInv x u.2.2 w.srcC.toNat w.rtC.toNat t
    let nothing : LaneOut := { field := none, mask := 0, vals := [], inv := 0, scal := [], flags := 0 }
    if dstUse op = .none then nothing
    else if w.u = 1 then
      match mfirst (activeMask x.g) with
      | none => nothing
      | some f =>
        if mtest (guardMask x.g w) f then
          let r := val f
          let i := invAt f
          if fieldKind d = .scal then { nothing with field := some d, scal := [(d - 320, r.1, i)], flags := r.2 }
          else { field := some d, mask := activeMask x.g, vals := tab 96 fun _ => r.1,
                 inv := if i then activeMask x.g else 0, scal := [], flags := r.2 }
        else if mtest (guardInv x w) f then
          (if fieldKind d = .scal then { nothing with field := some d, scal := [(d - 320, rdV x.g (d - 320), true)] }
           else { nothing with field := some d, inv := activeMask x.g })
        else nothing
    else
      let cm := considered x.g w
      let rs := tab 96 fun t => if mtest cm t then val t else (0, 0)
      { field := some d, mask := cm, vals := rs.map (·.1),
        inv := if inEpisode x then (maskOf fun t => mtest cm t && invAt t) ||| guardInv x w else 0, scal := [],
        flags := rs.foldl (fun acc r => acc ||| r.2) 0 }

/-- Phase two. -/
def commitOut (x : Ctx) (g : Group) (o : LaneOut) : Group :=
  let g1 := match o.field with
    | none => g
    | some d =>
      match fieldKind d with
      | .vec => markV x (wrRow g d o.mask fun t => o.vals.getD t 0) d (o.mask ||| o.inv) o.inv
      | .pred =>
        if d = 384 then g
        else markP x (wrP g (d - 384) o.mask (maskOf fun t => o.vals.getD t 0 != 0)) (d - 384) (o.mask ||| o.inv) o.inv
      | .scal => o.scal.foldl (fun q r => markS x (wrV q r.1 r.2.1) r.1 r.2.2) g
      | .reserved | .const => g
  if inEpisode x then g1 else raiseLane g1 o.flags

/-- The vector registers slots write. -/
def outRows (os : List LaneOut) : List Nat :=
  os.foldl (fun acc o => match o.field with | some d => if fieldKind d = .vec then acc ++ [d] else acc | none => acc) []

/-- A word's slots take effect. In an episode its vector registers are renamed first, and an invalid write of the mask ends the
episode: R338 says so, and is followed where R134 has no instruction of its chapter end one. (DEDUCED, log 24.) -/
def laneRun (s : State) (x : Ctx) (os : List LaneOut) : State :=
  if os.any fun o => o.scal.any fun r => decide (61 ≤ r.1) && r.2.2 then stopEpisode s x
  else match renameRows s x (outRows os) with
    | none => stopEpisode s x
    | some g => laneDone s x (os.foldl (commitOut x) g)

/-! ## Registers of a word -/

/-- The vector registers a word names, with the operand number of each (R391). -/
def namedRegs (op : LaneOp) (w : LaneWord) : List (Nat × Nat) :=
  let u := srcUse op w.mod.toNat
  let src := fun (k : Nat) (use : Src) (f : Nat) => if use ≠ .unused && fieldKind f = .vec then [(k, f)] else []
  let idx := fun (use : Src) (f rt : Nat) =>
    if use ≠ .unused && fieldKind f = .vec then ((indexReg rt).toList.map fun r => (4, r)) else []
  (if dstUse op ≠ .none && fieldKind w.dst.toNat = .vec then [(0, w.dst.toNat)] else []) ++
    src 1 u.1 w.srcA.toNat ++ src 2 u.2.1 w.srcB.toNat ++ src 3 u.2.2 w.srcC.toNat ++
    idx u.1 w.srcA.toNat w.rtA.toNat ++ idx u.2.1 w.srcB.toNat w.rtB.toNat ++ idx u.2.2 w.srcC.toNat w.rtC.toNat

/-- The operand number of the first register that the group does not hold (R33): of several, which the rules do not order, that of the
destination, source A, B, C and the index registers in turn. (DESIGN CHOICE, log 52.) -/
def badReg (x : Ctx) (l : List (Nat × Nat)) : Option Nat := (l.find? fun q => !vregHeld x q.2).map (·.1)

/-- The vector registers a word waits for, and the view registers. -/
def vecUses (op : LaneOp) (w : LaneWord) : List Nat := (namedRegs op w).map (·.2)

def scalUses (op : LaneOp) (w : LaneWord) : List Nat :=
  let u := srcUse op w.mod.toNat
  let src := fun (use : Src) (f : Nat) => if use ≠ .unused && fieldKind f = .scal then [f - 320] else []
  (if fieldKind w.dst.toNat = .scal then upFrom (w.dst.toNat - 320) (if op = .ballot then 3 else 1) else []) ++
    src u.1 w.srcA.toNat ++ src u.2.1 w.srcB.toNat ++ src u.2.2 w.srcC.toNat

/-- One long-form lane operation: its decode checks, its waits, and its two phases (R72, R76, R112, R114). -/
def laneAlu (s : State) (op : LaneOp) (w : LaneWord) : Host.Outcome State Fault Refusal :=
  withCtx s fun x =>
    if !aluLegal op w then raise s x { code := 0x01, uni := w.u == 1 }
    else match badReg x (namedRegs op w) with
      | some n => raise s x { code := 0x03, uni := w.u == 1, aux := n }
      | none => if waitsL s x (vecUses op w) (scalUses op w) then s else laneRun s x [laneOut x op w]

/-! ## The operations -/

/-- No effect. R61. -/
def execNopLane (w : LaneWord) (s : State) : Host.Outcome State Fault Refusal := laneAlu s .nopLane w

/-- B. R115. -/
def execMov (w : LaneWord) (s : State) : Host.Outcome State Fault Refusal := laneAlu s .mov w

/-- The thread's number. R115. -/
def execTidx (w : LaneWord) (s : State) : Host.Outcome State Fault Refusal := laneAlu s .tidx w

/-- A + B modulo 2^32. R115. -/
def execAddI32 (w : LaneWord) (s : State) : Host.Outcome State Fault Refusal := laneAlu s .addI32 w

/-- A - B modulo 2^32. R115. -/
def execSubI32 (w : LaneWord) (s : State) : Host.Outcome State Fault Refusal := laneAlu s .subI32 w

/-- The low word of A × B. R115. -/
def execMulI32 (w : LaneWord) (s : State) : Host.Outcome State Fault Refusal := laneAlu s .mulI32 w

/-- The high word of the signed product. R115. -/
def execMulhS32 (w : LaneWord) (s : State) : Host.Outcome State Fault Refusal := laneAlu s .mulhS32 w

/-- The high word of the unsigned product. R115. -/
def execMulhZ32 (w : LaneWord) (s : State) : Host.Outcome State Fault Refusal := laneAlu s .mulhZ32 w

/-- The smaller, signed. R115. -/
def execMinS32 (w : LaneWord) (s : State) : Host.Outcome State Fault Refusal := laneAlu s .minS32 w

/-- The smaller, unsigned. R115. -/
def execMinZ32 (w : LaneWord) (s : State) : Host.Outcome State Fault Refusal := laneAlu s .minZ32 w

/-- The larger, signed. R115. -/
def execMaxS32 (w : LaneWord) (s : State) : Host.Outcome State Fault Refusal := laneAlu s .maxS32 w

/-- The larger, unsigned. R115. -/
def execMaxZ32 (w : LaneWord) (s : State) : Host.Outcome State Fault Refusal := laneAlu s .maxZ32 w

/-- |B|. R115. -/
def execAbsS32 (w : LaneWord) (s : State) : Host.Outcome State Fault Refusal := laneAlu s .absS32 w

/-- 0 - B. R115. -/
def execNegS32 (w : LaneWord) (s : State) : Host.Outcome State Fault Refusal := laneAlu s .negS32 w

/-- A AND B. R115. -/
def execAndB32 (w : LaneWord) (s : State) : Host.Outcome State Fault Refusal := laneAlu s .andB32 w

/-- A OR B. R115. -/
def execOrB32 (w : LaneWord) (s : State) : Host.Outcome State Fault Refusal := laneAlu s .orB32 w

/-- A XOR B. R115. -/
def execXorB32 (w : LaneWord) (s : State) : Host.Outcome State Fault Refusal := laneAlu s .xorB32 w

/-- A AND NOT B. R115. -/
def execAndnB32 (w : LaneWord) (s : State) : Host.Outcome State Fault Refusal := laneAlu s .andnB32 w

/-- NOT B. R115. -/
def execNotB32 (w : LaneWord) (s : State) : Host.Outcome State Fault Refusal := laneAlu s .notB32 w

/-- A shifted left by B. R115. -/
def execShlB32 (w : LaneWord) (s : State) : Host.Outcome State Fault Refusal := laneAlu s .shlB32 w

/-- A shifted right by B with zeros. R115. -/
def execShrZ32 (w : LaneWord) (s : State) : Host.Outcome State Fault Refusal := laneAlu s .shrZ32 w

/-- A shifted right by B with its sign. R115. -/
def execShrS32 (w : LaneWord) (s : State) : Host.Outcome State Fault Refusal := laneAlu s .shrS32 w

/-- The number of 1 bits of B. R115. -/
def execPopcB32 (w : LaneWord) (s : State) : Host.Outcome State Fault Refusal := laneAlu s .popcB32 w

/-- The number of leading 0 bits of B. R115. -/
def execClzB32 (w : LaneWord) (s : State) : Host.Outcome State Fault Refusal := laneAlu s .clzB32 w

/-- B with its bits reversed. R115. -/
def execBrevB32 (w : LaneWord) (s : State) : Host.Outcome State Fault Refusal := laneAlu s .brevB32 w

/-- A = B. R116. -/
def execCmpEqI32 (w : LaneWord) (s : State) : Host.Outcome State Fault Refusal := laneAlu s .cmpEqI32 w

/-- A ≠ B. R116. -/
def execCmpNeI32 (w : LaneWord) (s : State) : Host.Outcome State Fault Refusal := laneAlu s .cmpNeI32 w

/-- A < B, signed. R116. -/
def execCmpLtS32 (w : LaneWord) (s : State) : Host.Outcome State Fault Refusal := laneAlu s .cmpLtS32 w

/-- A ≤ B, signed. R116. -/
def execCmpLeS32 (w : LaneWord) (s : State) : Host.Outcome State Fault Refusal := laneAlu s .cmpLeS32 w

/-- A < B, unsigned. R116. -/
def execCmpLtZ32 (w : LaneWord) (s : State) : Host.Outcome State Fault Refusal := laneAlu s .cmpLtZ32 w

/-- A ≤ B, unsigned. R116. -/
def execCmpLeZ32 (w : LaneWord) (s : State) : Host.Outcome State Fault Refusal := laneAlu s .cmpLeZ32 w

/-- A + B, rounded once. R135. -/
def execAddF32 (w : LaneWord) (s : State) : Host.Outcome State Fault Refusal := laneAlu s .addF32 w

/-- A - B, rounded once. R135. -/
def execSubF32 (w : LaneWord) (s : State) : Host.Outcome State Fault Refusal := laneAlu s .subF32 w

/-- A × B, rounded once. R135. -/
def execMulF32 (w : LaneWord) (s : State) : Host.Outcome State Fault Refusal := laneAlu s .mulF32 w

/-- The smaller of A and B. R137. -/
def execMinF32 (w : LaneWord) (s : State) : Host.Outcome State Fault Refusal := laneAlu s .minF32 w

/-- The larger of A and B. R137. -/
def execMaxF32 (w : LaneWord) (s : State) : Host.Outcome State Fault Refusal := laneAlu s .maxF32 w

/-- A = B. R138. -/
def execCmpEqF32 (w : LaneWord) (s : State) : Host.Outcome State Fault Refusal := laneAlu s .cmpEqF32 w

/-- A < B. R138. -/
def execCmpLtF32 (w : LaneWord) (s : State) : Host.Outcome State Fault Refusal := laneAlu s .cmpLtF32 w

/-- A ≤ B. R138. -/
def execCmpLeF32 (w : LaneWord) (s : State) : Host.Outcome State Fault Refusal := laneAlu s .cmpLeF32 w

/-- A + B of each half, rounded once. R136. -/
def execAddF16x2 (w : LaneWord) (s : State) : Host.Outcome State Fault Refusal := laneAlu s .addF16x2 w

/-- A - B of each half, rounded once. R136. -/
def execSubF16x2 (w : LaneWord) (s : State) : Host.Outcome State Fault Refusal := laneAlu s .subF16x2 w

/-- A × B of each half, rounded once. R136. -/
def execMulF16x2 (w : LaneWord) (s : State) : Host.Outcome State Fault Refusal := laneAlu s .mulF16x2 w

/-- The smaller of A and B in each half. R137. -/
def execMinF16x2 (w : LaneWord) (s : State) : Host.Outcome State Fault Refusal := laneAlu s .minF16x2 w

/-- The larger of A and B in each half. R137. -/
def execMaxF16x2 (w : LaneWord) (s : State) : Host.Outcome State Fault Refusal := laneAlu s .maxF16x2 w

/-- A + B of each half, rounded once. R136. -/
def execAddBf16x2 (w : LaneWord) (s : State) : Host.Outcome State Fault Refusal := laneAlu s .addBf16x2 w

/-- A - B of each half, rounded once. R136. -/
def execSubBf16x2 (w : LaneWord) (s : State) : Host.Outcome State Fault Refusal := laneAlu s .subBf16x2 w

/-- A × B of each half, rounded once. R136. -/
def execMulBf16x2 (w : LaneWord) (s : State) : Host.Outcome State Fault Refusal := laneAlu s .mulBf16x2 w

/-- The smaller of A and B in each half. R137. -/
def execMinBf16x2 (w : LaneWord) (s : State) : Host.Outcome State Fault Refusal := laneAlu s .minBf16x2 w

/-- The larger of A and B in each half. R137. -/
def execMaxBf16x2 (w : LaneWord) (s : State) : Host.Outcome State Fault Refusal := laneAlu s .maxBf16x2 w

/-- The class of B as a mask of one bit. R139. -/
def execClassF32 (w : LaneWord) (s : State) : Host.Outcome State Fault Refusal := laneAlu s .classF32 w

/-- 1 / B. R141. -/
def execRcpF32 (w : LaneWord) (s : State) : Host.Outcome State Fault Refusal := laneAlu s .rcpF32 w

/-- 1 / √B. R141. -/
def execRsqF32 (w : LaneWord) (s : State) : Host.Outcome State Fault Refusal := laneAlu s .rsqF32 w

/-- √B. R141. -/
def execSqrtF32 (w : LaneWord) (s : State) : Host.Outcome State Fault Refusal := laneAlu s .sqrtF32 w

/-- 2^B. R141. -/
def execEx2F32 (w : LaneWord) (s : State) : Host.Outcome State Fault Refusal := laneAlu s .ex2F32 w

/-- log2 B. R141. -/
def execLg2F32 (w : LaneWord) (s : State) : Host.Outcome State Fault Refusal := laneAlu s .lg2F32 w

/-- sin B. R141. -/
def execSinF32 (w : LaneWord) (s : State) : Host.Outcome State Fault Refusal := laneAlu s .sinF32 w

/-- cos B. R141. -/
def execCosF32 (w : LaneWord) (s : State) : Host.Outcome State Fault Refusal := laneAlu s .cosF32 w

/-- tanh B. R141. -/
def execTanhF32 (w : LaneWord) (s : State) : Host.Outcome State Fault Refusal := laneAlu s .tanhF32 w

/-- INT32 to FP32. R144. -/
def execCvtF32S32 (w : LaneWord) (s : State) : Host.Outcome State Fault Refusal := laneAlu s .cvtF32S32 w

/-- FP32 to INT32. R144. -/
def execCvtS32F32 (w : LaneWord) (s : State) : Host.Outcome State Fault Refusal := laneAlu s .cvtS32F32 w

/-- Unsigned to FP32. R144. -/
def execCvtF32Z32 (w : LaneWord) (s : State) : Host.Outcome State Fault Refusal := laneAlu s .cvtF32Z32 w

/-- FP32 to unsigned. R144. -/
def execCvtZ32F32 (w : LaneWord) (s : State) : Host.Outcome State Fault Refusal := laneAlu s .cvtZ32F32 w

/-- A and B to the halves of a packed FP16. R144. -/
def execCvtF16x2F32 (w : LaneWord) (s : State) : Host.Outcome State Fault Refusal := laneAlu s .cvtF16x2F32 w

/-- A and B to the halves of a packed BF16. R144. -/
def execCvtBf16x2F32 (w : LaneWord) (s : State) : Host.Outcome State Fault Refusal := laneAlu s .cvtBf16x2F32 w

/-- A AND B. R122. -/
def execPand (w : LaneWord) (s : State) : Host.Outcome State Fault Refusal := laneAlu s .pand w

/-- A OR B. R122. -/
def execPor (w : LaneWord) (s : State) : Host.Outcome State Fault Refusal := laneAlu s .por w

/-- A XOR B. R122. -/
def execPxor (w : LaneWord) (s : State) : Host.Outcome State Fault Refusal := laneAlu s .pxor w

/-- A AND NOT B. R122. -/
def execPandn (w : LaneWord) (s : State) : Host.Outcome State Fault Refusal := laneAlu s .pandn w

/-- A × B + C modulo 2^32. R117. -/
def execMadI32 (w : LaneWord) (s : State) : Host.Outcome State Fault Refusal := laneAlu s .madI32 w

/-- The high word of A × B + C. R117. -/
def execMulhMadS32 (w : LaneWord) (s : State) : Host.Outcome State Fault Refusal := laneAlu s .mulhMadS32 w

/-- The funnel shift right of A ‖ B by C. R118. -/
def execFshRB32 (w : LaneWord) (s : State) : Host.Outcome State Fault Refusal := laneAlu s .fshRB32 w

/-- The funnel shift left of A ‖ B by C. R118. -/
def execFshLB32 (w : LaneWord) (s : State) : Host.Outcome State Fault Refusal := laneAlu s .fshLB32 w

/-- The field of A that B names, zero-extended. R119. -/
def execBfeZ32 (w : LaneWord) (s : State) : Host.Outcome State Fault Refusal := laneAlu s .bfeZ32 w

/-- The field of A that B names, sign-extended. R119. -/
def execBfeS32 (w : LaneWord) (s : State) : Host.Outcome State Fault Refusal := laneAlu s .bfeS32 w

/-- C with the field that B names taken from A. R119. -/
def execBfiB32 (w : LaneWord) (s : State) : Host.Outcome State Fault Refusal := laneAlu s .bfiB32 w

/-- A where C is true, else B. R120. -/
def execSelB32 (w : LaneWord) (s : State) : Host.Outcome State Fault Refusal := laneAlu s .selB32 w

/-- C plus four products of signed bytes. R121. -/
def execDot4S8 (w : LaneWord) (s : State) : Host.Outcome State Fault Refusal := laneAlu s .dot4S8 w

/-- C plus four products of unsigned bytes. R121. -/
def execDot4Z8 (w : LaneWord) (s : State) : Host.Outcome State Fault Refusal := laneAlu s .dot4Z8 w

/-- C plus two products of signed halves. R121. -/
def execDot2S16 (w : LaneWord) (s : State) : Host.Outcome State Fault Refusal := laneAlu s .dot2S16 w

/-- C plus two products of unsigned halves. R121. -/
def execDot2Z16 (w : LaneWord) (s : State) : Host.Outcome State Fault Refusal := laneAlu s .dot2Z16 w

/-- A compared with B, combined with predicate C. R116. -/
def execCmpI32 (w : LaneWord) (s : State) : Host.Outcome State Fault Refusal := laneAlu s .cmpI32 w

/-- A × B + C, rounded once. R135. -/
def execFmaF32 (w : LaneWord) (s : State) : Host.Outcome State Fault Refusal := laneAlu s .fmaF32 w

/-- A compared with B, combined with predicate C. R138. -/
def execCmpF32 (w : LaneWord) (s : State) : Host.Outcome State Fault Refusal := laneAlu s .cmpF32 w

/-- B rounded to an integral value. R140. -/
def execRndF32 (w : LaneWord) (s : State) : Host.Outcome State Fault Refusal := laneAlu s .rndF32 w

/-- A × B + C of each half. R135. -/
def execFmaF16x2 (w : LaneWord) (s : State) : Host.Outcome State Fault Refusal := laneAlu s .fmaF16x2 w

/-- A × B + C of each half. R135. -/
def execFmaBf16x2 (w : LaneWord) (s : State) : Host.Outcome State Fault Refusal := laneAlu s .fmaBf16x2 w

/-- A compared with B in each half. R138. -/
def execCmpF16x2 (w : LaneWord) (s : State) : Host.Outcome State Fault Refusal := laneAlu s .cmpF16x2 w

/-- A compared with B in each half. R138. -/
def execCmpBf16x2 (w : LaneWord) (s : State) : Host.Outcome State Fault Refusal := laneAlu s .cmpBf16x2 w

/-- Each half of B rounded to an integral value. R140. -/
def execRndF16x2 (w : LaneWord) (s : State) : Host.Outcome State Fault Refusal := laneAlu s .rndF16x2 w

/-- Each half of B rounded to an integral value. R140. -/
def execRndBf16x2 (w : LaneWord) (s : State) : Host.Outcome State Fault Refusal := laneAlu s .rndBf16x2 w

/-- One element converted. R146. -/
def execCvt (w : LaneWord) (s : State) : Host.Outcome State Fault Refusal := laneAlu s .cvt w

/-- One element packed into a nibble. R149. -/
def execQpack (w : LaneWord) (s : State) : Host.Outcome State Fault Refusal := laneAlu s .qpack w

/-- The scale byte of a block. R149. -/
def execQpackScale (w : LaneWord) (s : State) : Host.Outcome State Fault Refusal := laneAlu s .qpackScale w

/-- One nibble unpacked. R150. -/
def execQunpkF32 (w : LaneWord) (s : State) : Host.Outcome State Fault Refusal := laneAlu s .qunpkF32 w

/-- Whether A holds in some considered thread. R124. -/
def execVoteAny (w : LaneWord) (s : State) : Host.Outcome State Fault Refusal := laneAlu s .voteAny w

/-- Whether A holds in every considered thread. R124. -/
def execVoteAll (w : LaneWord) (s : State) : Host.Outcome State Fault Refusal := laneAlu s .voteAll w

/-- A of the considered threads as 96 bits. R125. -/
def execBallot (w : LaneWord) (s : State) : Host.Outcome State Fault Refusal := laneAlu s .ballot w

/-- The lowest considered thread in which A holds. R126. -/
def execFirstThread (w : LaneWord) (s : State) : Host.Outcome State Fault Refusal := laneAlu s .firstThread w

/-- One considered thread, chosen by weight. R151. -/
def execSmpl (w : LaneWord) (s : State) : Host.Outcome State Fault Refusal := laneAlu s .smpl w

/-- A random word. R152. -/
def execRandB32 (w : LaneWord) (s : State) : Host.Outcome State Fault Refusal := laneAlu s .randB32 w

/-- A random value in [0, 1). R152. -/
def execRandCoF32 (w : LaneWord) (s : State) : Host.Outcome State Fault Refusal := laneAlu s .randCoF32 w

/-- A random value in (0, 1]. R152. -/
def execRandOcF32 (w : LaneWord) (s : State) : Host.Outcome State Fault Refusal := laneAlu s .randOcF32 w

/-- `rand` under the opcode of versions 1 and 2. R54. -/
def execRandV1v2 (w : LaneWord) (s : State) : Host.Outcome State Fault Refusal := laneAlu s .randV1v2 w

/-! ## Paired words (R60, R67, R68, R391) -/

/-- The lower slot whose fields are illegal, if any. -/
def badSlot (o : Option (LaneOp × LaneOp)) (a b : ShortOp) (v : Nat) : Option Nat :=
  match shortOpcode v a.op.toNat with
  | none => some 0
  | some x =>
    if !aluLegal x (shortWord a) then some 0
    else match o with
      | none => some 1
      | some (_, y) => if aluLegal y (shortWord b) then none else some 1

/-- Both slots in one word: both read before either writes (R112). -/
def execLanePairedWord (a b : ShortOp) (s : State) : Host.Outcome State Fault Refusal :=
  withCtx s fun x =>
    let v := x.grid.hdr.version
    let o := pairOps v a b
    let wa := shortWord a
    let wb := shortWord b
    match badSlot o a b v, o with
    | some k, _ => raise s x { code := 0x01, slot := k }
    | none, none => raiseIllegal s x
    | none, some (p, q) =>
      if !pairLegal p q wa wb then raise s x { code := 0x02, slot := 3 }
      else match badReg x (namedRegs p wa), badReg x (namedRegs q wb) with
        | some n, _ => raise s x { code := 0x03, slot := 0, aux := n }
        | none, some n => raise s x { code := 0x03, slot := 1, aux := n }
        | none, none =>
          if waitsL s x (vecUses p wa ++ vecUses q wb) (scalUses p wa ++ scalUses q wb) then s
          else laneRun s x [laneOut x p wa, laneOut x q wb]

end Sys2Proof.Machine
end

