-- ==== Sys2Proof/Machine/ScalarMem.lean ====
section
/-! DEFINITION. Scalar loads, stores, atomics, CAS, fences and waits, and the steps that return values and end waits
(R251 - R258, R266 - R269, R336). -/

namespace Sys2Proof.Machine

open Sys2Proof

/-! ## Addresses and checks (R251, R252) -/

/-- A global address: the pair's 57 bits plus a byte offset, modulo 2^57. A local one: a register plus an offset, modulo 2^32. -/
def globalAddr (base : Nat) (off : Int) : Nat := ofSigned 57 ((base : Int) + off)
def localAddr (base : Word) (off : Int) : Nat := ofSigned 32 ((base.toNat : Int) + off)

/-- The check an access fails first, if any, as a fault code (R252). -/
def accessFault (s : State) (x : Ctx) (isLocal : Bool) (a n : Nat) (wr : Bool) : Option Nat :=
  if a % n ≠ 0 then some 0x05
  else if isLocal then (if localLimit x.team < a + n then some 0x06 else none)
  else globalFault s x a n wr

/-- The physical address of an access that passed its checks. -/
def hpaOf (s : State) (x : Ctx) (a : Nat) : Nat :=
  match translate s x.team.part x.grid.pasid a with | .ok h => h | _ => 0

def widthBytes (w : Nat) : Nat := 2 ^ w

/-- A global load that misses the L1 is judged long at issue when its translation is not cached in the core, its tier is 1 or
more, or its home is in band 3 (R336). -/
def judgedLong (s : State) (x : Ctx) (va hpa : Nat) : Bool :=
  let k := getCore s x.core
  (l1Find k (lineBase hpa)).isNone &&
    (!tlbHit k x.grid.pasid va || tierOf s x.team.part hpa != some 0 ||
      bandTo x.core (anchorSite s x.team.part hpa) == 3)

/-- The accesses of one thread: 16 bytes are two accesses of 8 (R206). -/
def mkAccesses (s : State) (x : Ctx) (k : OpKind) (t va n : Nat) (data : Nat) (cmp aop : Nat) (prom : Bool) : List Access :=
  let one := fun (v m d : Nat) =>
    ({ id := 0, op := 0, thread := t, kind := k, va := v, hpa := hpaOf s x v, size := m, data := BitVec.ofNat 128 d,
       cmp := BitVec.ofNat 64 cmp, aop := aop, prom := prom, state := .queued } : Access)
  if n = 16 then [one va 8 (data % 2 ^ 64), one (va + 8) 8 (data / 2 ^ 64)] else [one va n data]

/-- A load's prefetch of a line, as `pref.l1` makes it (R74); its request overtakes no earlier release, acquire or fence of its group, and
waits in the injection queue behind one (R241). Without an L1, and for `pref.sl`, it fills slice and translation. -/
def prefetchLine (s : State) (x : Ctx) (va : Nat) (l1 : Bool) : State :=
  if !leaseOk x.grid va 1 false then s
  else if pageMoving (getPart s x.team.part) x.grid.pasid (va / 4096) then s
  else match translate s x.team.part x.grid.pasid va with
    | .ok h =>
      let s1 := touchPage s x va
      let k := getCore s1 x.core
      let line := lineBase h
      if l1 && x.team.l1 != 0 then
        (if (l1Find k line).isSome || (missFor k line).isSome || (headAcc k line).isSome then s1
         else
           let q : PrefReq := { id := s1.fresh, group := x.gi, fence := x.g.fences.last, line := line, va := va }
           sendPref (modCore (bumpFresh s1) x.core fun k => { k with prefs := k.prefs ++ [q] }) x.core q)
      else touchSlice s1 x.team.part 0 (coreRegion x.core) false line
    | _ => s

/-! ## The acting scalar stream's memory instruction -/

/-- A scalar word of the L path that is no load: it ends an episode, waits for its registers and for an outstanding acquire,
and goes on (R209, R253). -/
def scalarMem (s : State) (legal : Bool) (regs : List Nat) (f : Ctx → State) : Host.Outcome State Fault Refusal :=
  withCtx s fun x =>
    if !legal then raiseIllegal s x
    else if inEpisode x then stopEpisode s x
    else if waitsS s x regs || acqPending x then scalarWait s x .operand
    else f x

/-- A release or a fence drains the write buffer, as far as the accesses below `n`, while it waits; a write that cannot drain is its
fault (R392). -/
def drainWait (s : State) (x : Ctx) (n : Nat) : State :=
  match undrainable s x.core n with
  | some a => raise s x { code := 0x21, addr := a.va }
  | none => fenceWait s x

/-- A release of the acting stream waits as R209 and R248 ask; `f` goes on once it need not. -/
def withRelease (s : State) (x : Ctx) (order scope : Nat) (f : Group → State) : State :=
  if wideRelease order scope && releaseWaits s x then drainWait s x (fenceFrom s x) else f (setFence x x.g none)

def regsFrom (r : BitVec 6) (n : Nat) : List Nat := if r = 0 then [] else upFrom r.toNat n

/-- A pair that s0 stands for as zero. -/
def rdPair0 (g : Group) (r : BitVec 6) : Nat := if r = 0 then 0 else rdPair g r.toNat

/-- A load under Schuss (R253). -/
def schussLoad (s : State) (x : Ctx) (d : BitVec 6) (n : Nat) (isLocal : Bool) (baseInv : Bool) (a size : Nat) (v : Nat) : State :=
  let fault := accessFault s x isLocal a size false
  let ok := isLocal && !baseInv && fault.isNone
  let inv := !ok
  if inv && decide (61 ≤ d.toNat) then stopEpisode s x
  else
    let g := (regsFrom d n).foldl (fun q r => markS x q r inv) x.g
    let g1 := if ok then writeDest g { id := 0, group := 0, lane := false, kind := .ld, dest := .sregs d.toNat n, width := 0, sext := false, threads := 1, uni := false, attr := { order := 0, scope := 0 }, issued := 0, pc := 0 } (fun _ => v) else g
    let s1 := scalarDone s x g1
    if isLocal || baseInv || a % size ≠ 0 then s1 else prefetchLine s1 x a true

/-- A load. `w` width, `x` sign-extend, `l` local, `q` acquire, `c` scope, `f` offset in units of the width. R251 - R256. -/
def execLdScalar (d a : BitVec 6) (w : BitVec 2) (sx l q : BitVec 1) (c : BitVec 3) (f : BitVec 6) (s : State) :
    Host.Outcome State Fault Refusal :=
  withCtx s fun x =>
    let isLocal := l == 1
    let size := widthBytes w.toNat
    let n := if w = 3 then 2 else 1
    let base := if isLocal then [a.toNat] else [a.toNat, a.toNat + 1]
    let off : Int := f.toInt * size
    let adr := if isLocal then localAddr (rdS x.g a.toNat) off else globalAddr (pairAddr x.g a.toNat) off
    let value := extendW size (sx == 1) (scratchRead x.team adr size)
    let attr : Attr := { order := q.toNat, scope := c.toNat }
    let op : PendOp := {
      id := 0, group := x.gi, lane := false, kind := .ld, dest := .sregs d.toNat n, width := size, sext := sx == 1,
      threads := 1, uni := false, attr := attr, issued := s.now, pc := x.g.spc.toNat }
    if !ldOk d a w sx l c then raiseIllegal s x
    else if waitsS s x (base ++ regsFrom d n) || (acqPending x && !inEpisode x) then scalarWait s x .operand
    else if inEpisode x then
      (let inv := base.any fun r => invS x r
       if isLocal && !inv && boardHit x.team adr size then scalarWait s x .operand
       else schussLoad s x d n isLocal inv adr size value)
    else match accessFault s x isLocal adr size false with
      | some code => raise s x { code := code, addr := adr }
      | none =>
        if isLocal then
          (if boardHit x.team adr size then scalarWait s x .operand
           else scalarDone s x (hearIf (acquires attr) s.fresh (writeDest x.g op fun _ => value)))
        else
          issueOp (scalarDone s x x.g) x { op with long := judgedLong s x adr (hpaOf s x adr) }
            (mkAccesses s x .ld 0 adr size 0 0 0 false)

/-- A store. R251 - R256. -/
def execStScalar (d a : BitVec 6) (w : BitVec 2) (l q : BitVec 1) (c : BitVec 3) (f : BitVec 6) (s : State) :
    Host.Outcome State Fault Refusal :=
  let isLocal := l == 1
  let size := widthBytes w.toNat
  let n := if w = 3 then 2 else 1
  let base := if isLocal then [a.toNat] else [a.toNat, a.toNat + 1]
  scalarMem s (stOk d a w l c) (base ++ regsFrom d n) fun x =>
    let off : Int := f.toInt * size
    let adr := if isLocal then localAddr (rdS x.g a.toNat) off else globalAddr (pairAddr x.g a.toNat) off
    let data := if w = 3 then rdPair0 x.g d else (rdS x.g d.toNat).toNat
    match accessFault s x isLocal adr size true with
    | some code => raise s x { code := code, addr := adr }
    | none =>
      withRelease s x (2 * q.toNat) (if isLocal then 1 else c.toNat) fun g =>
        if isLocal then
          (if boardHit x.team adr size then scalarWait s x .operand
           else modTeam (scalarDone s x g) x.core fun t => scratchWrite t adr size data)
        else
          issueOp (scalarDone s x g) x
            { id := 0, group := x.gi, lane := false, kind := .st, dest := .none, width := size, sext := false, threads := 1,
              uni := false, attr := { order := 2 * q.toNat, scope := c.toNat }, issued := s.now, pc := x.g.spc.toNat }
            (mkAccesses s x .st 0 adr size data 0 0 false)

/-- A read-modify-write of scratch, in one step (R259): the new value for an old one, none for no write. -/
def localRmw (s : State) (x : Ctx) (g : Group) (adr size : Nat) (d : BitVec 6) (n : Nat) (acq : Bool) (new : Nat → Option Nat) : State :=
  if boardHit x.team adr size then scalarWait s x .operand
  else
    let old := scratchRead x.team adr size
    let g1 := (List.range n).foldl (fun q k => if d = 0 then q else wrS q (d.toNat + k) (wordOfNat old k)) g
    let s1 := scalarDone s x (hearIf acq s.fresh g1)
    match new old with
    | some v => modTeam s1 x.core fun t => scratchWrite t adr size v
    | none => s1

/-- A scalar atomic or CAS: its checks, its release half, and its access. -/
def scalarRmw (s : State) (x : Ctx) (a d : BitVec 6) (c : BitVec 3) (q : BitVec 2) (k : OpKind) (size n aop data cmp : Nat)
    (new : Nat → Option Nat) : State :=
  let isLocal := c == 7
  let adr := if isLocal then localAddr (rdS x.g a.toNat) 0 else globalAddr (pairAddr x.g a.toNat) 0
  let attr : Attr := { order := if c = 6 then 3 else q.toNat, scope := if isLocal then 1 else c.toNat }
  match accessFault s x isLocal adr size true with
  | some code => raise s x { code := code, addr := adr }
  | none =>
    withRelease s x attr.order attr.scope fun g =>
      if isLocal then localRmw s x g adr size d n (acquires attr) new
      else issueOp (scalarDone s x g) x
        { id := 0, group := x.gi, lane := false, kind := k, dest := .sregs d.toNat n, width := size, sext := false,
          threads := 1, uni := false, attr := attr, issued := s.now, pc := x.g.spc.toNat }
        (mkAccesses s x k 0 adr size data cmp aop (c == 6))

def rmwRegs (a : BitVec 6) (c : BitVec 3) : List Nat := if c = 7 then [a.toNat] else [a.toNat, a.toNat + 1]

/-- An atomic operation on a word; old to sd. R257 - R259. -/
def execAtomScalar (d a b : BitVec 6) (c : BitVec 3) (q : BitVec 2) (o : BitVec 3) (s : State) :
    Host.Outcome State Fault Refusal :=
  scalarMem s (atomOk a c) (rmwRegs a c ++ [b.toNat] ++ regsFrom d 1) fun x =>
    let v := rdS x.g b.toNat
    scalarRmw s x a d c q .atom 4 1 o.toNat v.toNat 0 fun old => some (atomNew o.toNat (BitVec.ofNat 32 old) v).toNat

/-- A compare and swap of 32 or 64 bits; sd holds the new value and receives the old. R257 - R259. -/
def execCasScalar (d a b : BitVec 6) (c : BitVec 3) (q : BitVec 2) (w : BitVec 1) (s : State) :
    Host.Outcome State Fault Refusal :=
  let n := if w = 1 then 2 else 1
  scalarMem s (casOk d a b c w) (rmwRegs a c ++ regsFrom b n ++ regsFrom d n) fun x =>
    let get := fun (r : BitVec 6) => if w = 1 then rdPair0 x.g r else (rdS x.g r.toNat).toNat
    scalarRmw s x a d c q .cas (4 * n) n 0 (get d) (get b) fun old => if old = get b then some (get d) else none

/-! ## Fences and waits -/

/-- Whether the operations of paths C, M and K that a fence names are still to make accesses (R211, R266). -/
def pathBusy (s : State) (x : Ctx) (m : BitVec 4) : Bool :=
  (m.getLsbD 1 && x.team.copies.any fun q => issuedBy x.team x.gi q.group q.id) ||
  (m.getLsbD 2 && x.team.queue.any fun q => issuedBy x.team x.gi q.group q.after) ||
  (m.getLsbD 3 && ((x.team.colls.any fun q => issuedBy x.team x.gi q.group q.after) || !(sendsOf s x.team x.gi).isEmpty))

/-- Whether L-path accesses before a fence must still be made: all of the core's at die scope or wider, for a release because it covers
them and for an acquire because a load before it may have read one of them from the write buffer (R216); the
group's own otherwise, of which stores may stay in the write buffer at team scope, unless the fence orders another path too
(`others`) and what that path reads must find them (R211, R248). While the lane stream is started,
only the scalar stream's own count (R266). -/
def fenceBusy (s : State) (x : Ctx) (t c : Nat) (others : Bool) : Bool :=
  let wide := decide (2 ≤ c) || others
  let mine := fun (o : PendOp) => o.group == x.gi && (!x.g.lane.started || !o.lane) && (wide || (o.kind != .st && o.kind != .sc))
  (decide (2 ≤ c) && (if t = 0 then accsBefore (getCore s x.core) (fenceFrom s x) else releaseWaits s x)) ||
    (getCore s x.core).ops.any mine

/-- Whether loads of the group before a fence with an acquire half are outstanding: each acts as an acquire, whose later accesses on
the fence's paths wait for it (R211). -/
def readsBusy (s : State) (x : Ctx) : Bool :=
  (getCore s x.core).ops.any fun o => o.group == x.gi && (!x.g.lane.started || !o.lane) && o.kind != .st

/-- The accesses that a fence drains from the write buffer, those below a number: one at die scope or wider, and one that orders another
path too, drains the group's own where it names the L path, and in any case what a wide release half carries on (R214). -/
def fenceDrains (s : State) (x : Ctx) (c : Nat) (m : BitVec 4) : Nat :=
  if m.getLsbD 0 && (decide (2 ≤ c) || m.extractLsb' 1 3 != 0) then fenceFrom s x else if 2 ≤ c then x.g.heard else 0

/-- Whether a fence must still wait. A release half at die scope or wider comes after every write that its group has acquired, whatever
paths it names: a write behind it that another core acquires carries them on (R214). -/
def fenceStill (s : State) (x : Ctx) (t : BitVec 4) (c : BitVec 3) (m : BitVec 4) : Bool :=
  pathBusy s x m || (t != 1 && readsBusy s x) || (t != 0 && decide (2 ≤ c.toNat) && hearWaits s x) ||
    (m.getLsbD 0 && fenceBusy s x t.toNat c.toNat (m.extractLsb' 1 3 != 0))

/-- What a group knows of its fences once it has executed one more, numbered `n`: `rel`, whether it has a release half at team scope or
below. -/
def fenceMarks (q : FenceMark) (n pc : Nat) (rel : Bool) (c : Nat) : FenceMark :=
  let q1 := { q with last := n }
  if !rel then q1
  else if c = 1 then { q1 with rel := n, relPc := pc, team := n, teamPc := pc } else { q1 with rel := n, relPc := pc }

/-- A fence: `t` tag, `c` scope, `m` path mask. What its group does on another path from here on comes behind the writes of its core so
far: by its acquire half, or since a write of it stands for the release half. R211, R214, R217, R248, R266; under Schuss R253. -/
def execFence (t : BitVec 4) (c : BitVec 3) (m : BitVec 4) (s : State) : Host.Outcome State Fault Refusal :=
  withCtx s fun x =>
    if !fenceOk t c m then raiseIllegal s x
    else if inEpisode x then scalarDone s x x.g
    else if fenceStill s x t c m then drainWait s x (fenceDrains s x c.toNat m)
    else scalarDone s x { hear s.fresh (setFence x x.g none) with
      fences := fenceMarks x.g.fences s.fresh x.g.spc.toNat (t != 0 && decide (c.toNat ≤ 1)) c.toNat }

/-- Whether a count is above its limit; 15 is no limit. -/
def above (limit : BitVec 4) (n : Nat) : Bool := limit != 15 && decide (limit.toNat < n)

/-- Whether one of the counts a `wait` names is above its limit. -/
def countsAbove (s : State) (x : Ctx) (t c st l : BitVec 4) : Bool :=
  let k := getCore s x.core
  above l (countOps k x.gi false) || above st (countOps k x.gi true) || above c (countCopies s x.team x.gi) ||
    above t (countTile s x.team x.gi)

/-- Waits until the group's counts of loads, stores, copies and tile operations are at or below their limits. `t` tile
operations, `c` copies, `st` stores, `l` loads. R267; under Schuss R253. -/
def execWaitCounts (t c st l : BitVec 4) (s : State) : Host.Outcome State Fault Refusal :=
  withCtx s fun x =>
    if inEpisode x then scalarDone s x x.g
    else if countsAbove s x t c st l then drainUpTo (scalarWait s x .counts) x.core s.fresh none
    else scalarDone s x x.g

/-- A watch entry for a group: a free one, or that of the watch armed earliest. None when none may give way (R268). -/
def watchRoom (s : State) (c part : Nat) : Option State :=
  let ws := (getCore s c).watches
  if ws.length < 8 then some s
  else match minOf? ((ws.filter (·.armed)).map (·.since)) with
    | none => none
    | some t => match ws.find? fun w => w.armed && w.since == t with
      | some w => some (giveUpWatch (endWatch s c w.group) c part w.line)
      | none => none

/-- Arms a watch, the word having its expected value; the group blocks. -/
def armWatch (s : State) (x : Ctx) (line off va : Nat) (expect : Word) (data : Line) (armed : Bool) : State :=
  let w : Watch := { line := line, group := x.gi, armed := armed, since := s.now, off := off, expect := expect, data := data, va := va }
  let s1 := modCore s x.core fun k => { k with watches := k.watches ++ [w] }
  scalarWait s1 x (.waitln line s.now)

/-- `waitln`: reads a word; when it has the expected value, watches its line until another party writes it. R268. -/
def waitLine (s : State) (d a : BitVec 6) (i : BitVec 14) : Host.Outcome State Fault Refusal :=
  scalarMem s (pairReg a) [a.toNat, a.toNat + 1, d.toNat] fun x =>
    let adr := globalAddr (pairAddr x.g a.toNat) (i.toInt * 4)
    let blocked := x.g.state == .blocked && (match x.g.wait with | .waitln .. => true | _ => false)
    if blocked then s
    else match accessFault s x false adr 4 false with
      | some code => raise s x { code := code, addr := adr }
      | none =>
        let h := hpaOf s x adr
        let line := lineBase h
        let k := getCore s x.core
        let off := h % 128
        let expect := rdS x.g d.toNat
        let have_ := fun (s : State) (v : Line) =>
          if BitVec.ofNat 32 (lineField v off 4) ≠ expect then scalarDone s x x.g
          else match watchRoom s x.core x.team.part with
            | none => scalarDone s x x.g
            | some s1 => armWatch s1 x line off adr expect v true
        let moving := pageMoving (getPart s x.team.part) x.grid.pasid (adr / 4096)
        let behind := (l1Find k line).isNone && reqHeld s x.core x.team x.gi s.fresh line x.g.fences.last false
        if moving || behind || (missFor k line).isSome || (headAcc k line).isSome then scalarWait s x .operand
        else match l1Find k line with
          | some l => have_ s l.data
          | none =>
            match dieSupplier s x.core line with
            | some q => match l1Find (getCore s q) line with
              | some l => have_ (modCore s q fun k => l1Set k { l with state := supplied l.state }) l.data
              | none => s
            | none =>
              match watchRoom s x.core x.team.part with
              | none => scalarDone s x x.g
              | some s1 =>
                let s2 := armWatch (touchPage s1 x adr) x line off adr expect 0 false
                sendReq s2 x.core (lineMsg .homeRead line x.team.part (.core x.core) none) (.watch x.gi) 0 adr false

/-- WAITLN. R268. -/
def execWaitln (d a : BitVec 6) (i : BitVec 14) (s : State) : Host.Outcome State Fault Refusal := waitLine s d a i

/-- WAITLN under the major of version 1. R54, R268. -/
def execWaitlnV1 (d a : BitVec 6) (i : BitVec 14) (s : State) : Host.Outcome State Fault Refusal := waitLine s d a i

/-- Blocks the group for max(n, 1) cycles of its core. R269. (DESIGN CHOICE, log 4.) -/
def pauseFor (s : State) (n : BitVec 16) : Host.Outcome State Fault Refusal :=
  withCtx s fun x =>
    if inEpisode x then stopEpisode s x
    else match x.g.wait with
    | .pause u => if u ≤ s.now then scalarDone s x x.g else s
    | _ => scalarWait s x (.pause (s.now + (if n = 0 then 1 else n.toNat) * coreDiv s x.core))

/-- PAUSE. R269. -/
def execPause (n : BitVec 16) (s : State) : Host.Outcome State Fault Refusal := pauseFor s n

/-- PAUSE under the major of versions 1 and 2. R54, R269. -/
def execPauseV1v2 (n : BitVec 16) (s : State) : Host.Outcome State Fault Refusal := pauseFor s n

/-! ## Steps that end waits -/

/-- A PAUSE has lasted its cycles. R269. -/
def execPauseExpiry (core group : Nat) (s : State) : Host.Outcome State Fault Refusal :=
  match groupOf s core group with
  | some g => match g.wait with
    | .pause u =>
      if g.state = .blocked ∧ u ≤ s.now ∧ coreStopped s core = false then .next (setGroup s core group (completeScalar s.now g)) else .next s
    | _ => .next s
  | none => .next s

/-- 20 µs (100,000 link cycles) have passed since a `waitln` blocked: it completes. R268. -/
def execWaitlnTimeout (core group : Nat) (s : State) : Host.Outcome State Fault Refusal :=
  match groupOf s core group, teamOf s core with
  | some g, some t => match g.wait with
    | .waitln line since =>
      if g.state = .blocked ∧ since + 100000 ≤ s.now ∧ coreStopped s core = false then
        let armed := armedWatch (getCore s core) line
        let s1 := endWatch s core group
        .next (if armed then giveUpWatch s1 core t.part line else s1)
      else .next s
    | _ => .next s
  | _, _ => .next s

/-- A load outstanding for 400 cycles is judged long. R336. -/
def execLoadJudgedLong (core op : Nat) (s : State) : Host.Outcome State Fault Refusal :=
  match opOf (getCore s core) op with
  | some o =>
    if coreStopped s core = false ∧ o.sem = false ∧ (o.kind = .ld ∨ o.kind = .ldver ∨ o.kind = .ll) ∧
        o.issued + 400 * coreDiv s core ≤ s.now then
      .next (modCore s core fun k => { k with ops := k.ops.map fun q => if q.id = op then { q with long := true } else q })
    else .next s
  | none => .next s

/-- A value into the path's mask is outstanding no longer. -/
def paidMask (o : PendOp) (l : LaneState) : LaneState := { l with maskOwed := l.maskOwed && !writesMask o }

/-- A value written to a group's destination, and to the checkpoint of an episode, which the value outlives (R337 - R339). -/
def deliverValue (g : Group) (o : PendOp) (val : Nat → Nat) : Group :=
  let g1 := writeDest g o val
  { g1 with
    lane := paidMask o g1.lane,
    episode := g1.episode.map fun e =>
      let c := e.saved
      let q := writeDest { g with sregs := c.sregs, vregs := c.vregs, preds := c.preds, lane := c.lane } o val
      { e with saved := { c with sregs := q.sregs, vregs := q.vregs, lane := paidMask o q.lane } } }

/-- The payload of a versioned tile as `ld.ver` reads it: all at once, under a stable version word, once no line of it is in
motion, its pages have their translations and no access of the core to it is still to be made (R198, R264, R371). The version word is the access of thread 96. -/
def verValues (s : State) (part pasid : Nat) (k : Core) (o : PendOp) : Option (List Access) :=
  let mine := k.accs.filter fun a => a.op == o.id
  let still := mine.all fun a => lineQuiet s part (lineBase a.hpa) && !pageMoving (getPart s part) pasid (a.va / 4096) &&
    !(k.accs.any fun b => b.op != o.id && b.state != .done && lineBase b.hpa == lineBase a.hpa)
  let odd := mine.any fun a => a.thread == 96 && readPhysLE s part a.hpa 8 % 2 == 1
  if !still || odd then none
  else some (mine.map fun a => { a with value := BitVec.ofNat 128 (readPhysLE s part a.hpa a.size) })

/-- The slices see the lines that `ld.ver` reads and the core's L1 does not hold, each pulled first from a page in migration (R190,
R371). -/
def touchRead (s : State) (c part : Nat) (l : List Access) : State :=
  let lines := ((l.map fun a => lineBase a.hpa).foldl addNew []).filter fun n => (l1Find (getCore s c) n).isNone
  lines.foldl (fun s n => touchSlice (pullLine s part n) part 0 (coreRegion c) false n) s

/-- A blocked scalar stream whose operand may have come is Ready again (Table 2-3). -/
def wakeOperand (g : Group) : Group :=
  if g.state = .blocked ∧ g.wait = .operand then { g with state := .ready, wait := .none } else g

/-- The last value of an operation returns: its destination is written, an episode that waited on it ends, and what waited on
it may go on. A path whose mask the value empties ends (R298). R256, R262, R264, R267, R339. -/
def execLoadValueReturn (core op : Nat) (s : State) : Host.Outcome State Fault Refusal :=
  match opOf (getCore s core) op, teamOf s core with
  | some o, some t =>
    if coreStopped s core ∨ o.kind = .st ∨ o.kind = .seminc ∨ !opDone (getCore s core) op then .next s
    else
      let s0 := if o.kind = .ldver then
          ((gridOf s t.part t.grid).bind fun g => verValues s t.part g.pasid (getCore s core) o).map fun l =>
            modCore (touchRead s core t.part l) core fun k => { k with accs := (k.accs.filter fun a => a.op != op) ++ l }
        else some s
      match s0 with
      | none => .next s
      | some s1 =>
        let k := getCore s1 core
        let waited := match groupOf s1 core o.group with
          | some g => (match g.episode with | some e => e.op == op | none => false)
          | none => false
        let s2 := if waited then endEpisode s1 core o.group true else s1
        let s3 := modGroup s2 core o.group fun g =>
          let g1 := hearIf (o.kind == .ldver) s.fresh (wakeOperand (deliverValue g o fun th => extendW o.width o.sext (opValue k o th)))
          if writesMask o && !g1.lane.suspended then settleLane s.now g1 else g1
        .next (dropOp s3 core o)
  | _, _ => .next s

end Sys2Proof.Machine
end

