-- ==== Sys2Proof/Machine/Coll.lean ====
section
/-! DEFINITION. Collectives (R279 - R282) and messages between cores (R283 - R289). -/

namespace Sys2Proof.Machine

open Sys2Proof

/-! ## Collectives: issue -/

/-- The cores a 1,024-byte mask image names. -/
def maskCores (bs : List Byte) : List Nat := (List.range 8192).filter fun c => bit (bs.getD (c / 8) 0).toNat (c % 8)

/-- A `coll`: the descriptor's and the mask's checks in R271's order, and the contribution stands. The checks of a mask that is outside
the leases, or cannot be read, are left out; an output of one participant at least is checked before it. A 5th waits. R279, R280.
R271's test for overlap speaks of copies: none is made of an `.agath`'s buffer and output. (DEDUCED, log 27; DESIGN CHOICE, log 52.) -/
def collIssue (s : State) (op : CollOp) (type : Nat) (d a : BitVec 6) : Host.Outcome State Fault Refusal :=
  asyncCmd s (semPairOk d && decide (type ≤ 3)) (semRegs d ++ [a.toNat]) fun x =>
    let sa := (rdS x.g a.toNat).toNat
    let w := fun (o n : Nat) => scratchRead x.team (sa + o) n
    let mask := w 0 8
    let buf := w 0x08 4
    let out := w 0x0C 4
    let len := w 0x10 4
    let root := w 0x14 4
    let sem := semOf x d
    let bad := decide (2 ^ 57 ≤ mask) || mask % 64 != 0 || buf % 16 != 0 || out % 16 != 0 || (op != .agath && out != 0) ||
      len % 16 != 0 || decide (len < 16) || decide (65536 < len) || (op != .bcast && root != 0) || decide (8192 ≤ root) || w 0x1C 4 != 0
    let fail := fun (code adr : Nat) => raise s x { code := code, addr := adr, desc := BitVec.ofNat 32 sa }
    let outs := fun (n : Nat) => if op = .agath then [(out, len * n)] else []
    let maskOk := leaseOk x.grid mask 1024 false
    let checks := fun (cores : Option (List Nat)) => [
      ifFault (sa % 32 != 0 || sa / 2 ^ 18 != 0 || bad) 0x0D,
      ifFault (match cores with | some l => !l.contains x.core || (op == .bcast && !l.contains root) | none => false) 0x0D,
      asFault 0x05 (semMisaligned sem),
      asFault 0x06 (pastLocal x ([(sa, 32), (buf, len)] ++ outs (match cores with | some l => l.length | none => 1))),
      asFault 0x20 (outOfLease x ((mask, 1024, false) :: semRange sem))]
    let report := fun (q : Nat × Nat) => fail q.1 q.2
    if 4 ≤ x.team.colls.length then scalarWait s x .queue
    else match ifFault (sa % 32 != 0 || sa / 2 ^ 18 != 0 || bad) 0x0D, reachOf s x.team.part x.grid.pasid mask 1024, maskOk with
      | some q, _, _ => report q
      | none, .busy, true => scalarWait s x .operand
      | none, .ready, true =>
        let r := readV s x.team.part x.grid.pasid 1 (coreRegion x.core) mask 1024
        let cores := maskCores r.2
        match firstFault (checks (some cores)) with
        | some q => report q
        | none =>
          let c : Coll := {
            id := w 0x18 4, op := op, type := type, cores := cores, core := x.core, team := x.team.index, grid := x.grid.seq,
            buf := buf, out := out, len := len, root := root, desc := sa, sem := sem, group := x.gi, pc := x.g.spc, after := s.fresh }
          modTeam (scalarDone r.1 x x.g) x.core fun t => { t with colls := t.colls ++ [c] }
      | none, f, _ => match firstFault (checks none), f with
        | some q, _ => report q
        | none, .fault code adr => fail code adr
        | none, _ => s

/-- A sum over the participants, to every buffer. R281. -/
def execCollRadd (d a : BitVec 6) (t : BitVec 3) (s : State) : Host.Outcome State Fault Refusal := collIssue s .radd t.toNat d a

/-- The root's buffer, to every buffer. R281. -/
def execCollBcast (d a : BitVec 6) (s : State) : Host.Outcome State Fault Refusal := collIssue s .bcast 0 d a

/-- Every buffer, to every output. R281. -/
def execCollAgath (d a : BitVec 6) (s : State) : Host.Outcome State Fault Refusal := collIssue s .agath 0 d a

/-! ## Collectives: meeting -/

/-- The scratch ranges a contribution reads and writes. -/
def collRanges (c : Coll) : List (Bool × Nat × Nat) :=
  (true, c.buf, c.len) :: if c.op = .agath then [(true, c.out, c.len * c.cores.length)] else []

/-- Whether an earlier collective of the same group reads or writes a byte that a contribution does: the later one meets after it, since
accesses of one party on one path to a byte keep program order (R205). (DEDUCED, log 27.) -/
def collBehind (t : Team) (c : Coll) : Bool :=
  (t.colls.takeWhile (· != c)).any fun q => q.group == c.group && rangesHit (collRanges q) (collRanges c)

/-- The contribution of a core to the collective with an identifier and a participant list. -/
def contribution (s : State) (part id : Nat) (cores : List Nat) (c : Nat) : Option (Team × Coll) :=
  match teamOf s c with
  | some t =>
    if t.part = part ∧ (t.state = .resident ∨ t.state = .draining) then
      (t.colls.find? fun q => q.id == id && q.cores == cores && !collBehind t q).map fun q => (t, q)
    else none
  | none => none

/-- Whether a contribution reads an uncorrectable word: of a broadcast the root's alone is read (R411). (DEDUCED, log 35.) -/
def collBad (q : Nat × Team × Coll) : Bool := (q.2.2.op != .bcast || q.1 == q.2.2.root) && badScratch q.2.1 q.2.2.buf q.2.2.len

/-- A contribution that reads an uncorrectable word is given up: it writes nothing and signals nothing, and what waits for it waits on
(R411). (DEDUCED, log 35.) -/
def dropColl (s : State) (core : Nat) (c : Coll) : State :=
  modTeam (asyncFail s core c.group c.after c.pc) core fun t => { t with colls := t.colls.erase c }

/-- The sum of two elements of a collective's type. -/
def collAdd (type a b : Nat) : Nat :=
  match type with
  | 0 => (addBits .f32 .rne a b).1
  | 1 => (addBits .bf16 .rne a b).1
  | 2 => (addBits .f16 .rne a b).1
  | _ => (a + b) % 2 ^ 32

def collWidth (type : Nat) : Nat := match type with | 1 => 2 | 2 => 2 | _ => 4

def addBuffers (type : Nat) (a b : List Byte) : List Byte :=
  let w := collWidth type
  (List.range (a.length / w)).flatMap fun i =>
    toBytes w (collAdd type (ofBytes ((a.drop (w * i)).take w)) (ofBytes ((b.drop (w * i)).take w)))

/-- What a collective writes in each participant: address and bytes. -/
def collResult (l : List (Nat × Team × Coll)) (c : Coll) : Nat × List Byte :=
  let bufs := l.map fun q => readBytes q.2.1.scratch q.2.2.buf q.2.2.len
  match c.op with
  | .radd => (c.buf, match bufs with | [] => [] | b :: r => r.foldl (addBuffers c.type) b)
  | .bcast => (c.buf, match l.find? fun q => q.1 == c.root with
      | some q => readBytes q.2.1.scratch q.2.2.buf q.2.2.len
      | none => [])
  | .agath => (c.out, bufs.flatten)

/-- Two contributions are to one collective: the same operation, type, length and root (DEDUCED, log 27). -/
def sameColl (a b : Coll) : Bool := a.op == b.op && a.type == b.type && a.len == b.len && a.root == b.root

/-- A participant's result is written; its contribution ends with its signal. -/
def collDeliver (s : State) (l : List (Nat × Team × Coll)) (q : Nat × Team × Coll) : State :=
  let r := collResult l q.2.2
  let s1 := modTeam (putScratch s q.1 r.1 r.2) q.1 fun t => { t with colls := t.colls.erase q.2.2 }
  let c := q.2.2
  let o : Origin := { core := q.1, group := c.group, team := c.team, grid := c.grid, pc := c.pc, desc := BitVec.ofNat 32 c.desc, after := c.after }
  match c.sem with
  | some a => signal s1 q.2.1.part o a 1
  | none => s1

/-- Contributions that differ: every participant records the fault, and the tasks end. R280. -/
def collMismatch (s : State) (part : Nat) (l : List (Nat × Team × Coll)) : State :=
  let gs := l.map fun q => (q, gridOf s part q.2.1.grid)
  let s1 := gs.foldl (fun s p => match p.2 with
    | some g =>
      let c := p.1.2.2
      addRecord s { code := 0x24, ends := true, core := p.1.1, group := c.group, region := coreRegion p.1.1, team := c.team,
                    grid := c.grid, pc := c.pc, desc := BitVec.ofNat 32 c.desc, pasid := g.pasid, part := part,
                    dc := dayclock s (coreRegion p.1.1) }
    | none => s) s
  let tasks := (gs.filterMap fun p => p.2.map (·.task)).foldl addNew []
  tasks.foldl (fun s t => endTask s part t) s1

/-- The collective whose identifier is `coll` meets once every participant has issued. R280, R281. (DEDUCED, log 27.) -/
def execCollectiveMeet (part coll : Nat) (s : State) : Host.Outcome State Fault Refusal :=
  let mine := (mvals s.cores).flatMap fun k => match k.team with
    | some t => if t.part = part then t.colls.filter fun c => c.id == coll else []
    | none => []
  let lists := (mine.map (·.cores)).foldl addNew []
  let met := if (getPart s part).stopped then Option.none else lists.find? fun cs => cs.all fun c => (contribution s part coll cs c).isSome
  match met with
  | none => .next s
  | some cs =>
    let l := cs.filterMap fun c => (contribution s part coll cs c).map fun q => (c, q.1, q.2)
    match l with
    | [] => .next s
    | q :: _ =>
      if l.any collBad then .next ((l.filter collBad).foldl (fun s r => dropColl s r.1 r.2.2) s)
      else if l.all fun r => sameColl q.2.2 r.2.2 then .next (l.foldl (fun s r => collDeliver s l r) s)
      else .next (collMismatch s part l)

/-! ## Messages: sending (R283) -/

/-- Whether a collective of the group that has not met reads or writes a byte of a payload: the send waits for it, since accesses of one
party on one path to a byte keep program order (R205). A posted receive holds back nothing: R286 says when it is served.
(DEDUCED, log 27.) -/
def payloadBusy (x : Ctx) (a n : Nat) : Bool :=
  x.team.colls.any fun q => issuedBy x.team x.gi q.group q.after && rangesHit [(true, a, n)] (collRanges q)

/-- A message leaves for another core, after every earlier L-path access, as a release at sys scope (R289). -/
def execSend (d a b : BitVec 6) (l : BitVec 8) (s : State) : Host.Outcome State Fault Refusal :=
  asyncCmd s (semPairOk d) (semRegs d ++ [a.toNat, b.toNat]) fun x =>
    let sa := (rdS x.g a.toNat).toNat
    let sb := (rdS x.g b.toNat).toNat
    let len := l.toNat + 1
    let dst := fld sb 0 13
    let sem := semOf x d
    let checks := [
      ifFault (sa % 16 != 0) 0x05,
      (if sa / 2 ^ 18 ≠ 0 ∨ localLimit x.team < sa + len then some (0x06, sa) else none),
      ifFault (fld sb 13 3 != 0 || partOfCore s dst != some x.team.part) 0x10,
      asFault 0x05 (semMisaligned sem),
      asFault 0x20 (outOfLease x (semRange sem))]
    match firstFault checks with
    | some (code, adr) => raise s x { code := code, addr := adr }
    | none => if payloadBusy x sa len then scalarWait s x .scoreboard else withRelease s x 2 5 fun g =>
      let m : Message := {
        id := s.fresh, src := x.core, dst := dst, tag := fld sb 16 16, payload := readBytes x.team.scratch sa len, sem := sem,
        part := x.team.part, task := x.grid.task, grid := x.grid.seq, team := x.team.index, group := x.gi, pc := x.g.spc,
        ready := s.now }
      let s1 := scalarDone s x g
      { bumpFresh s1 with msgs := s1.msgs ++ [m] }

/-! ## Messages: receiving (R284 - R288) -/

/-- Whether a match word takes a message. -/
def msgMatch (pat src tag : Nat) : Bool := (bit pat 13 || fld pat 0 13 == src) && (bit pat 14 || fld pat 16 16 == tag)

/-- The header of a delivery (R285). -/
def msgHeader (src len tag : Nat) : List Byte := toBytes 4 (src + (len - 1) * 2 ^ 13) ++ toBytes 4 tag ++ toBytes 8 0

/-- The address of an overflow entry (R287). -/
def queueAddr (t : Team) (k : Nat) : Nat := localLimit t + 272 * k

/-- A receive takes a message: header and payload in its buffer, then its signal. -/
def deliver (s : State) (core : Nat) (t : Team) (r : Recv) (src tag : Nat) (payload : List Byte) : State :=
  let s1 := putScratch s core r.buf (msgHeader src payload.length tag ++ payload)
  let o : Origin := { core := core, group := r.group, team := t.index, grid := t.grid, pc := r.pc, after := r.after }
  match r.sem with
  | some a => signal s1 t.part o a 1
  | none => s1

/-- Posts a receive; the oldest queued message that matches is delivered at once. A 17th waits, once its checks are made: R284 does not
order the two. R284, R286. (DEDUCED, log 27; DESIGN CHOICE, log 52.) -/
def execRecvpost (d a b : BitVec 6) (s : State) : Host.Outcome State Fault Refusal :=
  asyncCmd s (semPairOk d) (semRegs d ++ [a.toNat, b.toNat]) fun x =>
    let sa := (rdS x.g a.toNat).toNat
    let pat := rdS x.g b.toNat
    let sem := semOf x d
    let t := x.team
    let checks := [
      ifFault (sa % 16 != 0) 0x05,
      (if sa / 2 ^ 18 ≠ 0 ∨ localLimit t < sa + 272 then some (0x06, sa) else none),
      asFault 0x05 (semMisaligned sem)]
    match firstFault checks with
    | some (code, adr) => raise s x { code := code, addr := adr }
    | none =>
      if 16 ≤ t.recvs.length then scalarWait s x .queue
      else
        let r : Recv := { sem := sem, buf := sa, pat := pat, group := x.gi, pc := x.g.spc, after := s.fresh }
        let s1 := scalarDone s x x.g
        match t.qmsgs.find? fun q => msgMatch pat.toNat q.src q.tag with
        | some q =>
          let s2 := deliver s1 x.core t r q.src q.tag (readBytes t.scratch (queueAddr t q.slot + 16) q.len)
          modTeam s2 x.core fun t => { t with qmsgs := t.qmsgs.erase q, overflowed := false }
        | none => modTeam s1 x.core fun t => { t with recvs := t.recvs ++ [r] }

/-- The oldest queued message that matches, without removing it. R288. -/
def execRecvtst (d b : BitVec 6) (s : State) : Host.Outcome State Fault Refusal :=
  asyncCmd s (pairReg d) [d.toNat, d.toNat + 1, b.toNat] fun x =>
    let v := match x.team.qmsgs.find? fun q => msgMatch (rdS x.g b.toNat).toNat q.src q.tag with
      | some q => (BitVec.ofNat 32 (q.src + (q.len - 1) * 2 ^ 13 + q.slot * 2 ^ 21), BitVec.ofNat 32 q.tag)
      | none => (0xFFFFFFFF#32, 0)
    scalarDone s x (wrS (wrS x.g d.toNat v.1) (d.toNat + 1) v.2)

/-! ## Messages: arriving (R286, R287, R289) -/

/-- Two messages have one sender: the same team, wherever it stood when it sent them (R220, R286). (DEDUCED, log 27.) -/
def sameSender (a b : Message) : Bool := a.part == b.part && a.grid == b.grid && a.team == b.team

/-- Whether message i may arrive: its partition is not stopped, and none earlier of the same sender to the same core stands before it (R286). -/
def msgFirst (s : State) (i : Nat) (m : Message) : Bool :=
  !(getPart s m.part).stopped && !((s.msgs.take i).any fun q => sameSender q m && q.dst == m.dst)

/-- The team that may receive a message: one of the sender's task, on the destination core, where it stays until it is Saved (R48, R289).
(DEDUCED, log 27.) -/
def receiver (s : State) (m : Message) : Option Team :=
  match teamOf s m.dst with
  | some t =>
    match gridOf s t.part t.grid with
    | some g => if t.part = m.part ∧ g.task = m.task ∧ (t.state = .resident ∨ t.state = .draining ∨ t.state = .saving) then some t else none
    | none => none
  | none => none

/-- The message is placed: it leaves, and the send completes with its signal (R283). -/
def msgDone (s : State) (i : Nat) (m : Message) : State :=
  let s1 := { s with msgs := s.msgs.eraseIdx i }
  let o : Origin := { core := m.src, group := m.group, team := m.team, grid := m.grid, pc := m.pc, after := 0 }
  match m.sem with
  | some a => signal s1 m.part o a 1
  | none => s1

def setMsg (s : State) (i : Nat) (m : Message) : State := { s with msgs := s.msgs.set i m }

/-- A message at its destination: taken by a posted receive, queued, or refused. -/
def arrive (s : State) (i : Nat) (m : Message) : State :=
  match receiver s m with
  | none => setMsg s i { m with refused := some (m.refused.getD s.now) }
  | some t =>
    match t.recvs.find? fun r => msgMatch r.pat.toNat m.src m.tag with
    | some r =>
      let s1 := deliver s m.dst t r m.src m.tag m.payload
      msgDone (modTeam s1 m.dst fun t => { t with recvs := t.recvs.erase r }) i m
    | none =>
      match (List.range 32).find? fun k => !(t.qmsgs.any fun q => q.slot == k) with
      | some k =>
        let s1 := putScratch s m.dst (queueAddr t k) (msgHeader m.src m.payload.length m.tag ++ m.payload)
        msgDone (modTeam s1 m.dst fun t => { t with
          qmsgs := t.qmsgs ++ [{ slot := k, src := m.src, len := m.payload.length, tag := m.tag }] }) i m
      | none =>
        let s1 := setMsg s i { m with refused := none }
        if t.overflowed then s1
        else
          let s2 := addRecord s1 {
            code := 0x32, core := m.dst, region := coreRegion m.dst, team := t.index, grid := t.grid,
            aux := BitVec.ofNat 32 m.src, pasid := (match gridOf s t.part t.grid with | some g => g.pasid | none => 0),
            part := t.part, dc := dayclock s (coreRegion m.dst) }
          modTeam s2 m.dst fun t => { t with overflowed := true }

/-- A message reaches its destination core. R286. -/
def execMessageArrival (idx : Nat) (s : State) : Host.Outcome State Fault Refusal :=
  match s.msgs[idx]? with
  | some m => .next (if msgFirst s idx m && m.refused.isNone then unlessFull s (arrive s idx m) m.part else s)
  | none => .next s

/-- The sender tries a refused message again. R287, R289. -/
def execMessageRetry (idx : Nat) (s : State) : Host.Outcome State Fault Refusal :=
  match s.msgs[idx]? with
  | some m => .next (if msgFirst s idx m && m.refused.isSome then unlessFull s (arrive s idx m) m.part else s)
  | none => .next s

/-- A message refused for 100 µs (500,000 link cycles) for want of a receiving team is dropped with a record. R289.
(DEDUCED, log 27.) -/
def execMessageDrop (idx : Nat) (s : State) : Host.Outcome State Fault Refusal :=
  match s.msgs[idx]? with
  | some m =>
    let due := match m.refused with | some t => decide (t + 500000 ≤ s.now) | none => false
    if msgFirst s idx m && due && (receiver s m).isNone then
      let pasid := match gridOf s m.part m.grid with | some g => g.pasid | none => 0
      .next (unlessFull s (addRecord { s with msgs := s.msgs.eraseIdx idx } {
        code := 0x33, core := m.src, group := m.group, region := coreRegion m.src, team := m.team, grid := m.grid, pc := m.pc,
        pasid := pasid, part := m.part, dc := dayclock s (coreRegion m.src) }) m.part)
    else .next s
  | none => .next s

end Sys2Proof.Machine
end

