-- ==== Sys2Proof/Machine/Control.lean ====
section
/-! DEFINITION. Scalar control: branches, calls, jumps, starting and joining the lane stream, masks, EXIT and YIELD (R28, R29,
R39, R292 - R294, R301, R333, R395). -/

namespace Sys2Proof.Machine

open Sys2Proof

/-- A branch's target: its own scalar PC plus 4 times the signed offset. -/
def branchTarget (g : Group) (o : BitVec 20) : Word := g.spc + (o.signExtend 32 <<< 2)

/-- A conditional branch (Table 13-1). Under Schuss an invalid test falls through (R301). -/
def condBranch (s : State) (a : BitVec 6) (o : BitVec 20) (taken : Word → Bool) : Host.Outcome State Fault Refusal :=
  withCtx s fun x =>
    if waitsS s x [a.toNat] then scalarWait s x .operand
    else if taken (rdS x.g a.toNat) && !invS x a.toNat then scalarJump s x x.g (branchTarget x.g o)
    else scalarDone s x x.g

/-- Taken when sa = 0. R292. -/
def execBeqz (a : BitVec 6) (o : BitVec 20) (s : State) : Host.Outcome State Fault Refusal := condBranch s a o fun v => v == 0

/-- Taken when sa is not 0. R292. -/
def execBnez (a : BitVec 6) (o : BitVec 20) (s : State) : Host.Outcome State Fault Refusal := condBranch s a o fun v => v != 0

/-- Taken when sa is negative. R292. -/
def execBltz (a : BitVec 6) (o : BitVec 20) (s : State) : Host.Outcome State Fault Refusal := condBranch s a o fun v => v.msb

/-- Taken when sa is not negative. R292. -/
def execBgez (a : BitVec 6) (o : BitVec 20) (s : State) : Host.Outcome State Fault Refusal := condBranch s a o fun v => !v.msb

/-- Always taken. R292. -/
def execBr (o : BitVec 20) (s : State) : Host.Outcome State Fault Refusal :=
  withCtx s fun x => scalarJump s x x.g (branchTarget x.g o)

/-- Always taken, the link in sa. R292. -/
def execCall (a : BitVec 6) (o : BitVec 20) (s : State) : Host.Outcome State Fault Refusal :=
  withCtx s fun x =>
    if !linkOk a then raiseIllegal s x
    else if waitsS s x [a.toNat] then scalarWait s x .operand
    else scalarJump s x (markS x (wrS x.g a.toNat (x.g.spc + 4)) a.toNat false) (branchTarget x.g o)

/-- A jump to sa plus an immediate, the link in sd; sa is read first. An invalid sa ends an episode. R293, R301. -/
def execJmpr (d a : BitVec 6) (i : BitVec 14) (s : State) : Host.Outcome State Fault Refusal :=
  withCtx s fun x =>
    if !linkOk d then raiseIllegal s x
    else if waitsS s x [a.toNat, d.toNat] then scalarWait s x .operand
    else if invS x a.toNat then stopEpisode s x
    else scalarJump s x (markS x (wrS x.g d.toNat (x.g.spc + 4)) d.toNat false) (rdS x.g a.toNat + i.signExtend 32)

/-! ## The lane stream (R28, R29, R294) -/

/-- A new view is taken and the lane stream starts at a lane word; with an empty mask it ends at once (R294, R297). -/
def startLane (now : Nat) (g : Group) (pc : Nat) : Group :=
  let l : LaneState := { running := true, started := true, lpc := pc, view := g.sregs }
  timerG now (settle 40 { g with lane := l })

/-- Whether loads into scalar registers, and loads into the lane view, are outstanding. -/
def scalarLoads (s : State) (x : Ctx) : Bool := (getCore s x.core).ops.any fun o => o.group == x.gi && !(destS o.dest).isEmpty
def viewLoads (s : State) (x : Ctx) : Bool := (getCore s x.core).ops.any fun o => o.group == x.gi && !(destView o.dest).isEmpty

/-- Starts the lane stream at a lane word. It waits for earlier scalar loads and for a running lane stream, whose copy-back it
then makes. R28, R29, R294; in handler mode R395; under Schuss R301. After a lane stream that has ended with no `ljoin` since, of which
R29 and R132 do not speak, it makes the copy-back and the merge of FPS too. (DESIGN CHOICE, log 52.) -/
def execLgo (o : BitVec 20) (s : State) : Host.Outcome State Fault Refusal :=
  withCtx s fun x =>
    if x.g.trap.h then raiseIllegal s x
    else if inEpisode x then stopEpisode s x
    else if scalarLoads s x then scalarWait s x .operand
    else if x.g.lane.running then scalarWait s x .lend
    else if x.g.lane.started && viewLoads s x then scalarWait s x .lend
    else scalarDone s x (startLane s.now (if x.g.lane.started then copyBack x.g else x.g) o.toNat)

/-- Waits for LEND, then for loads into the registers it writes, and copies back. R28, R104, R294, R395. -/
def execLjoin (s : State) : Host.Outcome State Fault Refusal :=
  withCtx s fun x =>
    if x.g.trap.h then raiseIllegal s x
    else if inEpisode x then stopEpisode s x
    else if !x.g.lane.started then scalarDone s x x.g
    else if x.g.lane.running || viewLoads s x then scalarWait s x .lend
    else if waitsS s x (joinRegs x.g) then scalarWait s x .operand
    else scalarDone s x (copyBack x.g)

/-- The activity mask written whole; each word is ANDed with the live mask (R25). -/
def writeMask (x : Ctx) (m : Mask) : Group :=
  let put := fun (g : Group) (k : Nat) => markS x (wrS g (61 + k) (m.extractLsb' (32 * k) 32)) (61 + k) false
  put (put (put x.g 0) 1) 2

/-- The mask becomes the live mask. R294. -/
def execMskLive (s : State) : Host.Outcome State Fault Refusal :=
  withCtx s fun x =>
    if waitsS s x [61, 62, 63] then scalarWait s x .operand else scalarDone s x (writeMask x x.g.live)

/-- Threads 0 to n - 1 become active. R294. -/
def execMskN (n : BitVec 16) (s : State) : Host.Outcome State Fault Refusal :=
  withCtx s fun x =>
    if 96 < n.toNat then raiseIllegal s x
    else if waitsS s x [61, 62, 63] then scalarWait s x .operand
    else scalarDone s x (writeMask x (maskLow n.toNat))

/-! ## EXIT and YIELD (R36, R39, R294) -/

/-- The group's slot is freed: its windows return to the pool and it counts as arrived at every barrier (R34, R326).
(DEDUCED, log 23.) -/
def freeSlot (s : State) (c g : Nat) : State :=
  let s1 := modTeam s c fun t => releaseBars { t with groups := mdel t.groups g, xacq := mdel t.xacq g }
  noonArrive (serveWindows s1 c) c

/-- The last group enters Exiting: the team drains, its windows return, and its spawn bins launch as though their timers had
expired (R39, R47, R48). -/
def enterExiting (s : State) (c g : Nat) : State :=
  let leave := fun (v : Group) => { v with state := .exiting, wait := .retire, windows := 0, lane := {} }
  let s1 := modGroup s c g leave
  let s2 := modTeam s1 c fun t => releaseBars { t with
    state := .draining, bins := mmap (fun b => { b with expired := true }) t.bins }
  noonArrive (serveWindows s2 c) c

/-- Ends the group. It waits for LEND, then for its loads and stores; the team's last group then blocks until the team can
retire. In handler mode a suspended lane stream is abandoned. R29, R39, R294, R395. -/
def execExitScalar (s : State) : Host.Outcome State Fault Refusal :=
  withCtx s fun x =>
    if inEpisode x then stopEpisode s x
    else if x.g.lane.running && !x.g.lane.suspended then scalarWait s x .lend
    else if (getCore s x.core).ops.any (fun o => o.group == x.gi) then
      drainUpTo (scalarWait s x .operand) x.core s.fresh none
    else if (x.team.groups.any fun q => q.1 != x.gi) then freeSlot s x.core x.gi
    else enterExiting s x.core x.gi

/-- The group becomes the youngest. It is no issue for the boost of R307. R333. -/
def execYield (s : State) : Host.Outcome State Fault Refusal :=
  withCtx s fun x =>
    putG s x { x.g with spc := x.g.spc + 4, age := if inEpisode x then x.g.age else s.now, state := .issuing, wait := .none }

end Sys2Proof.Machine
end

