-- ==== Sys2Proof/Machine/Host.lean ====
section
/-! DEFINITION. The host's accesses to device memory, host lines and their snoops (R186, R221, R244), and the tiles shared with
other panels (R245 - R247). -/

namespace Sys2Proof.Machine

open Sys2Proof

def send (s : State) (r : Reply) : State := { s with outbox := s.outbox ++ [r] }

/-! ## The host (R244) -/

/-- The partition whose host port a port is. -/
def partOfPort (s : State) (port : Nat) : Option Nat :=
  (s.parts.find? fun q => q.2.active && decide (port < 8) && bit (hpMask q.2) port).map (·.1)

/-- The region of a host port. -/
def portRegion (port : Nat) : Nat := regionOfSite (hostPortSite port)

/-- The partition of a host access to `n` bytes of device memory, once every line of it is quiet. -/
def hostReach (s : State) (port hpa n : Nat) : Option Nat :=
  match partOfPort s port with
  | none => none
  | some p =>
    let v := getPart s p
    if (linesOf hpa n).all (fun l => (inNear v l || inFar v l) && lineQuiet s p l) then some p else none

/-- A read is steered to a holder of a line, which keeps it: M turns O and E turns S (Table 10-2); no other state changes. -/
def supplyOne (s : State) (part line : Nat) : State :=
  let up := fun (q : Nat × Core) => match q.2.team with
    | some t =>
      let give := fun (l : L1Line) => if l.line = line then { l with state := supplied l.state } else l
      if t.part = part then (q.1, { q.2 with l1 := q.2.l1.map give }) else q
    | none => q
  { s with cores := s.cores.map up,
           proxies := s.proxies.map fun q => if q.line = line then { q with state := supplied q.state } else q }

/-- A CXL.mem read of device memory, an access of class 3: steered to a holder if the line has a tree, served from storage
otherwise; it grafts nothing. R190, R244. -/
def execHostCxlMemRead (port hpa size : Nat) (s : State) : Host.Outcome State Fault Refusal :=
  match hostReach s port hpa size with
  | none => .next s
  | some p =>
    let s1 := (linesOf hpa size).foldl (fun s l => supplyOne (touchSlice (pullLine s p l) p 3 (portRegion port) false l) p l) s
    .next (send s1 (.data (readPhys s p hpa size)))

/-- A CXL.mem write of device memory: a write from I whose grant creates no entries. R244. -/
def execHostCxlMemWrite (port hpa : Nat) (bytes : List Byte) (s : State) : Host.Outcome State Fault Refusal :=
  match hostReach s port hpa bytes.length with
  | none => .next s
  | some p =>
    let s1 := (linesOf hpa bytes.length).foldl (fun s l => touchSlice s p 3 (portRegion port) true l) s
    .next (writePhys s1 p hpa bytes)

/-- A host snoop: in every partition the line's tree is torn down with no keep port, and the line returns to the host. R244. -/
def execHostSnoop (line : Nat) (s : State) : Host.Outcome State Fault Refusal :=
  let l := lineBase line
  let ps := (mkeys s.parts).filter fun p => tierOf s p l == some 2
  if ps.all fun p => lineQuiet s p l then
    let s1 := ps.foldl (fun s p => collapseLine s p l) s
    let s2 := { s1 with hostLines := s1.hostLines.filter fun q => q.1 / 64 != l }
    .next (send s2 (.data (toBytes 128 (lineOf s2.mem l).toNat)))
  else .next s

/-- Whether the host may give a line to a partition's anchor: another partition's anchor holds it shared at most, and only for
a shared answer. (DEDUCED, log 45.) -/
def hostMayGive (s : State) (part line : Nat) (own : Bool) : Bool :=
  s.hostLines.all fun q => q.1 / 64 != line || q.1 % 64 == part || (!own && !q.2)

/-- Whether the device holds nothing of a host line. (DEDUCED, log 45.) -/
def hostClear (s : State) (line : Nat) : Bool :=
  s.hostLines.all (fun q => q.1 / 64 != line) && (mkeys s.parts).all fun p => tierOf s p line == some 2 && lineQuiet s p line &&
    !(s.cores.any fun q => coreHolds q.2 line)

/-- The host answers the lowest-numbered partition's request for a line: with the line, owned when the anchor asked for that.
`data`: what the host's memory holds, where no copy of it is in the device; the host may write its own memory so at any time
while the device holds nothing of the line (log 9). R244. (DESIGN CHOICE, log 9; DEDUCED, log 45.) -/
def execHostLineResponse (line : Nat) (data : Option Line) (s : State) : Host.Outcome State Fault Refusal :=
  let l := lineBase line
  let s1 := match data with
    | some d => if hostClear s l then { s with mem := writeLE s.mem l 128 d.toNat } else s
    | none => s
  match s.hostReqs.find? fun q => q.1 / 64 == l with
  | none => .next s1
  | some (key, own) =>
    if hostMayGive s (key % 64) l own then
      .next { s1 with hostReqs := mdel s1.hostReqs key, hostLines := mput s1.hostLines key own }
    else .next s1

/-! ## Other panels (R245 - R247) -/

/-- A request from a remote panel for a 2 KiB tile of this partition's memory enters at its link's router. R247. -/
def execRemotePanelRequest (part link tile : Nat) (excl : Bool) (s : State) : Host.Outcome State Fault Refusal :=
  let v := getPart s part
  let mine := (tileLines tile).all fun l => inNear v l || inFar v l
  let busy := s.outstanding.any fun o => o.msg.req == .link link && o.msg.line / 2048 == tile
  if !v.active || v.stopped || !bit (lnkMask v) link || decide (32 ≤ link) || !mine || busy then .next s
  else .next (linkNext s link part tile excl)

/-- A remote panel recalls a tile that this partition holds: the trees of its 16 lines are torn down, and the tile answers with
them. R246. -/
def execRemotePanelRecall (part tile : Nat) (s : State) : Host.Outcome State Fault Refusal :=
  let ls := tileLines tile
  if (mget? s.tiles tile).isSome && (apOf (getPart s part) (2048 * tile)).isSome && ls.all (fun l => lineQuiet s part l) then
    let s1 := ls.foldl (fun s l => collapseLine s part l) s
    let s2 := { s1 with tiles := mdel s1.tiles tile }
    .next (send s2 (.data (ls.flatMap fun l => toBytes 128 (storedLine s2 part l).toNat)))
  else .next s

/-- The lines of a tile as the other panel gives them. -/
def storeTile (s : State) (part tile : Nat) (lines : List Line) : State :=
  ((tileLines tile).zip lines).foldl (fun s q => storeLine s part q.1 q.2) s

/-- A tile comes from its panel: a tile of an aperture is held in S or X from now on, its contents stored where it was not held;
for a tile of this partition that a link holds in M, the lines are what the other panel has written there (log 9). R246.
(DESIGN CHOICE, log 9.) -/
def execRemoteTileResponse (part tile : Nat) (excl : Bool) (lines : List Line) (s : State) : Host.Outcome State Fault Refusal :=
  if lines.length ≠ 16 then .next s
  else if (apOf (getPart s part) (2048 * tile)).isSome then
    match mget? s.tileReqs tile with
    | none => .next s
    | some want =>
      let s1 := if (mget? s.tiles tile).isNone then storeTile s part tile lines else s
      let held := if excl then TileState.x else .s
      .next { s1 with tiles := mput s1.tiles tile held, tileReqs := if excl || !want then mdel s1.tileReqs tile else s1.tileReqs }
  else
    let up := fun (q : Proxy) => match q.req with
      | .link _ => if q.line / 2048 = tile ∧ q.state = .m then { q with data := lines.getD (q.line / 128 % 16) 0 } else q
      | _ => q
    .next { s with proxies := s.proxies.map up }

end Sys2Proof.Machine
end

