-- ==== Sys2Proof/Machine/Matrix.lean ====
section
/-! DEFINITION. The matrix engine (spec/07): issue of MMA, MLB, MDRAIN and ACCCPY with its checks, the start of a command with
the step limit and the slaving of a follower, and its progress chunk by chunk, column by column or row by row. -/

namespace Sys2Proof.Machine

open Sys2Proof

/-! ## Formats (R164 - R166) -/

def matWidth (code : Nat) : Nat := [8, 8, 8, 8, 16, 16, 32, 4].getD code 8
def matChunk (code : Nat) : Nat := [64, 64, 64, 64, 32, 32, 8, 128].getD code 8
def matClass (code : Nat) : Nat := [1, 1, 2, 2, 3, 4, 6, 5].getD code 0
def blockLen (code : Nat) : Nat := 16 * 2 ^ code

/-- Bytes that n elements of a format take. -/
def matBytes (code n : Nat) : Nat := ceilDiv (n * matWidth code) 8

/-- Whether Table 7-4 gives a pair of formats to DCC emulation. (DEDUCED, log 28.) -/
def matEmulated (fa fb : Nat) : Bool :=
  2 ≤ fa && 2 ≤ fb && fa != fb && !(fa ≤ 3 && fb ≤ 3)

/-- The format block of Table 7-5. -/
structure FmtBlock where
  fa : Nat
  fb : Nat
  la : Nat
  lb : Nat
  stride : Nat
  scaleA : Nat
  strideA : Nat
  scaleB : Nat
  deriving DecidableEq, Repr

def blockField (b : List Byte) (o n : Nat) : Nat := ofBytes ((b.drop o).take n)

def fmtBlock (b : List Byte) : FmtBlock where
  fa := blockField b 0 1
  fb := blockField b 1 1
  la := fld (blockField b 2 1) 0 2
  lb := fld (blockField b 2 1) 2 2
  stride := blockField b 4 4
  scaleA := blockField b 8 4
  strideA := blockField b 12 4
  scaleB := blockField b 16 4

/-- The first part of R160 step 2: codes, reserved bits, block lengths, the class check and the pairs of Table 7-4. The fields
of an operand that is not 4-bit are ignored (R166). -/
def fmtBad (b : List Byte) (c : Nat) (emulation : Bool) : Bool :=
  let f := fmtBlock b
  decide (7 < f.fa) || decide (7 < f.fb) || blockField b 2 2 / 16 != 0 || decide (2 ^ 18 ≤ f.stride) ||
    blockField b 20 12 != 0 || f.la == 3 || f.lb == 3 || (f.fa != 7 && f.la != 0) || (f.fb != 7 && f.lb != 0) ||
    (f.fa == 7 && (decide (2 ^ 18 ≤ f.scaleA) || decide (2 ^ 18 ≤ f.strideA))) || (f.fb == 7 && decide (2 ^ 15 ≤ f.scaleB)) ||
    (c != 0 && (matClass f.fa != c || matClass f.fb != c)) || decide (f.fa < 2) != decide (f.fb < 2) ||
    (matEmulated f.fa f.fb && !emulation)

/-! ## Fields of the shape registers (R168, R171 - R173) -/

def mmaM (sb : Nat) : Nat := fld sb 0 6 + 1
def mmaKc (sb : Nat) : Nat := fld sb 6 9 + 1
def mmaBoff (sb : Nat) : Nat := fld sb 16 15
def mlbLen (sb : Nat) : Nat := 32 * (fld sb 0 10 + 1)
def mlbBoff (sb : Nat) : Nat := 32 * fld sb 10 10
def mlbStride (sb : Nat) : Nat := 64 * fld sb 20 12
def rowFirst (sb : Nat) : Nat := fld sb 0 6
def rowCount (sb : Nat) : Nat := fld sb 6 6 + 1
def accStride (sb : Nat) : Nat := fld sb 12 18

/-- Columns a command covers, and bytes of a tile row in scratch. -/
def matCols (pair : Bool) : Nat := if pair then 128 else 64

/-- The output's element size in bytes, 0 for the 4-bit output; none for an undefined format. (DEDUCED, log 28.) -/
def drainSize (of_ : Nat) : Option Nat :=
  match of_ with
  | 0 => some 4 | 1 => some 2 | 2 => some 2 | 3 => some 1 | 4 => some 1 | 5 => some 1 | 6 => some 4 | 10 => some 1
  | 12 => some 0
  | _ => none

def residualSize (r : Nat) : Nat := match r with | 0 => 0 | 1 => 4 | _ => 2

/-- The drain block with the fields of its shape register (Tables 7-6, 7-7). -/
structure Drain where
  first : Nat
  rows : Nat
  fmt : Nat
  size : Nat
  res : Nat
  dropout : Bool
  outLocal : Bool
  resLocal : Bool
  len : Nat
  type : Nat
  out : Nat
  resAt : Nat
  scaleAt : Nat
  key : BitVec 64
  outStride : Nat
  resStride : Nat
  alpha : Word
  keep : Word
  threshold : Nat
  step : Nat
  row0 : Nat
  col0 : Nat
  deriving DecidableEq, Repr

def drainOf (sb : Nat) (b : List Byte) : Drain where
  first := rowFirst sb
  rows := rowCount sb
  fmt := fld sb 12 4
  size := (drainSize (fld sb 12 4)).getD 0
  res := fld sb 16 2
  dropout := bit sb 18
  outLocal := bit sb 19
  resLocal := bit sb 20
  len := blockLen (fld sb 21 2)
  type := fld sb 23 2
  out := blockField b 0x00 8
  resAt := blockField b 0x08 8
  scaleAt := blockField b 0x10 8
  key := BitVec.ofNat 64 (blockField b 0x18 8)
  outStride := blockField b 0x20 4
  resStride := blockField b 0x24 4
  alpha := BitVec.ofNat 32 (blockField b 0x28 4)
  keep := BitVec.ofNat 32 (blockField b 0x2C 4)
  threshold := blockField b 0x30 4
  step := blockField b 0x34 4
  row0 := blockField b 0x38 4
  col0 := blockField b 0x3C 4

/-- Bytes of one row of output, of its scales, and of residual, over `cols` columns. -/
def outRow (d : Drain) (cols : Nat) : Nat := if d.fmt = 12 then cols / 2 else cols * d.size
def scaleRow (d : Drain) (cols : Nat) : Nat := if d.fmt = 12 then cols / d.len else 0
def resRow (d : Drain) (cols : Nat) : Nat := cols * residualSize d.res

/-! ## Issue (R157 - R163) -/

/-- What the four commands share before the checks of R160: the encoding, the tile, the issuer and the queue's room.
A full queue is waited for before any check of R160. (DEDUCED, log 28.) -/
def matIssue (s : State) (legal : Bool) (tile : Option Nat) (regs : List Nat) (f : Ctx → State) :
    Host.Outcome State Fault Refusal :=
  withCtx s fun x =>
    let tileOver := match tile with | some t => decide (x.team.tilesN ≤ t) | none => false
    if !legal then raiseIllegal s x
    else if tileOver then raise s x { code := 0x03 }
    else if inEpisode x then stopEpisode s x
    else if waitsS s x regs || acqPending x then scalarWait s x .operand
    else if hearWaits s x then drainUpTo (scalarWait s x .fence) x.core x.g.heard none
    else if leaderOf x.team ≠ some x.gi then raise s x { code := 0x08 }
    else if 8 ≤ x.team.queue.length then scalarWait s x .queue
    else f x

/-- R155: on an even core, whose neighbour holds a Resident team of the grid that claims the tile. -/
def pairReady (s : State) (x : Ctx) (tile : Option Nat) : Bool :=
  x.core % 2 == 0 &&
    match teamOf s (pairOf x.core) with
    | some t => t.part == x.team.part && t.grid == x.team.grid && t.state == .resident &&
        (match tile with | some n => decide (n < t.tilesN) | none => true)
    | none => false

/-- A command queued, once its checks pass; the first `.pair` command makes partners (R155). -/
def matQueue (s : State) (x : Ctx) (checks : List (Option (Nat × Nat))) (c : MatCmd) : State :=
  match firstFault checks with
  | some (code, adr) => raise s x { code := code, addr := adr }
  | none =>
    let s1 := modTeam (scalarDone s x x.g) x.core fun t => { t with queue := t.queue ++ [c] }
    if c.pair then
      let other := (teamOf s (pairOf x.core)).map (·.index)
      modTeam (modTeam s1 x.core fun t => { t with partner := t.partner.or other }) (pairOf x.core)
        fun t => { t with partner := t.partner.or (some x.team.index) }
    else s1

/-- A matrix multiply-accumulate; a format block past the usable scratch is read as the scratch map gives it before the range check.
R164 - R169. (DEDUCED, log 28.) -/
def execMma (d a b : BitVec 6) (k : BitVec 3) (z p : BitVec 1) (t : BitVec 3) (s : State) :
    Host.Outcome State Fault Refusal :=
  matIssue s (matOk d a true && k != 7) (some t.toNat) (semRegs d ++ [a.toNat, a.toNat + 1, b.toNat]) fun x =>
    let base := (rdS x.g a.toNat).toNat
    let blk := (rdS x.g (a.toNat + 1)).toNat
    let sb := (rdS x.g b.toNat).toNat
    let bytes := readBytes x.team.scratch blk 32
    let f := fmtBlock bytes
    let chunk := if matChunk f.fa ≤ matChunk f.fb then matChunk f.fa else matChunk f.fb
    let K := mmaKc sb * chunk
    let sem := semOf x d
    let bad := base / 2 ^ 18 != 0 || blk / 2 ^ 18 != 0 || base % 16 != 0 || blk % 32 != 0 || bit sb 15 || bit sb 31 ||
      mmaBoff sb % 32 != 0
    let bad2 := f.stride % 16 != 0 || (f.fa == 7 && (f.strideA % 16 != 0 || K % blockLen f.la != 0)) ||
      (f.fb == 7 && K % blockLen f.lb != 0)
    let rows := mmaM sb - 1
    let local_ := [(base, rows * f.stride + matBytes f.fa K), (blk, 32)] ++
      (if f.fa = 7 then [(f.scaleA, rows * f.strideA + K / blockLen f.la)] else [])
    let overB := decide (32768 < mmaBoff sb + matBytes f.fb K) || (f.fb == 7 && decide (32768 < f.scaleB + K / blockLen f.lb))
    matQueue s x [
      ifFault bad 0x09,
      asFault 0x05 (semMisaligned sem),
      ifFault (fmtBad bytes k.toNat (s.featEn.getLsbD 4)) 0x0A,
      ifFault bad2 0x09,
      asFault 0x06 (pastLocal x local_),
      ifFault overB 0x0B,
      ifFault (p == 1 && !pairReady s x (some t.toNat)) 0x0C,
      asFault 0x20 (outOfLease x (semRange sem))]
      { kind := .mma, pair := p == 1, tile := t.toNat, z := z == 1, int := decide (f.fa < 2), loc := false, sem := sem,
        group := x.gi, pc := x.g.spc, addr := base, shape := rdS x.g b.toNat, block := bytes, emul := matEmulated f.fa f.fb, after := s.fresh }

/-- Loads columns of B into the B-store. R171. -/
def execMlb (d a b : BitVec 6) (l p : BitVec 1) (s : State) : Host.Outcome State Fault Refusal :=
  matIssue s (matOk d a (l == 0)) none (semRegs d ++ (if l = 1 then [a.toNat] else [a.toNat, a.toNat + 1]) ++ [b.toNat]) fun x =>
    let sa := (rdS x.g a.toNat).toNat
    let src := if l = 1 then sa else pairAddr x.g a.toNat
    let sb := (rdS x.g b.toNat).toNat
    let sem := semOf x d
    let cols := matCols (p == 1)
    let bad := (l == 1 && sa / 2 ^ 18 != 0) || src % 32 != 0
    let ranges := (List.range cols).map fun j => (src + j * mlbStride sb, mlbLen sb)
    matQueue s x [
      ifFault bad 0x09,
      asFault 0x05 (semMisaligned sem),
      asFault 0x06 (if l = 1 then pastLocal x ranges else none),
      ifFault (decide (32768 < mlbBoff sb + mlbLen sb)) 0x0B,
      ifFault (p == 1 && !pairReady s x none) 0x0C,
      asFault 0x20 (outOfLease x ((if l = 1 then [] else ranges.map fun r => (r.1, r.2, false)) ++ semRange sem))]
      { kind := .mlb, pair := p == 1, tile := 0, z := false, int := false, loc := l == 1, sem := sem, group := x.gi,
        pc := x.g.spc, addr := src, shape := rdS x.g b.toNat, block := [], emul := false, after := s.fresh }

/-- Writes rows of a tile to memory, scaled and converted; an address of the drain block above its space is no legal operand.
R173 - R176. (DEDUCED, log 28.) -/
def execMdrain (d a b : BitVec 6) (z i p : BitVec 1) (t : BitVec 3) (s : State) : Host.Outcome State Fault Refusal :=
  matIssue s (matOk d a false) (some t.toNat) (semRegs d ++ [a.toNat, b.toNat]) fun x =>
    let blk := (rdS x.g a.toNat).toNat
    let sb := (rdS x.g b.toNat).toNat
    let bytes := readBytes x.team.scratch blk 64
    let r := drainOf sb bytes
    let sem := semOf x d
    let cols := matCols (p == 1)
    let q4 := r.fmt == 12
    let far := fun (adr : Nat) (isLocal : Bool) => decide ((if isLocal then 2 ^ 18 else 2 ^ 57) ≤ adr)
    let al := if q4 then 16 else r.size
    let rs := residualSize r.res
    let bad := blk / 2 ^ 18 != 0 || blk % 64 != 0 || fld sb 25 7 != 0 || decide (64 < r.first + r.rows)
    let badFmt := (drainSize r.fmt).isNone || fld sb 21 2 == 3 || (!q4 && fld sb 21 4 != 0)
    let bad2 := far r.out r.outLocal || r.out % al != 0 || r.outStride % al != 0 ||
      (if r.res = 0 then r.resAt != 0 else far r.resAt r.resLocal || r.resAt % rs != 0 || r.resStride % rs != 0) ||
      (if q4 then far r.scaleAt r.outLocal || r.scaleAt % 16 != 0 else r.scaleAt != 0)
    let rows := List.range r.rows
    let outs := (rows.map fun k => (r.out + k * r.outStride, outRow r cols)) ++
      (if q4 then rows.map fun k => (r.scaleAt + k * scaleRow r cols, scaleRow r cols) else [])
    let ress := if r.res = 0 then [] else rows.map fun k => (r.resAt + k * r.resStride, resRow r cols)
    let local_ := [(blk, 64)] ++ (if r.outLocal then outs else []) ++ (if r.resLocal then ress else [])
    let global := (if r.outLocal then [] else outs.map fun q => (q.1, q.2, true)) ++
      (if r.resLocal then [] else ress.map fun q => (q.1, q.2, false))
    matQueue s x [
      ifFault bad 0x09,
      asFault 0x05 (semMisaligned sem),
      ifFault badFmt 0x0A,
      ifFault bad2 0x09,
      asFault 0x06 (pastLocal x local_),
      ifFault (p == 1 && !pairReady s x (some t.toNat)) 0x0C,
      asFault 0x20 (outOfLease x (global ++ semRange sem))]
      { kind := .mdrain, pair := p == 1, tile := t.toNat, z := z == 1, int := i == 1, loc := false, sem := sem, group := x.gi,
        pc := x.g.spc, addr := blk, shape := rdS x.g b.toNat, block := bytes, emul := false, after := s.fresh }

/-- Both directions of ACCCPY. R172. -/
def accIssue (s : State) (k : MatKind) (d a b : BitVec 6) (p : BitVec 1) (t : BitVec 3) : Host.Outcome State Fault Refusal :=
  matIssue s (matOk d a false) (some t.toNat) (semRegs d ++ [a.toNat, b.toNat]) fun x =>
    let sa := (rdS x.g a.toNat).toNat
    let sb := (rdS x.g b.toNat).toNat
    let sem := semOf x d
    let width := 4 * matCols (p == 1)
    let bad := sa / 2 ^ 18 != 0 || sa % 16 != 0 || fld sb 30 2 != 0 || accStride sb % 16 != 0 ||
      decide (accStride sb < width) || decide (64 < rowFirst sb + rowCount sb)
    matQueue s x [
      ifFault bad 0x09,
      asFault 0x05 (semMisaligned sem),
      asFault 0x06 (pastLocal x [(sa, (rowCount sb - 1) * accStride sb + width)]),
      ifFault (p == 1 && !pairReady s x (some t.toNat)) 0x0C,
      asFault 0x20 (outOfLease x (semRange sem))]
      { kind := k, pair := p == 1, tile := t.toNat, z := false, int := false, loc := true, sem := sem, group := x.gi,
        pc := x.g.spc, addr := sa, shape := rdS x.g b.toNat, block := [], emul := false, after := s.fresh }

/-- Copies rows of a tile to scratch. R172. -/
def execAcccpySt (d a b : BitVec 6) (p : BitVec 1) (t : BitVec 3) (s : State) : Host.Outcome State Fault Refusal :=
  accIssue s .acccpySt d a b p t

/-- Copies rows of a tile from scratch. R172. -/
def execAcccpyLd (d a b : BitVec 6) (p : BitVec 1) (t : BitVec 3) (s : State) : Host.Outcome State Fault Refusal :=
  accIssue s .acccpyLd d a b p t

/-! ## Start (R156, R161, R344, R346, R358) -/

/-- The command at the head of a core's queue while it runs. -/
def runningCmd (s : State) (core : Nat) : Option MatCmd :=
  (teamOf s core).bind fun t => t.queue.head?.filter (·.running)

/-- Whether the core's array executes its partner's `.pair` command (R156, R177). -/
def slaved (s : State) (core : Nat) : Bool :=
  core % 2 == 1 && (match runningCmd s (pairOf core) with | some c => c.pair | none => false)

/-- Whether the partner's `.pair` command is ready to run: it goes first (R156). (DEDUCED, log 28.) -/
def pairFirst (s : State) (core : Nat) : Bool :=
  core % 2 == 1 &&
    match teamOf s (pairOf core) with
    | some t => activeTeam t && (match t.queue.head? with | some c => c.pair && !c.running && !c.withheld | none => false)
    | none => false

/-- Amperes of one array that executes a command (R344): only an MMA in the arrays is charged (R358). -/
def arrayAmps (c : MatCmd) : Nat := if c.kind = .mma ∧ c.emul = false then 2 else 0

/-- Amperes a start charges (R344); only an MMA in the arrays is charged (R358). -/
def startAmps (c : MatCmd) : Nat := if c.pair then 2 * arrayAmps c else arrayAmps c

/-- STEPLIM of a region. -/
def stepLim (s : State) (region : Nat) : Nat := fld (getRegion s region).pwrcfg.toNat 0 12

/-- Whether the head of a core's queue can start now. (DEDUCED, log 28.) -/
def canStart (s : State) (core : Nat) : Bool :=
  !coreStopped s core && (getDie s (dieOf core)).reset.isNone && !slaved s core && !pairFirst s core &&
    match teamOf s core with
    | some t => activeTeam t &&
        (match t.queue.head? with
        | some c => !c.running && (!c.pair || ((runningCmd s (pairOf core)).isNone &&
            (match teamOf s (pairOf core) with | some t2 => activeTeam t2 | none => false)))
        | none => false)
    | none => false

/-- Whether a core of the partition in the same region with a lower number has a start that the step limit withholds and that could
start otherwise: starts are admitted in ascending core number (R344, Table 17-5). -/
def lowerWithheld (s : State) (core part : Nat) : Bool :=
  s.cores.any fun q => decide (q.1 < core) && coreRegion q.1 == coreRegion core &&
    (match q.2.team with
      | some t => t.part == part && (match t.queue.head? with | some c => c.withheld && startAmps c != 0 | none => false)
      | none => false) && canStart s q.1

/-- Whether a start fits in the current step of the partition in the core's region. A droop withholds every MMA; only one in the
arrays is charged (R344, R346, R358). (DEDUCED, log 28.) -/
def startFits (s : State) (core part : Nat) (c : MatCmd) : Bool :=
  let r := getRegion s (coreRegion core)
  c.kind != .mma ||
    (!r.droop && (stepLim s (coreRegion core) == 0 || startAmps c == 0 ||
      (decide (startAmps c ≤ (mget {} r.power part).startsLeft) && !lowerWithheld s core part)))

/-- The head of a core's queue changed. -/
def modHead (s : State) (core : Nat) (f : MatCmd → MatCmd) : State :=
  modTeam s core fun t => { t with queue := match t.queue with | c :: r => f c :: r | [] => [] }

/-- The arrays that execute a command count in the current step, each once (R344). (DEDUCED, log 37.) -/
def countArrays (s : State) (core : Nat) (c : MatCmd) : State :=
  (if c.pair then [core, pairOf core] else [core]).foldl
    (fun s n => modCore s n fun k => { k with stepAmps := max k.stepAmps (arrayAmps c) }) s

/-- The head command starts, charged at once, or is withheld; STEP shows that the step limit itself withholds it (R344, R351). -/
def startCommand (s : State) (core part : Nat) (c : MatCmd) : State :=
  let region := coreRegion core
  let limited := stepLim s region != 0 && startAmps c != 0
  if startFits s core part c then
    let s1 := countArrays (modHead s core fun c => { c with running := true, withheld := false }) core c
    if limited then
      modRegion s1 region fun r => { r with power := mmod {} r.power part fun p => { p with startsLeft := p.startsLeft - startAmps c } }
    else s1
  else
    let s1 := modHead s core fun c => { c with withheld := true }
    if limited && decide ((mget {} (getRegion s region).power part).startsLeft < startAmps c) then
      modRegion s1 region fun r => { r with power := mmod {} r.power part fun p => { p with bound := true } }
    else s1

/-- The oldest command of a core's queue starts, or is withheld until a step boundary lets it start. R156, R161, R344, R358. -/
def execMatrixCommandStart (core : Nat) (s : State) : Host.Outcome State Fault Refusal :=
  match teamOf s core with
  | some t =>
    match t.queue.head? with
    | some c => .next (if canStart s core && !c.withheld then startCommand s core t.part c else s)
    | none => .next s
  | none => .next s

/-! ## One chunk of an MMA (R97 - R100, R168, R169) -/

/-- Element k of an array of a format at `base`, with nibbles as R82. -/
def matElem (m : List Host.Cell) (base code k : Nat) : Nat :=
  if code = 7 then fld (readByte m (base + k / 2)).toNat (4 * (k % 2)) 4
  else readLE m (base + k * (matWidth code / 8)) (matWidth code / 8)

/-- The exact value of an element; `scale` is the scale byte of its block (R98). -/
def matVal (code bits scale : Nat) : FVal :=
  match code with
  | 0 => ofInt (toSigned 8 bits)
  | 1 => ofInt bits
  | 2 => decodeF .e4m3 bits
  | 3 => decodeF .e5m2 bits
  | 4 => decodeF .bf16 bits
  | 5 => decodeF .f16 bits
  | 6 => decodeF .f32 bits
  | _ => q4Decode bits scale

def isInf (v : FVal) : Bool := match v with | .inf _ => true | _ => false

/-- The exact sum of the products of a chunk (R98, R99). -/
def exactSum (l : List FVal) : FVal :=
  if l.any FVal.isNan then .nan
  else if l.contains (.inf true) && l.contains (.inf false) then .nan
  else match l.find? isInf with
    | some v => v
    | none =>
      let e := l.foldl (fun e v => if v.exp < e then v.exp else e) 0
      let i := l.foldl (fun acc v => acc + v.scaled e) (0 : Int)
      if i = 0 then .fin (l.all fun v => v.isZero && v.neg) 0 0 else dyadic false i e

/-- The products of chunk `c` of row i of A (in the leader's scratch) and one column of B (in a slice). -/
def chunkProducts (scratch bst : List Host.Cell) (f : FmtBlock) (base boff slice c i : Nat) : List FVal :=
  let chunk := if matChunk f.fa ≤ matChunk f.fb then matChunk f.fa else matChunk f.fb
  let row := base + i * f.stride
  let col := 32768 * slice
  (List.range chunk).map fun n =>
    let k := c * chunk + n
    let sa := (readByte scratch (f.scaleA + i * f.strideA + k / blockLen f.la)).toNat
    let sb := (readByte bst (col + f.scaleB + k / blockLen f.lb)).toNat
    (mulV (matVal f.fa (matElem scratch row f.fa k) sa) (matVal f.fb (matElem bst (col + boff) f.fb k) sb)).1

/-- The FP32 update of an accumulator element (R98). -/
def accF (acc : Word) (s : FVal) : Word := rne32 (addV .rne (f32 acc) (f32 (rne32 s))).1

/-- The INT32 update, and whether the true sum left the range (R100). -/
def accI (acc : Word) (s : FVal) : Word × Bool :=
  let sum := acc.toInt + (toIntV .rne s).1
  (BitVec.ofInt 32 sum, decide (sum < -2 ^ 31 ∨ 2 ^ 31 ≤ sum))

def tileKey (tile row col : Nat) : Nat := 4096 * tile + 64 * row + col

/-- Tiles and OVF of one core after chunk `c` of an MMA. -/
def mmaChunk (q : MatCmd) (scratch bst : List Host.Cell) (c : Nat) (tiles : SMap Word) (ovf : BitVec 8) : SMap Word × BitVec 8 :=
  let sb := q.shape.toNat
  let f := fmtBlock q.block
  let fresh := q.z && c == 0
  let ovf0 := if fresh then ovf &&& ~~~(1#8 <<< q.tile) else ovf
  (List.range (mmaM sb)).foldl (fun acc i => (List.range 64).foldl (fun acc j =>
    let key := tileKey q.tile i j
    let old := if fresh then 0 else mget 0 acc.1 key
    let sum := exactSum (chunkProducts scratch bst f q.addr (mmaBoff sb) j c i)
    if q.int then
      let r := accI old sum
      (mput acc.1 key r.1, if r.2 then acc.2 ||| (1#8 <<< q.tile) else acc.2)
    else (mput acc.1 key (accF old sum), acc.2)) acc) (tiles, ovf0)

/-- The cores that serve a command: the leader's, and the follower's for columns 64 to 127. -/
def matCores (core : Nat) (q : MatCmd) : List Nat := if q.pair then [core, pairOf core] else [core]

def mmaStep (s : State) (core : Nat) (t : Team) (q : MatCmd) (c : Nat) : State :=
  (matCores core q).foldl (fun s k =>
    let bst := (getCore s k).bstore
    modTeam s k fun v =>
      let r := mmaChunk q t.scratch bst c v.tiles v.ovf
      { v with tiles := r.1, ovf := r.2, bad := if q.z && c == 0 then v.bad.filter fun b => !inRows q b else v.bad }) s
where
  inRows (q : MatCmd) (b : BadWord) : Bool :=
    match b with | .tile n i => n == q.tile && decide (i < 64 * mmaM q.shape.toNat) | _ => false

/-! ## One row of a drain (R174, R175) -/

/-- t of R174 for one element. -/
def drainValue (d : Drain) (int : Bool) (word : Word) (res : Option FVal) (i j : Nat) : Word :=
  let a := if int then ofInt word.toInt else f32 word
  let t := rne32 (mulV (f32 d.alpha) a).1
  let t1 := match res with | some r => rne32 (addV .rne (f32 t) r).1 | none => t
  if d.dropout then
    if (vesper d.key (vcounter d.step (d.row0 + i) (d.col0 + j))).toNat < d.threshold then 0
    else rne32 (mulV (f32 t1) (f32 d.keep)).1
  else t1

/-- One converted element; not for the 4-bit output. -/
def drainConvert (fmt : Nat) (t : Word) : Nat :=
  match fmt with
  | 0 => (roundF .f32 .rne false (f32 t)).1
  | 1 => (roundF .f16 .rne false (f32 t)).1
  | 2 => (roundF .bf16 .rne false (f32 t)).1
  | 3 => (roundF .e4m3 .rne false (f32 t)).1
  | 4 => (roundF .e5m2 .rne false (f32 t)).1
  | 5 => (roundF .e5m2 .rne true (f32 t)).1
  | 6 => ofSigned 32 (cvtInt .rne (-2 ^ 31) (2 ^ 31 - 1) (f32 t)).1
  | _ => ofSigned 8 (cvtInt .rne (-128) 127 (f32 t)).1

def FVal.abs : FVal → FVal | .nan => .nan | .inf _ => .inf false | .fin _ m e => .fin false m e

/-- A block of 4-bit output: its codes and its scale byte (R96, R148, R175). -/
def drainBlock (type : Nat) (l : List Word) : List Nat × Nat :=
  let vs := l.map f32
  if vs.any FVal.isNan then (vs.map fun _ => 0, 64 * type + 63)
  else
    let amax := vs.foldl (fun m v => if ltV m v.abs then v.abs else m) (.fin false 0 0)
    let e := qscaleE amax type
    (vs.map fun v => (q4Encode v type e).1, 64 * type + e)

/-- Two codes to a byte, the lower index in the low nibble (R82). -/
def packNibbles : List Nat → List Byte
  | a :: b :: r => BitVec.ofNat 8 (a + 16 * b) :: packNibbles r
  | [a] => [BitVec.ofNat 8 a]
  | [] => []

/-- Output and scale bytes of one row of converted values. -/
def drainBytes (d : Drain) (row : List Word) : List Byte × List Byte :=
  if d.fmt = 12 then
    let bs := (List.range (row.length / d.len)).map fun b => drainBlock d.type ((row.drop (b * d.len)).take d.len)
    (packNibbles (bs.flatMap (·.1)), bs.map fun b => BitVec.ofNat 8 b.2)
  else (row.flatMap fun t => toBytes d.size (drainConvert d.fmt t), [])

/-- A residual element (R174). -/
def residualAt (d : Drain) (bs : List Byte) (j : Nat) : Option FVal :=
  let n := residualSize d.res
  let v := ofBytes ((bs.drop (j * n)).take n)
  match d.res with
  | 0 => none
  | 1 => some (decodeF .f32 v)
  | 2 => some (decodeF .bf16 v)
  | _ => some (decodeF .f16 v)

/-- Uncorrectable words of rows lo to hi - 1 of a tile (R411; word 64 row + column), and the list after these rows are written. -/
def inTile (tile lo hi : Nat) (b : BadWord) : Bool :=
  match b with | .tile n i => n == tile && decide (64 * lo ≤ i) && decide (i < 64 * hi) | _ => false
def mendTile (l : List BadWord) (tile lo hi : Nat) : List BadWord := l.filter fun b => !inTile tile lo hi b

/-- A row of a tile across both halves of a pair. -/
def tileRow (s : State) (core : Nat) (q : MatCmd) (i : Nat) : List Word :=
  (matCores core q).flatMap fun k => match teamOf s k with
    | some t => tab 64 fun j => mget 0 t.tiles (tileKey q.tile i j)
    | none => []

def putTileRow (s : State) (core : Nat) (q : MatCmd) (i : Nat) (row : List Word) : State :=
  (List.range (matCores core q).length).foldl (fun s h =>
    modTeam s (if h = 0 then core else pairOf core) fun t => { t with
      tiles := (List.range 64).foldl (fun m j => mput m (tileKey q.tile i j) (row.getD (64 * h + j) 0)) t.tiles,
      bad := mendTile t.bad q.tile i (i + 1) }) s

/-! ## Progress (R161, R163, R170 - R180) -/

inductive MatStep where
  | done (s : State)
  | busy
  | fault (code addr : Nat)

/-- The pieces of a command: chunks, columns or rows. -/
def matUnits (q : MatCmd) : Nat :=
  match q.kind with
  | .mma => mmaKc q.shape.toNat
  | .mlb => matCols q.pair
  | _ => rowCount q.shape.toNat

/-- One column of B. -/
def mlbStep (s : State) (core : Nat) (t : Team) (pasid : Nat) (q : MatCmd) (j : Nat) : MatStep :=
  let sb := q.shape.toNat
  let a := q.addr + j * mlbStride sb
  let n := mlbLen sb
  let dst := 32768 * (j % 64) + mlbBoff sb
  let target := if j < 64 then core else pairOf core
  if q.loc then .done (putBstore s target dst (scratchBytes s core a n))
  else match reachOf s t.part pasid a n with
    | .fault code e => .fault code e
    | .busy => .busy
    | .ready =>
      let r := readV s t.part pasid 2 (coreRegion core) a n
      .done (putBstore r.1 target dst r.2)

/-- What a global range of a drain comes to; a local or empty one is always ready. -/
def drainReach (s : State) (p pasid : Nat) (isLocal : Bool) (a n : Nat) : Reach :=
  if isLocal || n == 0 then .ready else reachOf s p pasid a n

def drainPut (s : State) (core p pasid : Nat) (isLocal : Bool) (a : Nat) (bs : List Byte) : State :=
  if isLocal then putScratch s core a bs else writeV s p pasid 2 (coreRegion core) a bs

/-- One row of a drain. -/
def drainStep (s : State) (core : Nat) (t : Team) (pasid : Nat) (q : MatCmd) (k : Nat) : MatStep :=
  let d := drainOf q.shape.toNat q.block
  let cols := matCols q.pair
  let i := d.first + k
  let ra := d.resAt + k * d.resStride
  let oa := d.out + k * d.outStride
  let ca := d.scaleAt + k * scaleRow d cols
  match drainReach s t.part pasid d.resLocal ra (resRow d cols), drainReach s t.part pasid d.outLocal oa (outRow d cols),
      drainReach s t.part pasid d.outLocal ca (scaleRow d cols) with
  | .fault c e, _, _ => .fault c e
  | _, .fault c e, _ => .fault c e
  | _, _, .fault c e => .fault c e
  | .ready, .ready, .ready =>
    let r := if d.res = 0 then (s, []) else if d.resLocal then (s, scratchBytes s core ra (resRow d cols))
      else readV s t.part pasid 2 (coreRegion core) ra (resRow d cols)
    let words := tileRow r.1 core q i
    let row := tab cols fun j => drainValue d q.int (words.getD j 0) (residualAt d r.2 j) i j
    let out := drainBytes d row
    let s1 := drainPut r.1 core t.part pasid d.outLocal oa out.1
    let s2 := drainPut s1 core t.part pasid d.outLocal ca out.2
    .done (if q.z then putTileRow s2 core q i [] else s2)
  | _, _, _ => .busy

/-- One row of an ACCCPY. -/
def accStep (s : State) (core : Nat) (q : MatCmd) (k : Nat) : State :=
  let sb := q.shape.toNat
  let a := q.addr + k * accStride sb
  let i := rowFirst sb + k
  if q.kind = .acccpySt then putScratch s core a ((tileRow s core q i).flatMap fun w => toBytes 4 w.toNat)
  else
    let bs := scratchBytes s core a (4 * matCols q.pair)
    putTileRow s core q i (tab (matCols q.pair) fun j => BitVec.ofNat 32 (ofBytes ((bs.drop (4 * j)).take 4)))

/-- The next piece of a command. -/
def matStep (s : State) (core : Nat) (t : Team) (pasid : Nat) (q : MatCmd) : MatStep :=
  match q.kind with
  | .mma => .done (mmaStep s core t q q.chunk)
  | .mlb => mlbStep s core t pasid q q.chunk
  | .mdrain => drainStep s core t pasid q q.chunk
  | _ => .done (accStep s core q q.chunk)

/-- The B-store ranges an MLB writes in one core. -/
def mlbSegs (q : MatCmd) : List (Nat × Nat) :=
  tab 64 fun j => (32768 * j + mlbBoff q.shape.toNat, mlbLen q.shape.toNat)

/-- The end of a command: it leaves its queue, and signals; the tile-operation count it leaves with its increment (R158, R161); an MLB
enters the source records of the cores it wrote (R179); an emulated MMA is counted (R412). (DEDUCED, log 28.) -/
def matEnd (s : State) (core : Nat) (t : Team) (q : MatCmd) : State :=
  let s1 := modTeam s core fun v => { v with queue := v.queue.drop 1 }
  let s2 := if q.kind = .mlb then
      (matCores core q).foldl (fun s k => modTeam s k fun v => { v with
        srcRec := addSource v.srcRec { segs := mlbSegs q, cmd := some { q with chunk := 0, running := false }, copy := none, upper := k != core } }) s1
    else s1
  let s3 := if q.emul then modCore s2 core fun k => { k with emul := k.emul + 1 } else s2
  let o : Origin := { core := core, group := q.group, team := t.index, grid := t.grid, pc := q.pc, after := q.after,
                      tileOf := some q.group }
  match q.sem with
  | some a => signal s3 t.part o a 1
  | none => s3

/-- Scratch bytes the next piece of a command reads, and the rows of its tile. -/
def matReads (q : MatCmd) : List (Nat × Nat) × Nat × Nat :=
  let sb := q.shape.toNat
  let k := q.chunk
  match q.kind with
  | .mma =>
    let f := fmtBlock q.block
    let n := if matChunk f.fa ≤ matChunk f.fb then matChunk f.fa else matChunk f.fb
    let rows := List.range (mmaM sb)
    let scales := if f.fa = 7 then rows.map fun i => (f.scaleA + i * f.strideA + k * n / blockLen f.la, ceilDiv n (blockLen f.la)) else []
    ((rows.map fun i => (q.addr + i * f.stride + matBytes f.fa (k * n), matBytes f.fa n)) ++ scales,
      0, if q.z && k == 0 then 0 else mmaM sb)
  | .mlb => (if q.loc then [(q.addr + k * mlbStride sb, mlbLen sb)] else [], 0, 0)
  | .mdrain =>
    let d := drainOf sb q.block
    (if d.resLocal then [(d.resAt + k * d.resStride, resRow d (matCols q.pair))] else [], d.first + k, d.first + k + 1)
  | .acccpySt => ([], rowFirst sb + k, rowFirst sb + k + 1)
  | .acccpyLd => ([(q.addr + k * accStride sb, 4 * matCols q.pair)], 0, 0)

/-- Whether the next piece reads an uncorrectable word (R411). (DEDUCED, log 35.) -/
def matBad (s : State) (core : Nat) (t : Team) (q : MatCmd) : Bool :=
  let r := matReads q
  (r.1.any fun x => badScratch t x.1 x.2) ||
    (matCores core q).any fun c => match teamOf s c with | some v => v.bad.any (inTile q.tile r.2.1 r.2.2) | none => false

/-- Up to `n` pieces of the running command. A piece that meets a broken or foreign page ends the task; the record names the
issuing instruction and the address reached (R369, R391). -/
def matRun : Nat → State → Nat → State
  | 0, s, _ => s
  | n + 1, s, core =>
    match teamOf s core with
    | none => s
    | some t =>
      match t.queue.head?, gridOf s t.part t.grid with
      | some q, some g =>
        if matBad s core t q then modTeam (asyncFail s core q.group q.after q.pc) core fun v => { v with queue := v.queue.drop 1 }
        else match matStep s core t g.pasid q with
        | .busy => s
        | .fault code adr =>
          let r : Record := {
            code := code, ends := true, core := core, group := q.group, region := coreRegion core, team := t.index, grid := g.seq,
            pc := q.pc, addr := BitVec.ofNat 57 adr, pasid := g.pasid, part := t.part, dc := dayclock s (coreRegion core) }
          endTask (addRecord s r) t.part g.task
        | .done s1 =>
          let s2 := modHead s1 core fun c => { c with chunk := c.chunk + 1 }
          if matUnits q ≤ q.chunk + 1 then matEnd s2 core t q else matRun n s2 core
      | _, _ => s

/-- Whether a core's running command goes on: a save stops an emulated MMA at a chunk boundary, and lets others finish (R179). -/
def matGoes (s : State) (core : Nat) : Bool :=
  !coreStopped s core && (getDie s (dieOf core)).reset.isNone &&
    match teamOf s core, runningCmd s core with
    | some t, some q => activeTeam t || (t.state == .saving && !q.emul)
    | _, _ => false

/-- The running command of a core advances by up to `units` pieces, and completes with its last. R161, R163, R169 - R176.
(DEDUCED, log 28.) -/
def execMatrixCommandComplete (core units : Nat) (s : State) : Host.Outcome State Fault Refusal :=
  .next (if matGoes s core then matRun units s core else s)

end Sys2Proof.Machine
end

