-- ==== Sys2Proof/Machine/Power.lean ====
section
/-! DEFINITION. Clock hops between the operating-class pools (R16, R320, R347), current steps (R344, R345), droops and heat
(R343, R346, R348). -/

namespace Sys2Proof.Machine

open Sys2Proof

/-! ## The effective rate (R343) -/

def clampRate (n : Nat) : Nat := if n < 8 then 8 else if 64 < n then 64 else n

/-- RATE of a region for one partition. A droop that has cleared lowers it until the next step boundary (R346). -/
def newRate (r : Region) (p : PowerPart) : Nat :=
  let cap := clampRate (fld r.pwrcfg.toNat 12 7)
  let drp := if r.droop || r.restore then clampRate (fld r.pwrcfg.toNat 19 7) else 64
  let thm := if r.therm then clampRate (fld r.thermcfg.toNat 8 7) else 64
  max 8 (min (min cap p.stepRate) (min drp thm))

/-- The partitions that have registers, each once. -/
def partIds (s : State) : List Nat := (mkeys s.parts).foldl addNew []

/-- The partitions with compute dies in a region, with the number of those dies. -/
def partsIn (s : State) (region : Nat) : SMap Nat :=
  let dies := fun (p : Nat) => ((compDies (getPart s p)).filter fun d => regionOfSite (dieSite d) == region).length
  ((partIds s).filter fun p => cfgEn (getPart s p) && dies p != 0).map fun p => (p, dies p)

/-- The enabled partitions with a site in a region. -/
def partsOver (s : State) (region : Nat) : List Nat := (partIds s).filter fun p => cfgEn (getPart s p) && hasRegion (getPart s p) region

/-- The rates of every partition in a region recomputed. (DEDUCED, log 37.) -/
def setRates (s : State) (region : Nat) : State :=
  let ps := mkeys (partsIn s region)
  modRegion s region fun r => { r with
    power := ps.foldl (fun m p => mmod {} m p fun q => { q with rate := newRate r q }) r.power }

/-! ## Clock hops (R16, R320, R347) -/

/-- Dies in the Sprint pool, or on their way into it. -/
def sprintDies (s : State) : Nat :=
  (s.dies.filter fun q => q.2.cls == .sprint || (match q.2.hop with | some h => h.target == .sprint | none => false)).length

/-- System software moves a die to another pool: step 1 of R320, or a refusal for the Sprint limit, which it is told. What the rules
leave open: a move of a retired die or of one under reset, as one to the pool the die is in or of a die whose hop is under way,
does nothing. (DESIGN CHOICE, log 52; DEDUCED, log 38.) -/
def execPoolMove (die cls : Nat) (s : State) : Host.Outcome State Fault Refusal :=
  let d := getDie s die
  let target := clsOf cls
  if decide (256 ≤ die) || decide (3 ≤ cls) || d.hop.isSome || d.retired || d.reset.isSome || d.cls == target then .next s
  else if target == .sprint && decide (64 ≤ sprintDies s) then .next (send s .refused)
  else .next (modDie s die fun d => { d with closed := true, hop := some { target := target, step := 1, time := s.now } })

/-- Whether a die is empty and every request of it has its response (R320, steps 2 and 3). -/
def dieDrained (s : State) (die : Nat) : Bool :=
  (dieCores die).all fun c =>
    let k := getCore s c
    k.team.isNone && k.misses.isEmpty && k.accs.isEmpty && !(s.outstanding.any fun o => o.msg.req == .core c) &&
      !(s.walks.any fun w => w.core == c)

/-- The die's cores and DCC stop while the divider changes. R320, step 4. (DEDUCED, log 38.) -/
def execHopStopBegin (die : Nat) (s : State) : Host.Outcome State Fault Refusal :=
  match (getDie s die).hop with
  | some h =>
    if h.step < 4 ∧ dieDrained s die then
      .next (modDie s die fun d => { d with hop := some { h with step := 4, time := s.now } })
    else .next s
  | none => .next s

/-- The stop has lasted 1 µs (5,000 link cycles): the die joins its new pool, or, after a droop, stays in its old one to be
retried; the fourth abort refuses the move. R320, R347. -/
def execHopStopEnd (die : Nat) (s : State) : Host.Outcome State Fault Refusal :=
  match (getDie s die).hop with
  | none => .next s
  | some h =>
    if h.step ≠ 4 ∨ s.now < h.time + 5000 then .next s
    else if !h.aborted then
      let s1 := modDie s die fun d => { d with cls := h.target, closed := false, hop := none }
      .next (match partOfSite s (dieSite die) with
        | some p => traceEvent s1 p (regionOfSite (dieSite die)) 5 (32 * die) die (clsCode h.target)
        | none => s1)
    else if 4 ≤ h.aborts then .next (send (modDie s die fun d => { d with closed := false, hop := none }) .refused)
    else .next (modDie s die fun d => { d with hop := some { h with step := 5, aborted := false } })

/-- A hop that a droop aborted is retried from its stop 50 µs after the droop was detected. R347. (DEDUCED, log 38.) -/
def execHopRetry (die : Nat) (s : State) : Host.Outcome State Fault Refusal :=
  match (getDie s die).hop with
  | some h =>
    if h.step = 5 ∧ h.retry ≤ s.now then .next (modDie s die fun d => { d with hop := some { h with step := 4, time := s.now } })
    else .next s
  | none => .next s

/-! ## Current steps (R344, R345, R358) -/

/-- Corrected time in a region (R349). (DEDUCED, log 37.) -/
def corrected (s : State) (region : Nat) : Nat :=
  (dayclock s region - (mget 0 s.dcOff region).signExtend 64).toNat

/-- The cores of a partition in a region. -/
def regionCores (s : State) (part region : Nat) : List Nat :=
  ((compDies (getPart s part)).filter fun d => regionOfSite (dieSite d) == region).flatMap dieCores

/-- Amperes of the arrays that executed an MMA in the step just ended, for however long. (DEDUCED, log 37.) -/
def ranAmps (s : State) (cs : List Nat) : Nat := sumOf (cs.map fun c => (getCore s c).stepAmps)

/-- Amperes of a core's array while it executes an MMA, its own or its leader's. (DEDUCED, log 37.) -/
def arrayNow (s : State) (c : Nat) : Nat :=
  match runningCmd s (if slaved s c then pairOf c else c) with | some q => arrayAmps q | none => 0

/-- Amperes of the arrays that execute an MMA. -/
def runningAmps (s : State) (cs : List Nat) : Nat := sumOf (cs.map (arrayNow s))

/-- IEST: 2 A for each executing array, and 0.5 A × grants / (64 × windows) for each core. A step of 1,000 link cycles has
1000 / (16 div) windows, so a core adds grants × div / 8000 A. (DEDUCED, log 37.) -/
def estimate (s : State) (cs : List Nat) : Nat :=
  ranAmps s cs + sumOf (cs.map fun c => (getCore s c).winGrants * coreDiv s c) / 8000

def satAdd (v top : Nat) : Nat := if v < top then v + 1 else v

/-- A count field of PWREVT one higher, saturating. -/
def countEvt (e : BitVec 24) (lo w : Nat) : BitVec 24 :=
  let v := fld e.toNat lo w
  BitVec.ofNat 24 (e.toNat + (satAdd v (2 ^ w - 1) - v) * 2 ^ lo)

/-- A detection counted with the hops it aborts: DROOPS and HOPABORTS (R346, R347). (DEDUCED, log 37.) -/
def countDroop (hops : Nat) (e : BitVec 24) : BitVec 24 := (List.range hops).foldl (fun e _ => countEvt e 16 8) (countEvt e 0 16)

/-- The next step of one partition in a region: its estimate, its rate and the starts it allows. `lim`: its share of STEPLIM. What the
lanes may draw lessens no start (Table 17-5, tick 2,750: with STEPLIM 384 and an estimate of 0, 384 A of starts fit).
(DEDUCED, log 37.) -/
def nextStep (s : State) (region part lim : Nat) : State :=
  let cs := regionCores s part region
  let p := mget {} (getRegion s region).power part
  let iest := estimate s cs
  let run := runningAmps s cs
  let live := (cs.filter fun c => !(getCore s c).retired).length
  let free := stepLim s region == 0
  let overLimit := !free && decide (p.iest + lim < iest)
  let budget := iest + lim - run
  let rate := if free || live == 0 then 64 else if overLimit then 8 else min 64 (128 * budget / live)
  let p1 : PowerPart := { p with
    iest := iest, stepRate := rate, bound := decide (rate < 64), startsLeft := if overLimit then 0 else budget,
    stepViol := if overLimit then BitVec.ofNat 8 (satAdd p.stepViol.toNat 255) else p.stepViol }
  modRegion s region fun r => { r with power := mput r.power part { p1 with rate := newRate r p1 } }

/-- Withheld starts of a partition in a region, in ascending core number. (DEDUCED, log 37.) -/
def startWithheld (s : State) (region part : Nat) : State :=
  (regionCores s part region).foldl (fun s c => match teamOf s c with
    | some t => match t.queue.head? with
      | some q => if q.withheld && t.part == part && canStart s c then startCommand s c part q else s
      | none => s
    | none => s) s

/-- A step boundary of a region, a multiple of 250 ticks of its corrected time: handled once, at that tick or at the first turn
after it. R343 - R346. (DEDUCED, log 37.) -/
def execStepBoundary (region : Nat) (s : State) : Host.Outcome State Fault Refusal :=
  let t := corrected s region
  if (getRegion s region).stepAt = t / 250 then .next s
  else
    let ps := partsIn s region
    let total := sumOf (mvals ps)
    let s1 := modRegion s region fun r => { r with stepAt := t / 250, restore := false }
    let s2 := ps.foldl (fun s q => nextStep s region q.1 (stepLim s region * q.2 / total)) s1
    let s3 := ps.foldl (fun s q => startWithheld s region q.1) s2
    let reset := fun (q : Nat × Core) =>
      if coreRegion q.1 = region then (q.1, { q.2 with winGrants := 0, stepAmps := runningAmps s3 [q.1] }) else q
    .next { s3 with cores := s3.cores.map reset }

/-! ## Droop (R346, R347) -/

/-- A hop in its stop is aborted. (DEDUCED, log 38.) -/
def abortHop (now : Nat) (d : Die) : Die :=
  { d with hop := d.hop.map fun h =>
      if h.step = 4 ∧ h.aborted = false then { h with aborted := true, aborts := h.aborts + 1, retry := now + 250000 } else h }

def stopping (d : Die) : Bool := match d.hop with | some h => h.step == 4 && !h.aborted | none => false

/-- The detector of a region fires: DROOP is set, the rate falls, starts are withheld, and hops in their stop abort; every partition
with a site there counts it (R378). R346, R347. -/
def execDroopDetect (region : Nat) (s : State) : Host.Outcome State Fault Refusal :=
  let here := fun (q : Nat × Die) => regionOfSite (dieSite q.1) == region && stopping q.2
  let n := (s.dies.filter here).length
  let s1 := modRegion s region fun r => { r with
    pwrevt := countDroop n r.pwrevt, droop := true, droopAt := s.now, restore := false,
    power := (partsOver s region).foldl (fun m p => mmod {} m p fun q => { q with evt := countDroop n q.evt }) r.power }
  let s2 := { s1 with dies := s1.dies.map fun q => if here q then (q.1, abortHop s.now q.2) else q }
  .next ((partsIn s region).foldl (fun s q => traceEvent s q.1 region 6 0 region 0) (setRates s2 region))

/-- The supply has stayed above threshold for 1 µs: DROOP clears; the rate is restored at the next step boundary. R346.
(DEDUCED, log 37.) -/
def execDroopClear (region : Nat) (s : State) : Host.Outcome State Fault Refusal :=
  let r := getRegion s region
  if r.droop && decide (r.droopAt + 5000 ≤ s.now) then .next (modRegion s region fun r => { r with droop := false, restore := true })
  else .next s

/-! ## Heat (R348) -/

/-- The hottest of some engines; ties go to the lowest core number. -/
def hottest (l : SMap Byte) : Option HotReg :=
  let top := maxOf (l.map fun q => q.2.toNat)
  (l.find? fun q => q.2.toNat == top).map fun q => { core := q.1, temp := q.2, valid := true }

/-- One region's sample: its hottest engines and its thermal alarm. (DEDUCED, log 37.) -/
def sampleRegion (temps : SMap Byte) (s : State) (region : Nat) : State :=
  let l := temps.filter fun q => coreRegion q.1 == region
  match hottest l with
  | none => s
  | some h =>
    let ps := mkeys (partsIn s region)
    let tlim := fld (getRegion s region).thermcfg.toNat 0 8
    let one := fun (m : SMap PowerPart) (p : Nat) =>
      match hottest (l.filter fun q => inRect (getPart s p) (coreSite q.1)) with
      | some v => mmod {} m p fun q => { q with hot := v }
      | none => m
    setRates (modRegion s region fun r => { r with
      hot := h, therm := if tlim ≤ h.temp.toNat then true else if h.temp.toNat + 3 < tlim then false else r.therm,
      power := ps.foldl one r.power }) region

/-- All engines' sensors are sampled, each 5 µs of corrected time: those of retired cores are excluded. R348.
(DESIGN CHOICE, log 9.) -/
def execThermalSample (temps : SMap Byte) (s : State) : Host.Outcome State Fault Refusal :=
  let l := temps.filter fun q => decide (q.1 < 8192) && !(getCore s q.1).retired
  if corrected s 0 % 6250 ≠ 0 then .next s
  else
    let s1 := (List.range 16).foldl (sampleRegion l) s
    let s2 := match hottest l with | some h => { s1 with hot := h } | none => s1
    let own := fun (q : Nat × Partition) =>
      match hottest (l.filter fun t => inRect q.2 (coreSite t.1)) with
      | some h => (q.1, { q.2 with hotid := h })
      | none => q
    .next { s2 with parts := s2.parts.map own }

end Sys2Proof.Machine
end

