-- ==== Sys2Proof/Machine/Walk.lean ====
section
/-! DEFINITION. The walk of the host's page tables (R361 - R363), pinning (R366, R367), and the reads a launch unit makes. -/

namespace Sys2Proof.Machine

open Sys2Proof

/-- What a walk yields: the first 4 KiB page of the host page and how many it has, its frame, whether every level is writable, and
the leaf entry's address. -/
structure Walked where
  page : Nat
  size : Nat
  frame : Nat
  w : Bool
  leaf : Nat
  reads : List Nat := []            -- the entries read, whose lines are reads of host memory (R363)
  deriving DecidableEq, Repr

/-- The table at level `n`, down from 5; Table 18-1. -/
def walkLevel (s : State) (p va : Nat) : Nat → Nat → Bool → Option Walked
  | 0, _, _ => none
  | n + 1, table, w =>
    let e := readPhysLE s p (table + 8 * (va / 2 ^ (12 + 9 * n) % 512)) 8
    let at_ := table + 8 * (va / 2 ^ (12 + 9 * n) % 512)
    let w1 := w && bit e 1
    let next := fld e 12 40 * 4096
    if !bit e 0 then none
    else if n = 0 || ((n == 1 || n == 2) && bit e 7) then
      some { page := va / 2 ^ (12 + 9 * n) * 2 ^ (9 * n), size := 2 ^ (9 * n), frame := alignDown next (2 ^ (12 + 9 * n)), w := w1,
             leaf := at_, reads := [at_] }
    else (walkLevel s p va n next w1).map fun q => { q with reads := at_ :: q.reads }

/-- Where an address lies in a walked page. -/
def Walked.addr (q : Walked) (va : Nat) : Nat := q.frame + (va - 4096 * q.page)

/-- The walk for an address under a PASID; a PASID without a root has no translation. (DESIGN CHOICE, log 50.) -/
def walkPage (s : State) (p pasid va : Nat) : Option Walked :=
  match mget? s.pasids pasid with
  | none => none
  | some root => walkLevel s p va 5 root true

/-- A translation is filled: A is set in the leaf, and D with a write translation. -/
def fillLeaf (s : State) (p : Nat) (q : Walked) (wr : Bool) : State :=
  let e := (readPhysLE s p q.leaf 1)
  writePhys s p q.leaf [BitVec.ofNat 8 (Nat.lor e (if wr then 0x60 else 0x20))]

/-- The entry of a migration that moved a page which no pin holds: it serves until the page is pinned (R371). -/
def migEntry (v : Partition) (pasid page : Nat) : Option Migration :=
  v.migs.find? fun q => q.pasid == pasid && q.page == page && q.installed

/-- The physical address the device uses for an address: that of its pin, of a migration's entry, or a walk's. -/
def lookup (s : State) (p pasid va : Nat) : Option Nat :=
  let v := getPart s p
  match pinOf v pasid (va / 4096), migEntry v pasid (va / 4096) with
  | some q, _ => some (pinAddr q va)
  | none, some q => some (q.new + va % 4096)
  | none, none => (walkPage s p pasid va).map fun q => q.addr va

/-- Whether a walk for a page can be made now: the host port of each table line, chosen as for a line of host memory (R186, R363), is
in service, and the line of the leaf entry, which it writes, is quiet. -/
def leafQuiet (s : State) (p pasid page : Nat) : Bool :=
  match walkPage s p pasid (page * 4096) with
  | some q => (q.reads.all fun h => !routerOut s (anchorSite s p (lineBase h))) && lineQuiet s p (lineBase q.leaf)
  | none => true

/-- Walkers of a region that are free: it has 16 (R363). -/
def walkerFree (s : State) (core : Nat) : Bool :=
  decide ((s.walks.filter fun w => coreRegion w.core == coreRegion core).length < 16)

/-! ## What a launch unit reads -/

/-- Bytes that a launch unit reads; none where a byte has no translation in the partition's reach. (DEDUCED, log 5.) -/
def unitRead (s : State) (p pasid a n : Nat) : Option (List Byte) :=
  (List.range n).foldr (fun i acc =>
    match acc, lookup s p pasid (a + i) with
    | some r, some h =>
      if (tierOf s p h).isNone || inCtxArea (getPart s p) h then none
      else some (byteValue s p h :: r)
    | _, _ => none) (some [])

/-- Whether every line of a range that translates is quiet, and the leaf of every walk made for it, and no page of it waits for the new
translation of a migration (R371). -/
def unitQuiet (s : State) (p pasid a n : Nat) : Bool :=
  ((lineSpan a n).all fun va => match lookup s p pasid va with | some h => lineQuiet s p (lineBase h) | none => true) &&
    (pagesOf a n).all fun k => leafQuiet s p pasid k && !pageMoving (getPart s p) pasid k
where
  lineSpan (a n : Nat) : List Nat :=
    if n = 0 then [] else (List.range ((a + n - 1) / 128 - a / 128 + 1)).map fun i => if i = 0 then a else lineBase a + 128 * i

/-- The lines that a unit reads of a page in migration, pulled to their new place (R371). -/
def unitPull (s : State) (p pasid a n : Nat) : State :=
  (lineSegs a n).foldl (fun s q => match lookup s p pasid q.1 with | some h => pullLine s p (lineBase h) | none => s) s

/-- What a unit's reads leave: translations filled by a walk, so that A is set in their leaves (R362), and lines pulled. -/
def unitFill (s : State) (p pasid a n : Nat) : State :=
  (pagesOf a n).foldl (fun s k =>
    if (pinOf (getPart s p) pasid k).isSome || (migEntry (getPart s p) pasid k).isSome then s
    else match walkPage s p pasid (k * 4096) with
      | some q => fillLeaf s p q false
      | none => s) (unitPull s p pasid a n)

/-! ## The pages a grid needs, and their pins (R366, R367) -/

/-- Page ranges of a grid's leases, the image lease among them: first page, number of pages, write. -/
def leaseSpans (g : Grid) : List (Nat × Nat × Bool) :=
  let span := fun (b n : Nat) (w : Bool) => (b / 4096, (b + n - 1) / 4096 - b / 4096 + 1, w)
  span g.image g.hdr.dataOff false :: g.leases.map fun l => span l.base l.len l.w

/-- The part of a page range inside another. -/
def spanMeet (a b : Nat × Nat) : Nat × Nat :=
  let lo := if a.1 < b.1 then b.1 else a.1
  let hi := if a.1 + a.2 < b.1 + b.2 then a.1 + a.2 else b.1 + b.2
  (lo, hi - lo)

/-- The pin table's capacity. -/
def pinCapacity : Nat := 2 ^ 20

/-- The host pages from `page` to below `hi`, by their first page: those a walk gives; a page without a translation counts as one of
4 KiB. `n` bounds their number. (DEDUCED, log 36.) -/
def hostPages (s : State) (p pasid : Nat) : Nat → Nat → Nat → List Nat
  | 0, _, _ => []
  | n + 1, page, hi =>
    if hi ≤ page then []
    else match pinOf (getPart s p) pasid page, walkPage s p pasid (page * 4096) with
      | some q, _ => q.page :: hostPages s p pasid n (q.page + q.size) hi
      | none, some q => q.page :: hostPages s p pasid n (q.page + q.size) hi
      | none, none => page :: hostPages s p pasid n (page + 1) hi

/-- Host pages that some page ranges touch, rising, with whether a grid needs to write them. -/
def neededPages (s : State) (p pasid : Nat) (spans : List (Nat × Nat × Bool)) : SMap Bool :=
  spans.foldl (fun m q => (hostPages s p pasid (pinCapacity + 1) q.1 (q.1 + q.2.1)).foldl
    (fun m k => mput m k (mget false m k || q.2.2)) m) []

/-- The page ranges a grid waits to have pinned: all in Leasing, else those that are being re-granted (R368). -/
def pinSpans (g : Grid) : List (Nat × Nat × Bool) :=
  let all_ := leaseSpans g
  if g.state = .leasing then all_
  else g.regrant.flatMap fun r => (all_.map fun q => (spanMeet (q.1, q.2.1) r, q.2.2)).filterMap fun q =>
    if q.1.2 = 0 then none else some (q.1.1, q.1.2, q.2)

/-- Whether a page can be pinned: its walk gives it, writable where that is needed. -/
def pageReady (s : State) (p pasid page : Nat) (w : Bool) : Bool :=
  match walkPage s p pasid (page * 4096) with
  | some q => !w || q.w
  | none => false

/-- Whether a grid holds a pin on a page that permits what it needs. -/
def pinHeld (v : Partition) (g : Grid) (page : Nat) (w : Bool) : Bool :=
  match pinOf v g.pasid page with
  | some q => g.pinned.contains q.page && (q.w || !w)
  | none => false

/-- The entry for a page: what its walk gives, or the frame to which a migration has moved it (R371). -/
def newPin (v : Partition) (pasid page : Nat) (w : Bool) (q : Walked) : Pin :=
  { pasid := pasid, page := q.page, size := q.size, frame := (match migEntry v pasid page with | some m => m.new | none => q.frame),
    w := w, refs := 0 }

/-- One page pinned: an entry is filled from its walk unless it has one, A and with a write D is set in its leaf, and the entry has a
reference more. R362, R366. -/
def pinPage (s : State) (p pasid page : Nat) (w : Bool) : State :=
  match walkPage s p pasid (page * 4096) with
  | none => s
  | some q =>
    let v := getPart s p
    let raise := match pinOf v pasid page with | some r => w && !r.w | none => true
    let s1 := if raise then fillLeaf s p q w else s
    let s2 := if (pinOf v pasid page).isNone then modPart s1 p fun v => { v with pins := v.pins ++ [newPin v pasid page w q] } else s1
    modPart s2 p fun v => { v with pins := v.pins.map fun r =>
      if r.pasid = pasid ∧ r.page ≤ page ∧ page < r.page + r.size then { r with refs := r.refs + 1, w := r.w || w } else r }

/-- A page pinned for a grid, which holds one reference to each of its pins. -/
def pinFor (s : State) (p seq : Nat) (page : Nat) (w : Bool) : State :=
  match gridOf s p seq with
  | none => s
  | some g =>
    let s1 := pinPage s p g.pasid page w
    match pinOf (getPart s1 p) g.pasid page with
    | none => s
    | some q =>
      if g.pinned.contains q.page then
        modPart s1 p fun v => { v with pins := giveRefs v.pins g.pasid [q.page] }
      else modGrid s1 p seq fun g => { g with pinned := insertNat g.pinned q.page }

/-- A lease request: one record for a page that cannot be used. -/
def leaseRecord (s : State) (part : Nat) (g : Grid) (page : Nat) : State :=
  addRecord s { code := 0x40, grid := g.seq, addr := BitVec.ofNat 57 (page * 4096), pasid := g.pasid, part := part,
                dc := dayclock s 0 }

/-- A grid that waits for its pages walks them in rising order: those that cannot be used are posted, each once, as far as the record
buffer takes them (R399). When the table has room for all it needs it pins those that can, and each whose leaf is in motion at a
later step; else it waits. A grid in Leasing that needs more than the table holds ends with status 0x21. R366. (DEDUCED, log 36.) -/
def leaseStep (s : State) (part seq : Nat) : State :=
  match gridOf s part seq with
  | none => s
  | some g =>
    let need := neededPages s part g.pasid (pinSpans g)
    let fresh := need.filter fun q => (pinOf (getPart s part) g.pasid q.1).isNone
    if need.isEmpty then s
    else if pinCapacity < need.length then
      (if g.state = .leasing then
        modPart (modGrid s part seq fun q => { q with state := .ended, status := 0x21 }) part fun v => sweepPins (dropGrid v seq)
       else s)
    else
      let open_ := need.filter fun q => !pinHeld (getPart s part) g q.1 q.2
      let bad := (open_.filter fun q => !pageReady s part g.pasid q.1 q.2).map (·.1)
      let new := bad.filter fun k => !g.leaseReqs.contains k
      let post := new.take (recordRoom s part none)
      let s1 := modGrid (post.foldl (fun s k => leaseRecord s part g k) s) part seq fun q => { q with leaseReqs := q.leaseReqs ++ post }
      if pinCapacity < (getPart s part).pins.length + fresh.length then s1
      else (open_.filter fun q => !bad.contains q.1).foldl (fun s q =>
        if leafQuiet s part g.pasid q.1 then pinFor s part seq q.1 q.2 else s) s1

/-- Whether every page a grid waits for is pinned for it. -/
def pagesPinned (s : State) (part : Nat) (g : Grid) : Bool :=
  let need := neededPages s part g.pasid (pinSpans g)
  !g.leaseReqs.any (fun k => need.any fun q => q.1 == k) && need.all fun q => pinHeld (getPart s part) g q.1 q.2

/-- After a grid's retirement increment: its leases are released, and its pages that no grid refers to are unpinned (R318, R367). -/
def releaseGrid (s : State) (part seq : Nat) : State :=
  modPart s part fun v =>
    let v1 := sweepPins { v with grids := v.grids.map fun q => if q.seq = seq then { q with pinned := [] } else q }
    match v.grids.find? fun q => q.seq == seq with
    | some g => if g.depth = 0 then releaseGrants v1 g.task g.pasid else v1
    | none => v1

end Sys2Proof.Machine
end

