-- ==== Sys2Proof/Machine/Launch.lean ====
section
/-! DEFINITION. Launching grids (R49 - R52, R312 - R317), their leasing, placement and retirement (R318, R319, R366, R367), and
JOINC (R321). -/

namespace Sys2Proof.Machine

open Sys2Proof

/-! ## The launch parameter block (Table 14-1) and the lease list (R314) -/

structure Lpb where
  image : Nat
  entry : Nat
  shape : Nat
  groups : Nat
  base : Nat
  l1 : Nat
  tiles : Nat
  scratch : Nat
  cls : Nat
  prio : Nat
  regions : Nat
  flags : Nat
  sem : Nat
  status : Nat
  key : Nat
  budget : Nat
  count : Nat
  list : Nat
  reserved : Nat
  deriving DecidableEq, Repr

def byteField (b : List Byte) (o n : Nat) : Nat := ofBytes ((b.drop o).take n)

def lpbOf (b : List Byte) : Lpb where
  image := byteField b 0x00 8
  entry := byteField b 0x08 4
  shape := byteField b 0x0C 4
  groups := byteField b 0x10 1
  base := byteField b 0x11 1
  l1 := byteField b 0x12 1
  tiles := byteField b 0x13 1
  scratch := byteField b 0x14 4
  cls := byteField b 0x18 1
  prio := byteField b 0x19 1
  regions := byteField b 0x1A 2
  flags := byteField b 0x1C 4
  sem := byteField b 0x20 8
  status := byteField b 0x28 8
  key := byteField b 0x30 8
  budget := byteField b 0x38 2
  count := byteField b 0x3A 1
  list := byteField b 0x40 8
  reserved := byteField b 0x3B 5 + byteField b 0x48 56

def lpbTeams (q : Lpb) : Nat := q.shape % 2 ^ 24 + 1

/-- Groups a core holds under a base allocation (Table 2-2); 0 for any other allocation. -/
def groupLimit (base : Nat) : Nat := match base with | 64 => 8 | 128 => 6 | 192 => 4 | _ => 0

def leaseOf (b : List Byte) : Option Lease :=
  let w := byteField b 0 8
  let n := byteField b 8 8
  let base := w % 2 ^ 57
  if 2 ^ 59 ≤ w ∨ (bit w 57 = false ∧ bit w 58 = false) ∨ n = 0 ∨ 2 ^ 57 < base + n then none
  else some { base := base, len := n, r := bit w 57, w := bit w 58 }

/-- The lease list; none when an entry is invalid. -/
def leaseList (b : List Byte) (n : Nat) : Option (List Lease) :=
  (List.range n).foldr (fun i acc => match acc, leaseOf ((b.drop (16 * i)).take 16) with
    | some r, some l => some (l :: r)
    | _, _ => none) (some [])

/-- Whether an address of 8 bytes lies in a lease of the list that may be written. -/
def inWriteLease (ls : List Lease) (a : Nat) : Bool := ls.any fun l => l.w && decide (l.base ≤ a) && decide (a + 8 ≤ l.base + l.len)

/-- A field outside Table 14-1, but for the upper bound of the entry point (status 0x07). -/
def lpbBad (q : Lpb) (ls : List Lease) : Bool :=
  decide (2 ^ 57 ≤ q.image) || q.entry % 4 != 0 || decide (2 ^ 24 ≤ q.shape) || q.groups == 0 ||
    decide (groupLimit q.base < q.groups) || decide (2 < q.l1) || decide (8 < q.tiles) ||
    decide (0x40000 - 0x10000 * q.l1 - 0x2200 < q.scratch) || decide (2 < q.cls) || decide (3 < q.prio) || q.regions == 0 ||
    decide (4 ≤ q.flags) || q.sem % 8 != 0 || q.status % 8 != 0 || decide (64 < q.count) || q.reserved != 0 ||
    (bit q.flags 0 && lpbTeams q % 2 != 0) || (q.sem != 0 && !inWriteLease ls q.sem) ||
    (q.status != 0 && !inWriteLease ls q.status)

/-! ## The kernel header (R49 - R51) -/

def headerOf (b : List Byte) : Header where
  version := byteField b 0x04 1
  baseDemand := byteField b 0x05 1
  windowDemand := byteField b 0x06 1
  scalarOff := 64 * byteField b 0x08 2
  laneOff := 64 * byteField b 0x0A 2
  constOff := 64 * byteField b 0x0C 2
  dataOff := 64 * byteField b 0x0E 2
  scalarSize := byteField b 0x10 4
  laneSize := byteField b 0x14 4
  dataSize := byteField b 0x18 4

/-- R51 check 1. -/
def headerBad1 (image : Nat) (b : List Byte) : Bool :=
  let h := headerOf b
  image % 64 != 0 || byteField b 0 4 != 0x47584A4B || h.version == 0 || decide (3 < h.version) || groupLimit h.baseDemand == 0 ||
    decide (4 < h.windowDemand) || byteField b 0x07 1 != 0

/-- R51 check 2. -/
def headerBad2 (h : Header) : Bool :=
  decide (h.scalarOff < 64) || decide (h.laneOff < h.scalarOff + 4 * h.scalarSize) ||
    decide (h.constOff < h.laneOff + 12 * h.laneSize) || decide (h.dataOff < h.constOff) || h.scalarSize == 0

/-- R51 check 3: the checksum over the whole image with its own field as 0. -/
def checksumOk (b : List Byte) : Bool :=
  crc32c (b.take 0x1C ++ [0, 0, 0, 0] ++ b.drop 0x20) == byteField b 0x1C 4

/-- R51 check 4 and R418: required features, the version's own, and Schuss when the launch enables it. -/
def featuresOk (s : State) (b : List Byte) (q : Lpb) : Bool :=
  let need := byteField b 0x20 32
  decide (Nat.land need s.featEn.toNat = need) && s.featEn.getLsbD ((headerOf b).version - 1) &&
    (!bit q.flags 1 || s.featEn.getLsbD 3)

/-- Whether a lease of an issuing grid, its image lease among them, contains a range with at least the same permissions. -/
def grantedBy (g : Grid) (l : Lease) : Bool :=
  (g.leases.any fun p => !p.revoked && decide (p.base ≤ l.base) && decide (l.base + l.len ≤ p.base + p.len) &&
      (p.r || !l.r) && (p.w || !l.w)) ||
    (!l.w && !g.imageRevoked && decide (g.image ≤ l.base) && decide (l.base + l.len ≤ g.image + g.hdr.dataOff))

/-- Whether a die of the named class lies in both the region mask and the partition (status 0x0B). -/
def classPresent (s : State) (part : Nat) (q : Lpb) : Bool :=
  (compDies (getPart s part)).any fun d =>
    (getDie s d).cls == clsOf q.cls && bit q.regions (regionOfSite (dieSite d))

/-- The status of Table 14-2 for a block, its lease list and its image, as far as they could be read: an unreadable header fails
check 1, and an image readable but for later bytes fails the checksum. (DEDUCED, log 29.) -/
def launchStatus (s : State) (part : Nat) (parent : Option Grid) (q : Lpb) (list : List Byte) (head image : Option (List Byte)) :
    Nat :=
  match leaseList list q.count with
  | none => 0x07
  | some ls =>
    if lpbBad q ls then 0x07
    else match head with
      | none => 0x01
      | some b =>
        if headerBad1 q.image b then 0x01
        else if headerBad2 (headerOf b) then 0x02
        else if !(match image with | some i => checksumOk i | none => false) then 0x03
        else if !featuresOk s b q then 0x04
        else if q.base < (headerOf b).baseDemand then 0x05
        else if 4 * (headerOf b).scalarSize ≤ q.entry then 0x07
        else
          let img : Lease := { base := q.image, len := (headerOf b).dataOff, r := true, w := false }
          let contained := match parent with | some g => (img :: ls).all (grantedBy g) | none => true
          if !contained then 0x0A
          else if !classPresent s part q then 0x0B
          else 0

/-- The grid an accepted block creates, in Leasing (R318). -/
def newGrid (seq depth pasid task lpb region : Nat) (parent : Option (Nat × Nat)) (q : Lpb) (ls : List Lease) (h : Header) : Grid where
  seq := seq
  depth := depth
  parent := parent
  task := task
  pasid := pasid
  image := q.image
  hdr := h
  entry := BitVec.ofNat 32 q.entry
  teams := lpbTeams q
  groups := q.groups
  base := q.base
  l1 := 0x10000 * q.l1
  tiles := q.tiles
  cls := clsOf q.cls
  prio := q.prio
  regions := BitVec.ofNat 16 q.regions
  pair := bit q.flags 0
  schuss := bit q.flags 1
  budget := BitVec.ofNat 16 q.budget
  key := BitVec.ofNat 64 q.key
  lpb := lpb
  parentSem := if q.sem = 0 then none else some q.sem
  statusAt := if q.status = 0 then none else some q.status
  leases := ls
  state := .leasing
  region := region

/-! ## Leasing (R366) -/

/-- System software declares a lease request unserviceable: a grid in Leasing ends with status 0x21, and its pins are given up; a
re-grant that waits for the page is given up, and the grid's teams stay saved. R318, R366 - R368. (DEDUCED, log 36.) -/
def execLeaseUnserviceable (part grid page : Nat) (s : State) : Host.Outcome State Fault Refusal :=
  match gridOf s part grid with
  | none => .next s
  | some g =>
    if !g.leaseReqs.contains page then .next s
    else if g.state = .leasing then
      .next (modPart (modGrid s part grid fun q => { q with state := .ended, status := 0x21 }) part fun v => sweepPins (dropGrid v grid))
    else .next (modGrid s part grid fun q => { q with regrant := [], leaseReqs := [] })

/-! ## LAUNCH and MGMT_LAUNCH -/

/-- Grids of a partition that have not retired: at 4,096 a launch waits (R316). -/
def gridLimit (v : Partition) : Bool := decide (4096 ≤ (v.grids.filter fun g => g.state != .retired).length)

/-- What a launch unit reads of a block: its status, and the grid when it is accepted. (DEDUCED, log 29.) -/
def launchRead (s : State) (part pasid : Nat) (parent : Option Grid) (q : Lpb) (list : List Byte) : Nat × List Lease × Header :=
  let head := unitRead s part pasid q.image 64
  let h := headerOf (head.getD [])
  let image := unitRead s part pasid q.image (h.dataOff + h.dataSize)
  (launchStatus s part parent q list head image, (leaseList list q.count).getD [], h)

/-- Whether every line a launch unit reads is quiet. -/
def launchQuiet (s : State) (part pasid lpb : Nat) (q : Lpb) : Bool :=
  unitQuiet s part pasid lpb 128 && unitQuiet s part pasid q.list (16 * q.count) && unitQuiet s part pasid q.image 64 &&
    (let h := headerOf ((unitRead s part pasid q.image 64).getD [])
     unitQuiet s part pasid q.image (h.dataOff + h.dataSize))

/-- The translations that these reads walk are filled (R362). -/
def launchFill (s : State) (part pasid lpb : Nat) (q : Lpb) : State :=
  let h := headerOf ((unitRead s part pasid q.image 64).getD [])
  [(lpb, 128), (q.list, 16 * q.count), (q.image, 64), (q.image, h.dataOff + h.dataSize)].foldl
    (fun s r => unitFill s part pasid r.1 r.2) s

/-- A grid is created by the launch unit of a region, for a core's LAUNCH or for system software (core 0), and its unusable pages
are posted. FEATEN is locked from then on, also in a partition that a warm start has kept (R417, R418). (DEDUCED, log 40.) -/
def createGrid (s : State) (part region core : Nat) (g : Grid) : State :=
  let s1 := modPart { s with featLocked := true } part fun v => { v with grids := v.grids ++ [g], nextGrid := v.nextGrid + 1 }
  leaseStep (traceEvent s1 part region 0 core g.seq g.depth) part g.seq

/-- LAUNCH: the checks of Table 14-2 in order, the status to sd, and the child grid. It waits for the grid limit, for earlier
accesses (as a release at sys scope), and while a line it reads is in motion. R315 - R317. -/
def execLaunch (d a : BitVec 6) (s : State) : Host.Outcome State Fault Refusal :=
  scalarMem s (pairReg a) [d.toNat, a.toNat, a.toNat + 1] fun x =>
    let p := x.team.part
    let lpb := pairAddr x.g a.toNat
    let put := fun (s : State) (g : Group) (v : Nat) => scalarDone s x (wrS g d.toNat (BitVec.ofNat 32 v))
    if gridLimit (getPart s p) then scalarWait s x .launch
    else withRelease s x 2 5 fun g =>
      if leaderOf x.team ≠ some x.gi then put s g 0x09
      else if 10 ≤ x.grid.depth then put s g 0x08
      else if lpb % 128 ≠ 0 then put s g 0x06
      else match globalFault s x lpb 128 false with
        | some code => raise s x { code := code, addr := lpb }
        | none =>
          let q := lpbOf ((unitRead s p x.grid.pasid lpb 128).getD [])
          if !launchQuiet s p x.grid.pasid lpb q then scalarWait s x .operand
          else if q.count ≠ 0 ∧ q.list % 16 ≠ 0 then put s g 0x06
          else match (if q.count = 0 then none else globalFault s x q.list (16 * q.count) false) with
            | some code => raise s x { code := code, addr := q.list }
            | none =>
              let list := (unitRead s p x.grid.pasid q.list (16 * q.count)).getD []
              let r := launchRead s p x.grid.pasid (some x.grid) q list
              let s1 := launchFill s p x.grid.pasid lpb q
              if r.1 ≠ 0 then put s1 g r.1
              else
                let seq := (getPart s p).nextGrid
                let child := newGrid seq (x.grid.depth + 1) x.grid.pasid x.grid.task lpb (coreRegion x.core) (some (x.grid.seq, x.team.index)) q r.2.1 r.2.2
                createGrid (modTeam (put s1 g 0) x.core fun t => { t with children := t.children ++ [seq] }) p (coreRegion x.core) x.core child

/-- System software launches a grid at depth 0; it receives the status. A block that cannot be read is refused. R312.
(DESIGN CHOICE, log 12; DEDUCED, log 29.) -/
def execMgmtLaunch (part region pasid lpb : Nat) (s : State) : Host.Outcome State Fault Refusal :=
  let reply := fun (s : State) (r : Reply) => { s with outbox := s.outbox ++ [r] }
  if !(getPart s part).active || (getPart s part).stopped || gridLimit (getPart s part) then .next s
  else if lpb % 128 ≠ 0 then .next (reply s (.status 0x06))
  else match unitRead s part pasid lpb 128 with
    | none => .next (reply s .refused)
    | some b =>
      let q := lpbOf b
      if !launchQuiet s part pasid lpb q then .next s
      else if q.count ≠ 0 ∧ q.list % 16 ≠ 0 then .next (reply s (.status 0x06))
      else match unitRead s part pasid q.list (16 * q.count) with
        | none => .next (reply s .refused)
        | some list =>
          let r := launchRead s part pasid none q list
          let s1 := launchFill s part pasid lpb q
          if r.1 ≠ 0 then .next (reply s1 (.status r.1))
          else
            let seq := (getPart s part).nextGrid
            .next (createGrid (reply s1 (.status 0)) part region 0 (newGrid seq 0 pasid seq lpb region none q r.2.1 r.2.2))

/-- Whether one of some child grids has neither ended nor retired; one that has retired has done so with its increment, in which its
retirement release stands (R318, R321). -/
def childrenOpen (s : State) (part : Nat) (kids : List Nat) : Bool :=
  kids.any fun c => (s.incs.any fun i => i.retires && i.part == part && i.grid == c) ||
    match gridOf s part c with
    | some g => g.state != .retired && g.state != .ended
    | none => false

/-- The child grids a `joinc` waits for: those launched before it issued. -/
def joinedKids (x : Ctx) : List Nat := match x.g.wait with | .joinc kids => kids | _ => x.team.children

/-- Blocks until every child grid that the team had launched before it has retired or ended. R321. -/
def execJoinc (s : State) : Host.Outcome State Fault Refusal :=
  scalarMem s true [] fun x =>
    if childrenOpen s x.team.part (joinedKids x) then scalarWait s x (.joinc (joinedKids x)) else scalarDone s x x.g

/-! ## Placement (R37, R44, R188, R314, R319) -/

/-- A group as a launch creates it (R37). -/
def launchGroup (g : Grid) (team group now : Nat) : Group where
  live := allThreads
  sregs := [(1, BitVec.ofNat 32 team), (2, BitVec.ofNat 32 group), (3, BitVec.ofNat 32 g.lpb), (4, BitVec.ofNat 32 (g.lpb / 2 ^ 32)),
    (61, 0xFFFFFFFF#32), (62, 0xFFFFFFFF#32), (63, 0xFFFFFFFF#32)]
  spc := g.entry
  schussOn := g.schuss
  budget := g.budget
  age := now

def newTeam (part : Nat) (g : Grid) (index core now : Nat) : Team where
  part := part
  grid := g.seq
  index := index
  base := g.base
  l1 := g.l1
  tilesN := g.tiles
  groups := (List.range g.groups).map fun k => (k, launchGroup g index k now)
  lastCore := core

/-- The state of a team of a grid (R48): one that waits for a core is Placing. -/
def teamStateOf (s : State) (part : Nat) (g : Grid) (index : Nat) : Option TeamState :=
  if g.state = .placing ∧ g.nextTeam ≤ index ∧ index < g.teams then some .placing
  else
    let here := (s.cores.filterMap fun q => q.2.team).find? fun t => t.part == part && t.grid == g.seq && t.index == index
    let saved := (getPart s part).saved.find? fun q => q.team.grid == g.seq && q.team.index == index
    match here, saved with
    | some t, _ => some t.state
    | none, some q => some q.team.state
    | none, none => none

/-- Whether a core may take a team of a grid (R319); a die in a clock hop or under reset takes none (R320, R413). -/
def coreFits (s : State) (part : Nat) (g : Grid) (core : Nat) : Bool :=
  let k := getCore s core
  let d := getDie s (dieOf core)
  decide (core < 8192) && inRect (getPart s part) (coreSite core) && bit g.regions.toNat (coreRegion core) && d.cls == g.cls &&
    !d.closed && !d.asked && !d.retired && !s.testing.contains (.dcc (dieOf core)) && d.reset.isNone && k.team.isNone && !k.retired && !k.testing

/-- Whether the next team of a grid, with its partner, can stand on a core. -/
def placeFits (s : State) (part : Nat) (g : Grid) (core : Nat) : Bool :=
  coreFits s part g core && (!g.pair || (core % 2 == 0 && coreFits s part g (core + 1)))

/-- Whether a core was left by a team of the grid while others, that none of its teams has had, stand free: a team waits only while
it finds no core, so those are taken before (R319, R356). (DEDUCED, log 29.) -/
def othersFree (s : State) (part : Nat) (g : Grid) (core : Nat) : Bool :=
  g.used.contains core && ((compDies (getPart s part)).flatMap dieCores).any fun c => !g.used.contains c && placeFits s part g c

/-- Whether a grid's next team goes before another's: higher priority, then lower sequence number. -/
def goesFirst (a b : Grid) : Bool := decide (b.prio < a.prio) || (a.prio == b.prio && decide (a.seq < b.seq))

def putTeam (s : State) (core : Nat) (t : Team) : State :=
  modCore s core fun k => { k with team := some t, l1 := [], misses := [], ops := [], accs := [], watches := [], bstore := [] }

/-- Whether a grid's next team could take `core`, with its partner where it comes in pairs. -/
def couldTake (s : State) (part : Nat) (g : Grid) (core : Nat) : Bool :=
  placeFits s part g core || (g.pair && core % 2 == 1 && placeFits s part g (core - 1))

/-- Whether a waiting grid of the same launch region goes before another and could take the core that the other asks for: teams
waiting in one region are placed in order (R319). A grid with a revoked lease does not wait for a core (R368).
(DEDUCED, log 29.) -/
def placedFirst (s : State) (part : Nat) (g : Grid) (core : Nat) : Bool :=
  (getPart s part).grids.any fun q =>
    q.state == .placing && !q.revoked && q.region == g.region && goesFirst q g && couldTake s part q core

/-- A waiting team is placed, with its pair partner where the launch asks for pairs: everything of it reads 0, and groups 0 to
n - 1 are created. R36, R37, R44, R319. -/
def execTeamPlacement (part grid team core : Nat) (s : State) : Host.Outcome State Fault Refusal :=
  match gridOf s part grid with
  | none => .next s
  | some g =>
    let v := getPart s part
    let ahead := placedFirst s part g core || (g.pair && placedFirst s part g (core + 1))
    if !v.active || v.stopped || v.noPlace || g.revoked || g.state ≠ .placing || team ≠ g.nextTeam || ahead || !placeFits s part g core ||
        othersFree s part g core then .next s
    else
      let n := if g.pair then 2 else 1
      let s1 := (List.range n).foldl (fun s i => putTeam s (core + i) (newTeam part g (team + i) (core + i) s.now)) s
      let last := decide (g.teams ≤ team + n)
      let upd := fun (q : Grid) => { q with nextTeam := team + n, used := (tab n (core + ·)).foldl insertNat q.used,
                                            state := if last then GridState.running else q.state }
      .next (modGrid s1 part grid upd)

/-! ## Retirement (R39, R155, R156, R318) -/

/-- Whether a core's partner still has a `.pair` command that has not completed (R156). -/
def partnerBusy (s : State) (core : Nat) (t : Team) : Bool :=
  core % 2 == 1 && t.partner.isSome &&
    match teamOf s (pairOf core) with
    | some q => q.grid == t.grid && q.part == t.part && q.queue.any (·.pair)
    | none => false

/-- R39, conditions 2 to 4. -/
def teamDone (s : State) (core : Nat) (t : Team) : Bool :=
  let kids := t.children.all fun c => match gridOf s t.part c with | some g => g.state == .retired | none => true
  let sends := s.msgs.any fun m => m.part == t.part && m.grid == t.grid && m.team == t.index
  let signals := s.incs.any fun i => i.part == t.part && i.grid == t.grid && i.team == some t.index
  let kidSignals := s.incs.any fun i => i.retires && i.part == t.part && t.children.contains i.grid
  kids && !signals && !kidSignals && t.bins.isEmpty && t.copies.isEmpty && t.queue.isEmpty && t.colls.isEmpty && !sends && !partnerBusy s core t

/-- Partners stay partners until either retires (R155). -/
def unpartner (s : State) (core : Nat) (t : Team) : State :=
  match teamOf s (pairOf core) with
  | some q => if q.grid = t.grid ∧ q.partner = some t.index then modTeam s (pairOf core) fun q => { q with partner := none } else s
  | none => s

/-- The last group's EXIT completes: the team retires, its core is emptied and counts as arrived. R39, R47, R188, R327. -/
def execTeamRetirement (core : Nat) (s : State) : Host.Outcome State Fault Refusal :=
  match teamOf s core with
  | none => .next s
  | some t =>
    let exited := (mvals t.groups).all fun g => g.state == .exiting
    let idle := (getCore s core).ops.isEmpty && (getCore s core).accs.isEmpty && (getCore s core).misses.isEmpty
    if coreStopped s core || t.state ≠ .draining || !exited || !idle || !teamDone s core t || (getDie s (dieOf core)).reset.isSome then .next s
    else
      let s1 := noonLeave (emptyCore (unpartner s core t) core t.part) core t
      .next (modGrid s1 t.part t.grid fun g => { g with retired := g.retired + 1 })

/-- Whether grid `q` descends from grid `seq` (R361). -/
def descends (gs : List Grid) (seq : Nat) : Nat → Grid → Bool
  | 0, _ => false
  | n + 1, q => match q.parent with
    | none => false
    | some (u, _) => u == seq || (match gs.find? fun g => g.seq == u with | some g => descends gs seq n g | none => false)

/-- Whether a grid may enter Retired (Table 14-3). -/
def gridDone (v : Partition) (g : Grid) : Bool :=
  match g.state with
  | .placing | .running => decide (g.teams ≤ g.nextTeam) && decide (g.teams ≤ g.retired)
  | .ended => v.grids.all fun q => !descends v.grids g.seq 12 q || q.state == .ended || q.state == .retired
  | _ => false

/-- The address at which a pinned page of the grid puts an address; a page that is not pinned has none (R318). -/
def gridAddr (s : State) (part : Nat) (g : Grid) (a : Option Nat) : Option Nat :=
  match a with
  | none => none
  | some va => (pinOf (getPart s part) g.pasid (va / 4096)).bind fun q => if g.pinned.contains q.page then some (pinAddr q va) else none

/-- A grid enters Retired: its status is written, its pins give up their references, and its parent semaphore is incremented by
its launch unit; its leases are released after the increment, at once where there is none. R318, R367. (DEDUCED, log 29.) -/
def execGridRetirement (part grid : Nat) (s : State) : Host.Outcome State Fault Refusal :=
  match gridOf s part grid with
  | none => .next s
  | some g =>
    let at_ := gridAddr s part g g.statusAt
    let quiet := match at_ with | some h => lineQuiet s part (lineBase h) | none => true
    let signals := s.incs.any fun i => i.part == part && i.grid == grid
    if (getPart s part).stopped || !gridDone (getPart s part) g || !quiet || signals then .next s
    else
      let s1 := match at_ with | some h => writePhys s part h (toBytes 8 g.status.toNat) | none => s
      let s2 := modPart (modGrid s1 part grid fun q => { q with state := .retired }) part fun v => dropGrid v grid
      let s3 := traceEvent s2 part 0 1 0 grid (g.status.toNat % 2 ^ 32)
      match g.parentSem, gridAddr s part g g.parentSem with
      | some va, some h =>
        let i : SemInc := {
          id := s.fresh, part := part, pasid := g.pasid, va := va, hpa := h, by_ := 1, core := none, grid := grid, team := none,
          retires := true }
        .next { bumpFresh s3 with incs := s3.incs ++ [i] }
      | _, _ => .next (releaseGrid s3 part grid)

end Sys2Proof.Machine
end

