-- ==== Sys2Proof/Machine/Sync.lean ====
section
/-! DEFINITION. Semaphores with their pending lists (R212, R322 - R324), and team barriers and Noon (R213, R325 - R327). -/

namespace Sys2Proof.Machine

open Sys2Proof

/-! ## Semaphores -/

/-- A semaphore instruction up to its checks: it ends an episode, waits for its registers and an outstanding acquire, and its
word is aligned and inside the leases. -/
def semCommon (s : State) (a : BitVec 6) (c : BitVec 3) (regs : List Nat) (wr : Bool) (f : Ctx → Nat → State) :
    Host.Outcome State Fault Refusal :=
  scalarMem s (semOk a c) ([a.toNat, a.toNat + 1] ++ regs) fun x =>
    let va := pairAddr x.g a.toNat
    if va % 8 ≠ 0 then raise s x { code := 0x05, addr := va }
    else match globalFault s x va 4 wr with
      | some code => raise s x { code := code, addr := va }
      | none => f x va

/-- An increment leaves for the word's anchor: an acquire and release at its scope (R212, R323). -/
def execSeminc (d a : BitVec 6) (c : BitVec 3) (s : State) : Host.Outcome State Fault Refusal :=
  semCommon s a c [d.toNat] true fun x va =>
    withRelease s x 3 c.toNat fun g =>
      let o : PendOp := {
        id := s.fresh, group := x.gi, lane := false, kind := .seminc, dest := .none, width := 4, sext := false, threads := 1,
        uni := false, attr := { order := 3, scope := c.toNat }, issued := s.now, pc := x.g.spc.toNat, fences := x.g.fences }
      let s1 := scalarDone (bumpFresh s) x { g with acquiring := g.acquiring ++ [s.fresh] }
      let s2 := modCore s1 x.core fun k => { k with ops := k.ops ++ [o] }
      let i : SemInc := {
        id := s.fresh, part := x.team.part, pasid := x.grid.pasid, va := va, hpa := hpaOf s x va, by_ := rdS x.g d.toNat,
        core := some x.core, grid := x.grid.seq, team := some x.team.index, op := some (x.core, s.fresh) }
      { touchPage s2 x va with incs := s2.incs ++ [i] }

/-- The count, as an acquire load. R212, R323. -/
def execSemtst (d a : BitVec 6) (c : BitVec 3) (s : State) : Host.Outcome State Fault Refusal :=
  semCommon s a c [d.toNat] false fun x va =>
    issueOp (scalarDone s x x.g) x
      { id := 0, group := x.gi, lane := false, kind := .ld, dest := .sregs d.toNat 1, width := 4, sext := false, threads := 1,
        uni := false, attr := { order := 1, scope := c.toNat }, issued := s.now, pc := x.g.spc.toNat, sem := true }
      (mkAccesses s x .ld 0 va 4 0 0 0 false)

/-- The pending list a word's waits stand in: that of its slice, or of its anchor where no slice holds the line. -/
def semList (s : State) (part hpa : Nat) : Nat :=
  match sliceOf (getPart s part) hpa with | some n => n | none => 65536 + anchorSite s part hpa

/-- The partition of a waiting group's core. -/
def waitPart (s : State) (w : SemWait) : Nat := match teamOf s w.core with | some t => t.part | none => 0

def semRoom (s : State) (part hpa : Nat) : Bool :=
  decide ((s.semWaits.filter fun w => w.listed && waitPart s w == part && semList s part w.hpa == semList s part hpa).length < 32)

/-- The count of a quiet word. -/
def semCount (s : State) (part hpa : Nat) : Nat := readPhysLE s part hpa 4

/-- A count written there; at the slice an access of class 0, since R190 names no class for it. (DEDUCED, log 5.) -/
def semPut (s : State) (part region hpa v : Nat) : State :=
  writePhys (touchSlice (pullLine s part (lineBase hpa)) part 0 region true (lineBase hpa)) part hpa (toBytes 4 v)

/-- A wait is satisfied: its target is subtracted, it leaves the list, and its group goes on, having acquired (R212, R214). -/
def semTake (s : State) (part : Nat) (w : SemWait) : State :=
  let s1 := semPut s part (coreRegion w.core) w.hpa (semCount s part w.hpa - w.target.toNat)
  modGroup { s1 with semWaits := s1.semWaits.filter fun q => !(q.core == w.core && q.group == w.group) } w.core w.group
    fun g => hear s.fresh (completeScalar s.now g)

/-- Waits until the count reaches a target, and subtracts it; a target of 0 only reads. R324. -/
def execSemwait (d a : BitVec 6) (c : BitVec 3) (s : State) : Host.Outcome State Fault Refusal :=
  semCommon s a c [d.toNat] true fun x va =>
    let h := hpaOf s x va
    let target := rdS x.g d.toNat
    let waits := s.semWaits.any fun w => w.core == x.core && w.group == x.gi
    if waits then s
    else if pageMoving (getPart s x.team.part) x.grid.pasid (va / 4096) || !lineQuiet s x.team.part (lineBase h) ||
        (headAcc (getCore s x.core) (lineBase h)).isSome then
      scalarWait s x .operand
    else
      let s0 := pullLine s x.team.part (lineBase h)
      let count := semCount s0 x.team.part h
      if target.toNat ≤ count then
        scalarDone (if target = 0 then s0 else semPut s0 x.team.part (coreRegion x.core) h (count - target.toNat)) x (hear s.fresh x.g)
      else
        let w : SemWait := { hpa := h, target := target, core := x.core, group := x.gi, listed := semRoom s x.team.part h, tried := s.now }
        scalarWait { s0 with semWaits := s0.semWaits ++ [w] } x (.sem (lineBase h))

/-- Pending waits on a word tested in arrival order. -/
def semServe (part : Nat) (s : State) (ws : List SemWait) : State :=
  ws.foldl (fun s w => if w.target.toNat ≤ semCount s part w.hpa then semTake s part w else s) s

/-- Whether an increment must wait: for accesses of its core that precede it (R158, R214), its line's among them (R205), or for the translation of a page that a
migration has taken away, unless it was made with the old one (R371, R372). -/
def incWaits (s : State) (i : SemInc) : Bool :=
  let v := getPart s i.part
  let before := match i.core with
    | some c => (getCore s c).accs.any fun a => a.state != .done &&
        (decide (a.id < i.after) || (decide (a.id < i.id) && lineBase a.hpa == lineBase i.hpa))
    | none => false
  let moving := match v.migs.find? fun q => q.pasid == i.pasid && q.page == i.va / 4096 && !q.installed with
    | none => false
    | some q => match v.shots.find? fun h => h.id == q.shot, i.core with
      | some h, some c => !h.toVisit.contains c && !(h.toAck.any fun r => r.1 == c && r.2.contains i.id)
      | _, _ => true
  before || moving

/-- A `seminc` whose increment has been executed completes: at team scope or below it stands as a release on its line (R218), and its
acquire half precedes what its group does next (R212). -/
def endSeminc (s : State) (i : SemInc) : State :=
  match i.op.bind fun q => (opOf (getCore s q.1) q.2).map fun o => (q.1, o) with
  | none => s
  | some (c, o) =>
    let s1 := if o.attr.scope ≤ 1 then modCore s c fun k => noteLine k (lineBase i.hpa) o.id o else s
    modGroup (dropOp s1 c o) c o.group fun g => hear s.fresh (wakeOperand g)

/-- An increment is executed at its word's anchor; then the pending waits are tested in arrival order. A grid's leases are released
after its retirement increment. R318, R323, R324. -/
def execSemaphoreIncrement (idx : Nat) (s : State) : Host.Outcome State Fault Refusal :=
  match s.incs[idx]? with
  | none => .next s
  | some i =>
    if (getPart s i.part).stopped || !lineQuiet s i.part (lineBase i.hpa) || incWaits s i then .next s
    else
      let s0 := pullLine s i.part (lineBase i.hpa)
      let s1 := semPut { s0 with incs := s0.incs.eraseIdx idx } i.part ((i.core.map coreRegion).getD 0) i.hpa ((semCount s0 i.part i.hpa + i.by_.toNat) % 2 ^ 32)
      let s2 := endSeminc s1 i
      let ws := s2.semWaits.filter fun w => w.listed && w.hpa == i.hpa && waitPart s w == i.part
      let s3 := semServe i.part s2 ws
      .next (if i.retires then releaseGrid s3 i.part i.grid else s3)

/-- A wait that found the list full tries again 2 µs later (10,000 link cycles); with an entry it stands behind those that have one. R324. -/
def execSemwaitListRetry (core group : Nat) (s : State) : Host.Outcome State Fault Refusal :=
  match s.semWaits.find? fun w => w.core == core && w.group == group with
  | none => .next s
  | some w =>
    let p := waitPart s w
    if coreStopped s core || w.listed || decide (s.now < w.tried + 10000) || !lineQuiet s p (lineBase w.hpa) then .next s
    else if w.target.toNat ≤ semCount s p w.hpa then .next (semTake s p w)
    else
      let others := s.semWaits.filter fun q => !(q.core == core && q.group == group)
      .next { s with semWaits := others ++ [{ w with listed := semRoom s p w.hpa, tried := s.now }] }

/-! ## Barriers -/

/-- The Noon context a barrier number names, and whether the acting core may use it (R327). -/
def noonOf (s : State) (part b : Nat) : Noon := mget {} (getPart s part).noon (b - 16)
def barFault (s : State) (x : Ctx) (b : Nat) : Bool :=
  let n := noonOf s x.team.part b
  16 ≤ b && (!n.armed || !noonBit n x.core)

/-- The generation count of a barrier. -/
def barGen (s : State) (x : Ctx) (b : Nat) : Word :=
  if b < 16 then (mget {} x.team.bars b).gen else (noonOf s x.team.part b).gen

/-- A Noon generation is under way once a group has arrived for it by `bararr`. (DEDUCED, log 30.) -/
def noonBegin (s : State) (part b : Nat) : State :=
  modPart s part fun v => { v with noon := mmod {} v.noon (b - 16) fun n => { n with begun := true } }

/-- Arrives for the current generation, as a release at pnl scope; a group that has arrived waits for the release first.
R213, R325 - R327. -/
def execBararr (b : BitVec 5) (s : State) : Host.Outcome State Fault Refusal :=
  scalarMem s (barOk b) [] fun x =>
    if barFault s x b.toNat then raise s x { code := 0x0F }
    else if x.g.arrived.contains b.toNat then scalarWait s x (.bar b.toNat)
    else withRelease s x 2 4 fun g =>
      let s1 := scalarDone s x { g with arrived := insertNat g.arrived b.toNat }
      if b.toNat < 16 then modTeam s1 x.core fun t => releaseBar t b.toNat
      else noonArrive (noonBegin s1 x.team.part b.toNat) x.core

/-- Waits while the group's arrival is not released, then receives the generation count. R213, R325 - R327. -/
def execBarwait (d : BitVec 6) (b : BitVec 5) (s : State) : Host.Outcome State Fault Refusal :=
  scalarMem s (barOk b) [d.toNat] fun x =>
    if barFault s x b.toNat then raise s x { code := 0x0F }
    else if x.g.arrived.contains b.toNat then scalarWait s x (.bar b.toNat)
    else scalarDone s x (wrS x.g d.toNat (barGen s x b.toNat))

/-- Every participant of a Noon context has arrived and none is saved: the generation counts up, every arrival is cleared, and
the changes of the mask for the next generation take effect. A generation for which no group has arrived does not release, so that
the teams of a grid that ends leave the count as it is (Tables 16-5, 17-4). R326, R327, R329. (DEDUCED, log 30.) -/
def execNoonRelease (part ctx : Nat) (s : State) : Host.Outcome State Fault Refusal :=
  let n := mget {} (getPart s part).noon ctx
  if (getPart s part).stopped || !n.armed || !n.begun || n.mask.isEmpty || !n.saved.isEmpty ||
      !(n.mask.all fun c => n.arrived.contains c) then .next s
  else
    let s1 := modPart s part fun v => { v with
      noon := mput v.noon ctx { n with gen := n.gen + 1, arrived := [], begun := false, mask := n.next } }
    let first := (minOf? n.mask).getD 0
    let s2 := traceEvent s1 part (coreRegion first) 4 first ctx (n.gen + 1).toNat
    .next ((mkeys s2.cores).foldl (fun s c => modTeam s c fun t =>
      if t.part = part then { t with groups := mmap (clearArrival (16 + ctx)) t.groups } else t) s2)

end Sys2Proof.Machine
end

