-- ==== Sys2Proof/Machine/System.lean ====
section
/-! DEFINITION. System registers (Table 20-5) read and written by SYSRD and SYSWR (R404), Noon's ARM (R328, R352), and TRAP,
TRET, DCLK and the illegal-instruction fault (R57, R396, R405, R407). -/

namespace Sys2Proof.Machine

open Sys2Proof

/-! ## Reading (R130, R177, R328, R331, R335, R351, R393, R412) -/

/-- Tiles a core's uncompleted commands name (R177), its partner's `.pair` commands among them. -/
def busyTiles (s : State) (core : Nat) (t : Team) : Nat :=
  let own := t.queue.filter fun q => q.kind != .mlb
  let led := if core % 2 = 1 ∧ t.partner.isSome then
      match teamOf s (pairOf core) with
      | some l => if l.grid = t.grid ∧ l.part = t.part then l.queue.filter fun q => q.pair && q.kind != .mlb else []
      | none => []
    else []
  (own ++ led).foldl (fun m q => Nat.lor m (2 ^ (q.tile % 8))) 0

def accstat (s : State) (core : Nat) (t : Team) : Nat :=
  t.ovf.toNat + busyTiles s core t * 2 ^ 8 + b2n (slaved s core) * 2 ^ 16

/-- HOTID and HOTR (R351). -/
def hotWord (h : HotReg) : Nat := h.core % 2 ^ 13 + h.temp.toNat * 2 ^ 16 + b2n h.valid * 2 ^ 31

/-- PWRSTAT of a region as a partition sees it (R351). -/
def pwrstat (r : Region) (p : PowerPart) : Nat :=
  p.rate % 2 ^ 7 + b2n r.droop * 2 ^ 7 + b2n r.therm * 2 ^ 8 + b2n p.bound * 2 ^ 9 + p.iest % 2 ^ 12 * 2 ^ 10

def nbctl (n : Noon) : Nat := b2n n.armed * 2 + b2n (!n.saved.isEmpty) * 4 + b2n n.armErr * 8

/-- LBT: the band from a core to each region, two bits each. -/
def lbt (core : Nat) : Nat :=
  (List.range 16).foldl (fun w h =>
    let band := match regionHops (coreRegion core) h with | 0 => 1 | 1 => 2 | _ => 3
    w + band * 4 ^ h) 0

/-- A region register as a program reads it. -/
def regionReg (s : State) (part n g : Nat) : Nat :=
  let r := getRegion s g
  let p := mget {} r.power part
  match n / 16 with
  | 0x20 => r.pwrcfg.toNat
  | 0x21 => r.thermcfg.toNat
  | 0x22 => pwrstat r p
  | 0x23 => p.evt.toNat + p.stepViol.toNat * 2 ^ 24
  | 0x24 => hotWord p.hot
  | 0x25 => (dayclock s g).toNat
  | _ => (mget 0 s.dcOff g).toNat

def nbReg (s : State) (part n : Nat) : Nat :=
  let v := mget {} (getPart s part).noon (n % 4)
  match n / 4 with
  | 0x40 => v.addr.toNat
  | 0x41 => nbctl v
  | _ => v.gen.toNat

/-- The scheduler counters (R335). (PRESUMED, log 31.) -/
def counterReg (k : Core) (n : Nat) : Nat :=
  if n < 0x310 then (mget 0 k.scalarSched.elig (n - 0x300)).toNat
  else if n < 0x320 then (mget 0 k.laneSched.elig (n - 0x310)).toNat
  else if n < 0x330 then (mget 0 k.scalarSched.stall (n - 0x320)).toNat
  else (mget 0 k.laneSched.stall (n - 0x330)).toNat

/-- The trap registers (R393). -/
def trapReg (g : Group) (n : Nat) : Nat :=
  match n with
  | 0x10 => g.trap.tvec.toNat
  | 0x11 => b2n g.trap.h + 2 * b2n g.lane.suspended
  | 0x12 => g.trap.tepc.toNat
  | 0x13 => g.trap.tlpc.toNat
  | 0x14 => g.trap.tcause.toNat
  | 0x15 => g.trap.taddr.toNat
  | _ => (g.trap.tmask.extractLsb' (32 * (n - 0x16)) 32).toNat

/-- The value of a system register, as many bits as it has. -/
def sysValue (s : State) (x : Ctx) (n : Nat) : Nat :=
  let k := getCore s x.core
  if 0x300 ≤ n then counterReg k n
  else if 0x200 ≤ n then (if hasRegion (getPart s x.team.part) (n % 16) then regionReg s x.team.part n (n % 16) else 0)
  else if 0x100 ≤ n then nbReg s x.team.part n
  else if 0x10 ≤ n then trapReg x.g n
  else match n with
    | 0 => (readFps x.g).toNat
    | 1 => accstat s x.core x.team
    | 2 => k.spwcfg.toNat
    | 3 => lbt x.core
    | 4 => hotWord (getPart s x.team.part).hotid
    | _ => k.emul.toNat

/-- A value written to a destination: one register, or a pair; s0 discards it. -/
def wrWide (x : Ctx) (d : BitVec 6) (wide : Bool) (v : Nat) : Group :=
  let g1 := markS x (wrS x.g d.toNat (BitVec.ofNat 32 v)) d.toNat false
  if wide && d != 0 then markS x (wrS g1 (d.toNat + 1) (BitVec.ofNat 32 (v / 2 ^ 32))) (d.toNat + 1) false else g1

def wideRegs (d : BitVec 6) (wide : Bool) : List Nat := if wide then [d.toNat, d.toNat + 1] else [d.toNat]

/-- Reads a system register, also under Schuss. R404. -/
def execSysrd (d : BitVec 6) (n : BitVec 12) (s : State) : Host.Outcome State Fault Refusal :=
  withCtx s fun x =>
    let wide := sysWide n.toNat
    if !sysOk d n then raiseIllegal s x
    else if waitsS s x (wideRegs d wide) then scalarWait s x .operand
    else scalarDone s x (wrWide x d wide (sysValue s x n.toNat))

/-! ## Writing -/

/-- Whether a number names an NB register, or a power register of a region, which only depth-0 grids write.
(PRESUMED, log 31.) -/
def depthZeroReg (n : Nat) : Bool := (decide (0x100 ≤ n) && decide (n < 0x10C)) || (decide (0x200 ≤ n) && decide (n < 0x250))

/-- Whether an arrival at a Noon context is pending (R328): one of a group on a core or Saved. A core that counts as arrived because
its team has ended waits for nothing. (DEDUCED, log 30.) -/
def noonPending (s : State) (part ctx : Nat) : Bool :=
  let holds := fun (t : Team) => (mvals t.groups).any fun g => g.arrived.contains (16 + ctx)
  (s.cores.any fun q => match q.2.team with | some t => t.part == part && holds t | none => false) ||
    (getPart s part).saved.any fun q => holds q.team

/-- An ARM is refused: the context stays as it is and ARMERR is set. -/
def refuseArm (s : State) (part ctx : Nat) : State :=
  modPart s part fun v => { v with noon := mmod {} v.noon ctx fun n => { n with armErr := true } }

/-- Whether a core named in a mask image is where a team stands, or stood when it was retired. -/
def stoodAt (t : Team) (here c : Nat) : Bool := here == c || t.stood.contains c

/-- An ARM with its image read: the mask is loaded, the generation is 0 and arrivals are cleared, unless it is refused. Bits of retired
cores are ignored, but that the team of one that was moved off it takes part where it stands, so that no follower meets the barrier
fault (R328, Table 16-6). (DEDUCED, log 33.) -/
def armNoon (s : State) (part ctx : Nat) (image : List Byte) : State :=
  let v := getPart s part
  let cores := maskCores image
  let named := fun (t : Team) (here : Nat) => cores.any (stoodAt t here)
  let ours := (mkeys s.cores).filterMap fun c => (teamOf s c).bind fun t => if t.part = part then some (c, t) else none
  let mask := ((ours.filter fun q => named q.2 q.1).map (·.1)).foldl insertNat
    (cores.filter fun c => !(getCore s c).retired && !(v.saved.any (·.team.lastCore == c) && !ours.any (·.1 == c)))
  let entry := fun (t : Team) (c : Nat) => ({ grid := t.grid, team := t.index, core := c, cur := true, nxt := true } : NoonSaved)
  let held := ((ours.filter fun q => q.2.state == .saving && named q.2 q.1).map fun q => entry q.2 q.1) ++
    (v.saved.filter fun q => named q.team q.team.lastCore).map fun q => entry q.team q.team.lastCore
  let bad := noonPending s part ctx || cores.any fun c => !(getCore s c).retired && !inRect v (coreSite c)
  if bad then refuseArm s part ctx
  else modPart s part fun v => { v with noon := mmod {} v.noon ctx fun n => { n with
      armed := true, gen := 0, mask := mask, next := mask, arrived := [], begun := false, saved := held } }

/-- Whether an access of a core to n bytes of virtual memory at `a` is still to be made: the core's own buffer holds their value
(R248). -/
def bytesOwed (s : State) (x : Ctx) (a n : Nat) : Bool :=
  (lineSegs a n).any fun q => (headAcc (getCore s x.core) (lineBase (physOf s x.team.part x.grid.pasid q.1))).isSome

/-- NBCTL written by a team: ARMERR is cleared by a 1; ARM reads the image as a load of the stream does: behind the writes of its core
that its group has acquired, and those to the image (R214, R248, R328, R352). -/
def writeNbctl (s : State) (x : Ctx) (ctx : Nat) (v : Word) : State :=
  let p := x.team.part
  let s0 := if v.getLsbD 3 then
      modPart s p fun q => { q with noon := mmod {} q.noon ctx fun n => { n with armErr := false } } else s
  let a := (mget {} (getPart s p).noon ctx).addr.toNat
  if !v.getLsbD 0 then scalarDone s0 x x.g
  else if a % 64 ≠ 0 then scalarDone (refuseArm s0 p ctx) x x.g
  else match globalFault s x a 1024 false with
    | some code => raise s x { code := code, addr := a }
    | none =>
      if acqPending x || (getCore s x.core).ops.any (fun o => o.group == x.gi && (!x.g.lane.started || !o.lane)) then
        scalarWait s x .operand
      else if hearWaits s x || bytesOwed s x a 1024 then drainUpTo (scalarWait s x .operand) x.core x.g.heard none
      else match reachOf s p x.grid.pasid a 1024 with
        | .ready =>
          let r := readV s0 p x.grid.pasid 0 (coreRegion x.core) a 1024
          scalarDone (armNoon r.1 p ctx r.2) x x.g
        | _ => scalarWait s x .operand

/-- The power registers a team writes: PWRCFG's STEPLIM and THERMCFG's TLIM stay system software's (R351); of PWREVT it sets its own
partition's counts (R378). (DEDUCED, log 37.) -/
def writePower (s : State) (part n g : Nat) (v : Word) : State :=
  if !hasRegion (getPart s part) g then s
  else modRegion s g fun r =>
    match n / 16 with
    | 0x20 => { r with pwrcfg := (r.pwrcfg &&& 0xFFF#32) ||| (v &&& 0x03FFF000#32) }
    | 0x21 => { r with thermcfg := (r.thermcfg &&& 0xFF#32) ||| (v &&& 0x00007F00#32) }
    | 0x23 => { r with power := mmod {} r.power part fun p => { p with evt := v.setWidth 24, stepViol := v.extractLsb' 24 8 } }
    | _ => r

/-- A register written that needs no more than its value. -/
def writeReg (s : State) (x : Ctx) (n v : Nat) : State :=
  let w := BitVec.ofNat 32 v
  let trap := fun (f : TrapRegs → TrapRegs) => scalarDone s x { x.g with trap := f x.g.trap }
  if 0x200 ≤ n ∧ n < 0x250 then scalarDone (writePower s x.team.part n (n % 16) w) x x.g
  else if 0x100 ≤ n ∧ n < 0x104 then
    scalarDone (modPart s x.team.part fun q => { q with noon := mmod {} q.noon (n % 4) fun c => { c with addr := BitVec.ofNat 57 v } }) x x.g
  else match n with
    | 0x000 => scalarDone s x (writeFps x.g w)
    | 0x001 => modTeam (scalarDone s x x.g) x.core fun t => { t with ovf := t.ovf &&& ~~~(w.extractLsb' 0 8) }
    | 0x002 => modCore (scalarDone s x x.g) x.core fun k => { k with spwcfg := w.extractLsb' 0 16 }
    | 0x010 => trap fun r => { r with tvec := w &&& 0xFFFFFFFC#32 }
    | 0x012 => trap fun r => { r with tepc := w }
    | 0x013 => trap fun r => { r with tlpc := w }
    | _ => scalarDone s x x.g

/-- Writes a system register. A read-only register or field stays as it is; NB and power registers need a depth-0 grid (R404). That it
ends an episode is R338's rule, followed where R404 has it execute under Schuss. (DEDUCED, log 24.) -/
def execSyswr (d : BitVec 6) (n : BitVec 12) (s : State) : Host.Outcome State Fault Refusal :=
  withCtx s fun x =>
    let wide := sysWide n.toNat
    let v := if d = 0 then 0 else if wide then rdPair x.g d.toNat else (rdS x.g d.toNat).toNat
    if !sysOk d n then raiseIllegal s x
    else if inEpisode x then stopEpisode s x
    else if waitsS s x (wideRegs d wide) then scalarWait s x .operand
    else if depthZeroReg n.toNat && x.grid.depth != 0 then raise s x { code := 0x11 }
    else if 0x104 ≤ n.toNat ∧ n.toNat < 0x108 then writeNbctl s x (n.toNat % 4) (BitVec.ofNat 32 v)
    else writeReg s x n.toNat v

/-! ## TRAP, TRET, DCLK -/

/-- Delivers a fault that `trap` and `brk` raise: the scalar stream resumes behind them (R394). -/
def deliverAfter (s : State) (x : Ctx) (code aux : Nat) : State :=
  let s1 := endEpisode (traceFault (withdraw s x.core x.gi) x.team.part x.core code x.grid.seq) x.core x.gi false
  modGroup s1 x.core x.gi fun g => pauseTimer s.now (deliverG g false { code := code, aux := aux } (x.g.spc + 4))

/-- A software trap: delivered, or recorded. R407. (DEDUCED, log 32.) -/
def execTrap (n : BitVec 12) (s : State) : Host.Outcome State Fault Refusal :=
  withCtx s fun x =>
    if inEpisode x then stopEpisode s x
    else if handles x.g then deliverAfter s x 0x18 n.toNat
    else if bufferFull s x.team.part (dieOf x.core) then scalarWait s x .operand
    else scalarDone (addRecord s (faultRecord s x { code := 0x18 } 0x18 n.toNat false)) x x.g

/-- Returns from the handler. R396. -/
def execTret (s : State) : Host.Outcome State Fault Refusal :=
  withCtx s fun x =>
    if !x.g.trap.h then raiseIllegal s x
    else if inEpisode x then stopEpisode s x
    else
      let g := issuedG s.now (trapReturnG x.g)
      putG s x (if x.g.lane.suspended && g.lane.running then resumeTimer s.now g else g)

/-- The raw Dayclock of the core's region. R350, R405. -/
def execDclk (d : BitVec 6) (s : State) : Host.Outcome State Fault Refusal :=
  withCtx s fun x =>
    if !pairOrZero d then raiseIllegal s x
    else if waitsS s x (wideRegs d true) then scalarWait s x .operand
    else scalarDone s x (wrWide x d true (dayclock s (coreRegion x.core)).toNat)

/-- A word without a meaning reaches issue. R57, R72, R391. -/
def execIllegalInstruction (lane : Bool) (slot : Nat) (s : State) : Host.Outcome State Fault Refusal :=
  withCtx s fun x => if x.lane = lane then raise s x { code := 0x01, slot := slot } else s

end Sys2Proof.Machine
end

