-- ==== Sys2Proof/Machine/Preempt.lean ====
section
/-! DEFINITION. Pre-emption: saving a team (R401, R402), restoring one with the replay of its B-store source record (R179, R353,
R403), and BRK, whose debug stop saves the team (R408). -/

namespace Sys2Proof.Machine

open Sys2Proof

/-! ## Beginning to save (R401, steps 1 to 3) -/

/-- A `waitln` that blocks a group completes, and its watch gives its line up (R268, R401). (DEDUCED, log 15.) -/
def leaveWatch (s : State) (c part g : Nat) : State :=
  match groupOf s c g with
  | some v => match v.wait with
    | .waitln line _ =>
      let armed := armedWatch (getCore s c) line
      let s1 := endWatch s c g
      if armed then giveUpWatch s1 c part line else s1
    | _ => s
  | none => s

/-- Every Noon context of which a core is a participant is held while its team is being saved and Saved (R327, R353, Table 16-3). -/
def holdNoon (t : Team) (c : Nat) (n : Noon) : Noon :=
  if n.mask.contains c || n.next.contains c then
    { dropSaved t.grid t.index n with saved := (dropSaved t.grid t.index n).saved ++
        [{ grid := t.grid, team := t.index, core := c, cur := n.mask.contains c, nxt := n.next.contains c }] }
  else n

/-- With its team Saved, a participant's place in the masks is kept beside them (R327). -/
def parkNoon (t : Team) (c : Nat) (n : Noon) : Noon :=
  if n.saved.any fun q => q.grid == t.grid && q.team == t.index then
    { n with mask := n.mask.filter (· != c), next := n.next.filter (· != c), arrived := n.arrived.filter (· != c) }
  else n

/-- The streams of the team on a core stop: blocked instructions are withdrawn, episodes end, reservations clear. -/
def saveOne (s : State) (c : Nat) : State :=
  match teamOf s c with
  | none => s
  | some t =>
    if !activeTeam t then s
    else
      let gs := mkeys t.groups
      let s1 := gs.foldl (fun s g => leaveWatch s c t.part g) s
      let s2 := gs.foldl (fun s g => takeBack s c g) s1
      let s3 := gs.foldl (fun s g => endEpisode s c g false) s2
      let s4 := modTeam s3 c fun t => { t with state := .saving, groups := mmap (fun g => { g with resv := [] }) t.groups }
      modPart s4 t.part fun v => { v with noon := mmap (holdNoon t c) v.noon }

/-- Whether the two cores of a matrix pair hold partners. -/
def partnered (s : State) (c : Nat) : Bool :=
  match teamOf s c, teamOf s (pairOf c) with
  | some t, some u => t.part == u.part && t.grid == u.grid && t.partner == some u.index
  | _, _ => false

/-- The cores that save together (R156). -/
def saveCores (s : State) (c : Nat) : List Nat := if partnered s c then [c, pairOf c] else [c]

/-- A team, with its partner, begins to be saved. -/
def beginSave (s : State) (c : Nat) : State := (saveCores s c).foldl saveOne s

/-! ## PREEMPT -/

/-- Cores whose team is one of those a pre-emption names. -/
def namedCores (s : State) (part grid : Nat) (team : Option Nat) : List Nat :=
  (s.cores.filter fun q => match q.2.team with
    | some t => t.part == part && t.grid == grid && (match team with | some i => t.index == i | none => true) &&
        (activeTeam t || t.state == .saving)
    | none => false).map (·.1)

def teamIndex (s : State) (c : Nat) : List Nat := match teamOf s c with | some t => [t.index] | none => []

/-- The record of a finished pre-emption. (DEDUCED, log 33.) -/
def preemptRecord (s : State) (part grid n : Nat) : State :=
  addRecord s { code := 0x44, aux := BitVec.ofNat 32 n, grid := grid, part := part, dc := dayclock s 0,
                pasid := match gridOf s part grid with | some g => g.pasid | none => 0 }

/-- System software pre-empts a grid or one team; with nothing to save it is complete at once. R401. (DEDUCED, log 33.) -/
def execPreempt (part grid : Nat) (team : Option Nat) (s : State) : Host.Outcome State Fault Refusal :=
  let cs := ((namedCores s part grid team).flatMap (saveCores s)).foldl addNew []
  let idx := cs.flatMap (teamIndex s)
  if idx = [] then .next (unlessFull s (preemptRecord s part grid 0) part)
  else
    let s1 := cs.foldl saveOne s
    .next (modPart s1 part fun v => { v with saves := v.saves ++ [{ grid := grid, teams := idx, count := idx.length }] })

/-! ## Saving (R401, steps 4 to 8; R402) -/

/-- Whether a partner's command runs in a core's array: an emulated one stands at a chunk boundary and is saved there (R179). -/
def slavedArray (s : State) (c : Nat) : Bool :=
  slaved s c && (match runningCmd s (pairOf c) with | some q => !q.emul | none => false)

/-- Whether nothing of a core's team is under way any more: every access has completed, no command runs but an emulated MMA at
a chunk boundary, no partner's command runs in its array, and no `.aon` copy stands with an odd version word. -/
def saveReady (s : State) (c : Nat) (t : Team) : Bool :=
  let k := getCore s c
  !(getPart s t.part).stopped && t.state == .saving && k.ops.isEmpty && k.accs.isEmpty && k.misses.isEmpty &&
    (match runningCmd s c with | some q => q.emul | none => true) && !slavedArray s c && t.copies.all (·.odd.isNone) &&
    (getDie s (dieOf c)).reset.isNone

/-- B-store bytes an entry covers. -/
def entryBytes (e : SrcEntry) : Nat := sumOf (e.segs.map (·.2))

/-- The source record a team is saved with: a copy into the B-store that is under way has an entry of what it has written. R179. -/
def parkSources (t : Team) : List SrcEntry :=
  (t.copies.filter fun c => fDstB c.flags.toNat && c.units != 0).foldl (fun l c => addSource l (copySource c false)) t.srcRec

/-- The bytes a team's context takes. -/
def contextBytes (t : Team) : Nat :=
  4096 + scratchSize t + 16384 * t.tilesN +
    sumOf ((mvals t.groups).map fun g => 384 * t.base + 12288 * popMask g.windows + 2048) +
    sumOf (((parkSources t).filter (·.byValue)).map entryBytes)

/-- Free bytes of a partition's context area. -/
def areaFree (v : Partition) : Nat := fld v.ctxarea.toNat 22 10 * GiB - sumOf (v.saved.map (·.bytes))

/-- A group as its context holds it: timers and fences of the stream on the core are gone. -/
def parkGroup (g : Group) : Group :=
  { g with boosted := none, readySince := none, laneReadySince := none, fenceAt := none, fences := {}, acquiring := [],
           heard := 0, lane := { g.lane with offSince := none, offHeld := 0, fenceAt := none, gathered := none } }

/-- A copy as its context holds it; an `.aon` reads its whole source again (R402). -/
def parkCopy (c : Copy) : Copy := if c.kind = .aon then { c with units := 0, buffer := [], written := 0 } else c

/-- B-store bytes that are saved by value. -/
def valueBytes (bst : List Host.Cell) (t : Team) : List (Nat × Byte) :=
  ((parkSources t).filter (·.byValue)).flatMap fun e => e.segs.flatMap fun q => (upFrom q.1 q.2).map fun a => (a, readByte bst a)

def parkTeam (bst : List Host.Cell) (c : Nat) (t : Team) : Team :=
  { t with
    state := .saved, lastCore := c, xacq := [], savedB := valueBytes bst t,
    groups := t.groups.map fun g => (g.1, { parkGroup g.2 with
      acquiring := (t.copies.filter fun q => issuedBy t g.1 q.group q.id && awaitsVersion (parkCopy q)).map (·.id) }),
    queue := t.queue.map fun q => { q with running := false, withheld := false },
    srcRec := parkSources t,
    copies := t.copies.map parkCopy }

/-- The unit under test that a save makes room for (R410). -/
def heldUnit (s : State) (c : Nat) : Option UnitId :=
  s.testing.find? fun u => u == .core c || u == .router (coreSite c) || (u == .dcc (dieOf c) && (getDie s (dieOf c)).asked)

/-- One team saved of those a pre-emption named: with the last, its record is raised. -/
def saveCounted (s : State) (part grid team : Nat) : State :=
  let upd := (getPart s part).saves.map fun r => if r.grid = grid then { r with teams := r.teams.filter (· != team) } else r
  let s1 := modPart s part fun v => { v with saves := upd.filter fun r => !r.teams.isEmpty }
  (upd.filter (·.teams.isEmpty)).foldl (fun s r => preemptRecord s part r.grid r.count) s1

/-- The context of the team on a core is written, and the core is free. -/
def saveContext (s : State) (c : Nat) : State :=
  match teamOf s c with
  | none => s
  | some t =>
    let sv : Saved := { team := parkTeam (getCore s c).bstore c t, bytes := contextBytes t, heldFor := heldUnit s c }
    let s1 := emptyCore s c t.part
    let s2 := modPart s1 t.part fun v => { v with saved := v.saved ++ [sv], noon := mmap (parkNoon t c) v.noon }
    saveCounted (traceEvent s2 t.part (coreRegion c) 3 c t.grid t.index) t.part t.grid t.index

/-- The core on which a team stands. -/
def coreOfTeam (s : State) (part grid team : Nat) : Option Nat :=
  (s.cores.find? fun q => match q.2.team with
    | some t => t.part == part && t.grid == grid && t.index == team
    | none => false).map (·.1)

/-- A team that is being saved has nothing under way, with its partner: its context is written, room permitting. R401, R402. -/
def execPreemptComplete (part grid team : Nat) (s : State) : Host.Outcome State Fault Refusal :=
  match coreOfTeam s part grid team with
  | none => .next s
  | some c =>
    let cs := saveCores s c
    let ts := cs.filterMap (teamOf s)
    if (cs.all fun k => match teamOf s k with | some t => saveReady s k t | none => false) &&
        decide (sumOf (ts.map contextBytes) ≤ areaFree (getPart s part)) then
      .next (unlessFull s (cs.foldl saveContext s) part)
    else .next (cs.foldl (fun s k => drainUpTo s k s.fresh none) s)

/-! ## The replay of a B-store source record (R179, R381) -/

/-- One piece of a replay: local or global source, its address, the B-store address, the length. -/
structure Piece where
  loc : Bool
  src : Nat
  dst : Nat
  len : Nat
  deriving DecidableEq, Repr

/-- The core whose scratch a replayed command reads: a `.pair` command read the leader's, which the follower reaches while its
partner stands beside it. -/
def replaySource (s : State) (core : Nat) (e : SrcEntry) : Option Nat :=
  if !e.upper then some core else if partnered s core then some (pairOf core) else none

/-- The source address an entry names. -/
def entrySource (e : SrcEntry) : Nat :=
  match e.cmd, e.copy with | some q, _ => q.addr | none, some c => c.src | none, none => 0

/-- The pieces of an entry, whole or of the units it had done; a gather's through the index list as it was read at issue; those of a sealed copy are decrypted apart. -/
def entryPieces (e : SrcEntry) : List Piece :=
  match e.cmd, e.copy with
  | some q, _ =>
    let first := if e.upper then 64 else 0
    let sb := q.shape.toNat
    tab 64 fun j => { loc := q.loc, src := q.addr + (first + j) * mlbStride sb, dst := 32768 * j + mlbBoff sb, len := mlbLen sb }
  | none, some c =>
    let l := fSrcLocal c.flags.toNat
    if c.units ≠ 0 then (doneSegs c).map fun p => { loc := l, src := p.1, dst := p.2.1, len := p.2.2 }
    else match c.kind with
    | .d2 => tab c.n fun r => { loc := l, src := c.src + r * c.sstride, dst := c.dst + r * c.dstride, len := c.len }
    | .gather => tab c.n fun k =>
        { loc := l, src := c.src + c.index.getD k 0 * c.sstride, dst := c.dst + k * c.len, len := c.len }
    | .seal => []
    | _ => [{ loc := l, src := c.src, dst := c.dst, len := c.len }]
  | none, none => []

/-- A source byte as the team's leases and translations stand, or none. -/
def sourceByte (s : State) (part : Nat) (g : Grid) (a : Nat) : Option Byte :=
  if !leaseOk g a 1 false then none
  else match translate s part g.pasid a with
    | .ok h => some (byteValue s part h)
    | _ => none

def sourceBytes (s : State) (part : Nat) (g : Grid) (a n : Nat) : List (Option Byte) := tab n fun i => sourceByte s part g (a + i)

/-- A line of a page in migration is pulled before it is read (R371). -/
def pullRange (s : State) (part : Nat) (g : Grid) (core a n : Nat) : State :=
  (lineSegs a n).foldl (fun s q => match translate s part g.pasid q.1 with
    | .ok h => touchSlice (pullLine s part (lineBase h)) part 1 (coreRegion core) false (lineBase h)
    | _ => s) s

/-- One piece replayed; whether all its bytes were available. Bytes that are not are written as zeros. -/
def replayPiece (part : Nat) (g : Grid) (from_ : Option Nat) (core : Nat) (acc : State × Bool) (p : Piece) : State × Bool :=
  if p.loc then
    match from_ with
    | some c => (putBstore acc.1 core p.dst (scratchBytes acc.1 c p.src p.len), acc.2)
    | none => (putBstore acc.1 core p.dst (List.replicate p.len 0), false)
  else
    let s1 := pullRange acc.1 part g core p.src p.len
    let bs := sourceBytes s1 part g p.src p.len
    (putBstore s1 core p.dst (bs.map fun b => b.getD 0), acc.2 && bs.all (·.isSome))

/-- Bytes of a sealed copy that an entry covers. -/
def sealedLen (c : Copy) : Nat := if c.units = 0 then c.len else 4096 * c.units

/-- A sealed copy replayed under the key its slot holds now: each block is decrypted; one that is not available or does not
authenticate becomes zeros. (DEDUCED, log 33.) -/
def replaySealed (s : State) (part : Nat) (g : Grid) (core : Nat) (key : BitVec 256) (c : Copy) : State × Bool :=
  (List.range (sealedLen c / 4096)).foldl (fun acc k =>
    let b := c.sstride + k
    let s1 := pullRange (pullRange acc.1 part g core (c.src + 4096 * k) 4096) part g core (c.aux + 16 * b) 16
    let data := sourceBytes s1 part g (c.src + 4096 * k) 4096
    let tag := sourceBytes s1 part g (c.aux + 16 * b) 16
    let plain := if (data ++ tag).all (·.isSome) then
        openSealed key c.nonce b (data.map fun v => v.getD 0) (tag.map fun v => v.getD 0) else none
    (putBstore s1 core (c.dst + 4096 * k) (plain.getD (List.replicate 4096 0)), acc.2 && plain.isSome)) (s, true)

def replayRecord (s : State) (part : Nat) (g : Grid) (code addr : Nat) : State :=
  addRecord s { code := code, grid := g.seq, addr := BitVec.ofNat 57 addr, pasid := g.pasid, part := part, dc := dayclock s 0 }

/-- One entry replayed, with its record where a source was unavailable or its key slot is empty. -/
def replayEntry (part : Nat) (g : Grid) (core : Nat) (s : State) (e : SrcEntry) : State :=
  let report := fun (r : State × Bool) => if r.2 then r.1 else replayRecord r.1 part g 0x35 (entrySource e)
  match e.copy with
  | some c =>
    if c.kind = .seal then
      match mget? (getPart s part).keys (fSlot c.flags.toNat) with
      | some k => report (replaySealed s part g core k.key c)
      | none => replayRecord (putBstore s core c.dst (List.replicate (sealedLen c) 0)) part g 0x34 (entrySource e)
    else report ((entryPieces e).foldl (replayPiece part g (replaySource s core e) core) (s, true))
  | none => report ((entryPieces e).foldl (replayPiece part g (replaySource s core e) core) (s, true))

/-- The global ranges a replay reads. -/
def replayRanges (e : SrcEntry) : List (Nat × Nat) :=
  match e.copy with
  | some c => if c.kind = .seal then [(c.src, sealedLen c), (c.aux + 16 * c.sstride, 16 * (sealedLen c / 4096))]
              else ((entryPieces e).filter (!·.loc)).map fun p => (p.src, p.len)
  | none => ((entryPieces e).filter (!·.loc)).map fun p => (p.src, p.len)

/-- Whether every line a replay reads is quiet. -/
def replayQuiet (s : State) (part : Nat) (g : Grid) (t : Team) : Bool :=
  (t.srcRec.filter (!·.byValue)).all fun e => (replayRanges e).all fun r => (lineSegs r.1 r.2).all fun q =>
    match translate s part g.pasid q.1 with | .ok h => lineQuiet s part (lineBase h) | _ => true

/-- The B-store of a restored core: the bytes saved by value, then the record in order. -/
def replayAll (s : State) (part : Nat) (g : Grid) (core : Nat) (t : Team) : State :=
  let s1 := modCore s core fun k => { k with bstore := t.savedB.foldl (fun m q => writeByte m q.1 q.2) k.bstore }
  (t.srcRec.filter (!·.byValue)).foldl (replayEntry part g core) s1

/-! ## RESTORE (R353, R403) -/

def savedOf (v : Partition) (grid team : Nat) : Option Saved := v.saved.find? fun q => q.team.grid == grid && q.team.index == team

/-- A team as it stands on its core again: the bins' timers start again from zero (R48), the path-switch timer at 0 (R310). -/
def wakeTeam (s : State) (core : Nat) (t : Team) : Team :=
  let period := spawnPeriodOf (getCore s core).spwcfg
  { t with
    state := if (mvals t.groups).any (·.state == .exiting) then .draining else .resident,
    lastCore := core, savedB := [],
    groups := mmap (fun g => timerG s.now g) t.groups,
    bins := mmap (fun b => { b with due := s.now + period, expired := false }) t.bins }
where
  /-- Units of 8 ns, 40 link cycles; 0 acts as 1 (R331). -/
  spawnPeriodOf (w : BitVec 16) : Nat := 40 * (if w = 0 then 1 else w.toNat)

/-- Whether a saved team holds a pending arrival of its core at a Noon context (R326, R353). -/
def pendingAt (t : Team) (ctx : Nat) : Bool :=
  !t.groups.isEmpty && (mvals t.groups).all fun g => g.arrived.contains (16 + ctx) || g.state == .exiting

/-- The participants of a Noon context after a team's restore onto core `new`: it takes the place of the core the team left. It counts
as arrived for this generation exactly with a pending arrival (R327, R353); a retired core's successor without one is waited for, so
that every run ends as Table 16-5 has it (R354). (DEDUCED, log 33.) -/
def moveNoon (t : Team) (new ctx : Nat) (n : Noon) : Noon :=
  match n.saved.find? fun q => q.grid == t.grid && q.team == t.index with
  | none => n
  | some e => { dropSaved t.grid t.index n with
      mask := if e.cur then insertNat n.mask new else n.mask,
      next := if e.nxt then insertNat n.next new else n.next,
      arrived := if pendingAt t ctx then insertNat n.arrived new else n.arrived.filter (· != new) }

/-- A pending `coll` is issued again after a restore: on a core outside its mask it raises the copy-operand fault (R280, R282).
(DEDUCED, log 27.) -/
def reissueColls (core : Nat) (t : Team) : Team :=
  let bad := t.colls.filter fun c => !c.cores.contains core
  { t with
    colls := (t.colls.filter fun c => c.cores.contains core).map fun c => { c with core := core },
    asyncErr := t.asyncErr ++ bad.map fun c =>
      { group := c.group, pc := c.pc, code := 0x0D, desc := BitVec.ofNat 32 c.desc, after := c.after } }

/-- One context put onto a core. -/
def putContext (s : State) (part : Nat) (core : Nat) (q : Saved) : State :=
  let old := q.team.lastCore
  let stood := if (getCore s old).retired then insertNat q.team.stood old else q.team.stood
  let s1 := putTeam s core (reissueColls core { wakeTeam s core q.team with stood := stood })
  modPart s1 part fun v => { v with
    saved := v.saved.filter fun r => !(r.team.grid == q.team.grid && r.team.index == q.team.index),
    noon := v.noon.map fun n => (n.1, moveNoon q.team core n.1 n.2) }

/-- The contexts restored together with one, each with its place in the matrix pair. -/
def restoreSet (v : Partition) (q : Saved) : List Saved :=
  match q.team.partner with
  | some i => match savedOf v q.team.grid i with
    | some r => if q.team.lastCore % 2 = 0 then [q, r] else [r, q]
    | none => [q]
  | none => [q]

/-- Whether a core may take a restored team (R403): the placement mask binds only the launch unit's own choice. -/
def restoreFits (s : State) (part : Nat) (g : Grid) (core n : Nat) : Bool :=
  let fits := fun c => coreFits s part { g with regions := BitVec.allOnes 16 } c
  if n = 1 then fits core else fits core && fits (pairOf core)

/-- The core a launch unit chooses: the lowest that fits inside the placement mask. (DEDUCED, log 33.) -/
def restoreChoice (s : State) (part : Nat) (g : Grid) (n : Nat) : Option Nat :=
  ((compDies (getPart s part)).flatMap dieCores).find? fun c =>
    coreFits s part g c && (n == 1 || (c % 2 == 0 && coreFits s part g (c + 1)))

/-- Contexts put onto consecutive cores and their records replayed. -/
def restoreOnto (s : State) (part : Nat) (g : Grid) (core : Nat) (qs : List Saved) : State :=
  let base := if qs.length = 1 then core else alignDown core 2
  let placed := (List.range qs.length).zip qs
  let s1 := placed.foldl (fun s q => putContext s part (base + q.1) q.2) s
  placed.foldl (fun s q => replayAll s part g (base + q.1) q.2.team) s1

/-- A saved team, with its partner, goes back onto a core that system software names or the launch unit chooses. A core that
cannot take it refuses with a 0x42 record; without a free core it stays saved (R353, R403). -/
def restoreTeam (s : State) (part grid team : Nat) (core : Option Nat) : State :=
  match savedOf (getPart s part) grid team, gridOf s part grid with
  | some q, some g =>
    let qs := restoreSet (getPart s part) q
    if g.revoked || (getPart s part).stopped then s else
    match (match core with | some c => some c | none => restoreChoice s part g qs.length) with
    | none =>
      if qs.length = 2 then unlessFull s (addRecord s { code := 0x42, grid := grid, pasid := g.pasid, part := part, dc := dayclock s 0 }) part
      else s
    | some c =>
      if !restoreFits s part g c qs.length then
        unlessFull s (addRecord s { code := 0x42, grid := grid, pasid := g.pasid, part := part, dc := dayclock s 0 }) part
      else if qs.all fun r => replayQuiet s part g r.team then unlessFull s (restoreOnto s part g c qs) part
      else s
  | _, _ => s

/-- RESTORE. R353, R403. -/
def execRestore (part grid team : Nat) (core : Option Nat) (s : State) : Host.Outcome State Fault Refusal :=
  .next (restoreTeam s part grid team core)

/-! ## BRK -/

/-- A breakpoint: with the debug stop armed the team is saved behind it and a record carries its number; else it is delivered to
a handler; else it has no effect. R408. (DEDUCED, log 33.) -/
def execBrk (n : BitVec 12) (s : State) : Host.Outcome State Fault Refusal :=
  withCtx s fun x =>
    if inEpisode x then stopEpisode s x
    else if (getPart s x.team.part).dbg then
      if bufferFull s x.team.part (dieOf x.core) then scalarWait s x .operand
      else beginSave (scalarDone (addRecord s (faultRecord s x { code := 0x43 } 0x43 n.toNat false)) x x.g) x.core
    else if handles x.g then deliverAfter s x 0x19 n.toNat
    else scalarDone s x x.g

end Sys2Proof.Machine
end

