-- ==== Sys2Proof/Machine/Errors.lean ====
section
/-! DEFINITION. Errors and self-tests (R409 - R412), resets of a die with its router (R413), starts (R415, R416), Curfew (R420)
and watchpoints (R421). -/

namespace Sys2Proof.Machine

open Sys2Proof

/-! ## Units (Table 21-1, R412) -/

def unitClass (u : UnitId) : Nat :=
  match u with | .core _ => 0 | .dcc _ => 1 | .slice _ | .sliceWay .. => 2 | .dramRow .. => 3 | .linkLane .. => 4 | .pisteWay .. => 5 | .router _ => 6

/-- The number MERRLAST gives a unit. Table 0-3 and R412 number no slice, DRAM row group or Piste way: a slice has its index in
`State.slices`, 8 times its memory site plus its number there; a row group its row alone; a way 8 times the site plus the way.
(PRESUMED, log 31.) -/
def unitNumber (u : UnitId) : Nat :=
  match u with
  | .core n | .dcc n | .slice n | .sliceWay n _ | .dramRow _ n | .linkLane n _ | .router n => n
  | .pisteWay site way => 8 * site + way

def unitSite (u : UnitId) : Nat :=
  match u with
  | .core n => coreSite n
  | .dcc n => dieSite n
  | .slice n | .sliceWay n _ => msSite (n / 8)
  | .dramRow site _ | .pisteWay site _ | .router site => site
  | .linkLane n _ => linkSite n

def unitRetired (s : State) (u : UnitId) : Bool :=
  s.nvRetired.contains u || (match u with | .core c => (getCore s c).retired | .dcc d => (getDie s d).retired | _ => false)

/-- MERRLAST for an error. -/
def lastError (s : State) (u : UnitId) (k : ErrorKind) : BitVec 64 :=
  let kind := match k with | .corrected => 0 | .consumed => 1 | .writeBack _ => 2
  let part := match k with | .writeBack p => p | _ => (partOfSite s (unitSite u)).getD 63
  let stop := match k with | .writeBack _ => 1 | _ => 0
  BitVec.ofNat 64 (unitClass u + unitNumber u % 2 ^ 16 * 2 ^ 4 + kind * 2 ^ 20 + part % 64 * 2 ^ 22 + stop * 2 ^ 28 +
    (dayclock s (regionOfSite (unitSite u))).toNat % 2 ^ 32 * 2 ^ 32)

/-- An uncorrectable word in a dirty line on its way to storage: every task of its partition ends, and nothing more is placed
(R411). -/
def stopTasks (s : State) (p : Nat) : State :=
  let tasks := (((getPart s p).grids.filter fun g => g.state != .retired).map (·.task)).foldl addNew []
  modPart (tasks.foldl (fun s t => endTask s p t) s) p fun v => { v with noPlace := true }

/-! ## Resetting a site (R413) -/

/-- Teams of a die begin to be saved. -/
def saveDie (s : State) (die : Nat) : State :=
  (((dieCores die).filter fun c => (teamOf s c).isSome).flatMap (saveCores s)).foldl saveOne s

def dieEmpty (s : State) (die : Nat) : Bool := (dieCores die).all fun c => (teamOf s c).isNone

/-- Every Stable entry of a router begins to be cut, as if evicted. -/
def cutRouter (s : State) (site : Nat) : State :=
  ((getRouter s site).entries.filter fun e => e.state == .stable).foldl (fun s e => beginCut s site e) s

/-- The host port or panel link of a site is drained: it gives up what it holds, and the lines anchored there go back to the host or
the other panel (R413). -/
def drainEdge (s : State) (site : Nat) : State :=
  let mine := s.proxies.filter fun q => requesterSite q.req == site
  let partOf := fun (q : Proxy) => ((s.parts.find? fun v => (memHome v.2 q.line).isSome).map (·.1)).getD 0
  mine.foldl (fun s q => giveUpProxy s (partOf q) q) s

/-- Lines and tiles anchored at a site under reset go back to the host or the other panel, once their cuts' acks are in (R413,
step 3). (DEDUCED, log 39.) -/
def returnEdge (s : State) (site : Nat) : State :=
  let back := fun (part line : Nat) => anchorSite s part line == site && (entryAt s site part line).isNone && baseQuiet s part line
  { s with hostLines := s.hostLines.filter fun q => !back (q.1 % 64) (q.1 / 64),
           tiles := s.tiles.filter fun q => !s.parts.any fun v =>
             (apOf v.2 (2048 * q.1)).isSome && (tileLines q.1).all (back v.1) }

/-- Whether Curfew has stopped the partition of a site: a reset there stops where it stands (R420). -/
def siteStopped (s : State) (site : Nat) : Bool :=
  match partOfSite s site with | some p => (getPart s p).stopped | none => false

/-- Steps 1 to 3: the die places no team and its teams are saved; then every router routes around the site, its entries are cut and
its edge attachment is drained. -/
def resetSite (s : State) (site : Nat) : State :=
  let key := siteKey site
  let die := unitOfSite site
  if (getDie s key).reset.isSome || siteStopped s site then s
  else if isComputeSite site && !dieEmpty s die then saveDie (modDie s key fun d => { d with asked := true }) die
  else drainEdge (cutRouter (modDie s key fun d => { d with asked := false, reset := some s.now }) site) site

/-- The site of a key of the die table. -/
def keySite (key : Nat) : Nat := if key < 256 then dieSite key else msSite (key - 256)

/-- What of a reset goes on by itself: one that was asked for, or that a router under test needs, once the die's teams are saved; and
the return of what a drained edge attachment held. A die whose control core is under test is not reset for it. R410, R413.
(DEDUCED, log 39.) -/
def resetGoesOn (key : Nat) (s : State) : Host.Outcome State Fault Refusal :=
  let site := keySite key
  let d := getDie s key
  .next (
    if d.reset.isSome then (if siteStopped s site then s else returnEdge s site)
    else if (d.asked && !s.testing.contains (.dcc key)) || (s.testing.contains (.router site) && !d.forced) then resetSite s site
    else s)

/-! ### Forcing (R413, step 4) -/

/-- What a neighbour does about an entry that faces a forced site which holds none for its line (R413): it cuts its own subtree
when its root faces the site, and clears the port when a port of its mask does. -/
def neighbourCut (site : Nat) (p : Port) (s : State) (e : Entry) : State :=
  let n := neighbour site p
  if (entryAt s site e.part e.line).isSome then s
  else if e.root = opposite p then (if e.state = .stable then beginCut s n e else s)
  else if portHas e.mask (opposite p) then hop s (cutMsg e.line e.part .prune) site p
  else s

/-- Step 4: packets still inside are discarded, and the neighbours finish every cut that has not completed: the entries of the site
stand for what they do until their acks are in, by the detour. (DEDUCED, log 39.) -/
def forceSite (s : State) (site : Nat) : State :=
  let inside := fun (m : Msg) => !isTeardown m.kind && (match m.loc with | .router n _ => n == site | .site n => n == site)
  let lost := s.net.filter inside
  let held := (getRouter s site).merges
  let s1 := modRouter { s with net := s.net.filter fun m => !inside m } site fun r => { r with merges := [] }
  let s2 := held.foldl (fun s q => (q.absorbed.map fun a => (a.req, a.txn)).foldl (fun s a => purgeTxn s q.part q.line a.1 a.2)
    (purgeTxn s q.part q.line q.req q.txn)) s1
  let s3 := cutRouter (lost.foldl discard s2) site
  let s4 := (meshPorts.filter fun p => hasPort site p).foldl (fun s p =>
    (getRouter s (neighbour site p)).entries.foldl (neighbourCut site p) s) s3
  let s5 := { modDie s4 (siteKey site) (fun d => { d with forced := true, tlb := [] }) with
    anchors := s4.anchors.filter fun a => anchorSite s4 a.msg.part a.line != site }
  let cs := if isComputeSite site then dieCores (unitOfSite site) else []
  let s6 := cs.foldl (fun s c => modCore s c fun k => { k with l1 := [], tlb := [], bstore := [] }) s5
  { s6 with testing := if s6.testing.contains (.router site) then s6.testing else s6.testing ++ [.router site] }

/-- System software resets a compute die: once its teams are saved the reset goes on. R413. (DEDUCED, log 39.) -/
def execDieReset (die : Nat) (s : State) : Host.Outcome State Fault Refusal :=
  .next (if die < 256 then resetSite s (dieSite die) else s)

/-- 10 µs (50,000 link cycles) after a die's reset began it is forced, unless Curfew has stopped it; the die and its router are then
under test. R413, R420. -/
def execDieResetForce (die : Nat) (s : State) : Host.Outcome State Fault Refusal :=
  match (getDie s die).reset with
  | some t =>
    let site := keySite die
    if (getDie s die).forced = false ∧ t + 50000 ≤ s.now ∧ siteStopped s site = false then .next (forceSite s site) else .next s
  | none => .next s

/-! ## Self-tests (R410, Table 21-1) -/

/-- The unit whose error flags another for the self-test of a warm start: the slice of a way (Table 21-1). -/
def flaggedAs (u : UnitId) : UnitId := match u with | .sliceWay n _ => .slice n | u => u

/-- An error is found in a unit: it goes under test and out of service as Table 21-1 sets out. `bad`: the uncorrectable words
that the save of a core's team lists (R411). R410, R411. (DEDUCED, log 39.) -/
def execSelfTestStart (unit : UnitId) (kind : ErrorKind) (bad : List BadWord) (s : State) : Host.Outcome State Fault Refusal :=
  let unit := flaggedAs unit
  if unitRetired s unit then .next s
  else
    let s0 := { s with merr := { s.merr with lastRec := lastError s unit kind } }
    let s1 := match kind with | .writeBack p => stopTasks s0 p | _ => s0
    if s1.testing.contains unit then .next s1
    else
      let s2 := { s1 with testing := s1.testing ++ [unit],
                          flagged := if s1.flagged.contains unit then s1.flagged else s1.flagged ++ [unit] }
      match unit with
      | .core c => .next (beginSave (modTeam (modCore s2 c fun k => { k with testing := true }) c fun t => { t with bad := t.bad ++ bad }) c)
      | .router site => .next (resetSite s2 site)
      | _ => .next s2

/-- What a retired core does to a Noon context: with a team it counts as arrived and leaves with the next generation, and the
context is held; without one that has arrived its bit goes at once (R327, R353). (DEDUCED, log 33.) -/
def retireNoon (c : Nat) (team : Option Team) (n : Noon) : Noon :=
  let next := n.next.filter (· != c)
  if !n.mask.contains c && !n.next.contains c then n
  else match team with
    | some t =>
      let n1 := if n.saved.any fun q => q.grid == t.grid && q.team == t.index then n else holdNoon t c n
      { n1 with next := next, arrived := if n.mask.contains c then insertNat n.arrived c else n.arrived }
    | none => if n.arrived.contains c then { n with next := next } else { n with mask := n.mask.filter (· != c), next := next }

/-- A core is retired. -/
def retireCore (s : State) (c : Nat) : State :=
  let team := teamOf s c
  let s1 := modCore s c fun k => { k with retired := true, testing := false }
  { s1 with parts := mmap (fun v => { v with noon := mmap (retireNoon c team) v.noon }) s1.parts }

/-- A unit is retired, and stays so at every later start (R410). -/
def retireUnit (s : State) (u : UnitId) : State :=
  let s0 := { s with nvRetired := if s.nvRetired.contains u then s.nvRetired else s.nvRetired ++ [u] }
  match u with
  | .core c => retireCore s0 c
  | .dcc d => (dieCores d).foldl retireCore (modDie s0 d fun q => { q with retired := true, asked := false })
  | .slice _ => s0
  | .sliceWay n way => modSlice s0 n fun v =>
    { v with badWays := insertNat v.badWays way, lines := v.lines.filter fun l => l.way != way }
  | .pisteWay site way =>
    let s1 := modRouter s0 site fun r => { r with badWays := insertNat r.badWays way }
    ((getRouter s0 site).entries.filter fun e => e.way == way && e.state == .stable).foldl (fun s e => beginCut s site e) s1
  | .router site =>
    let s1 := modDie s0 (siteKey site) fun d => { d with retired := true, reset := none, forced := true }
    if isComputeSite site then (dieCores (unitOfSite site)).foldl retireCore s1 else s1
  | .dramRow .. | .linkLane .. => s0

/-- How a panel link carries traffic (Table 21-1): its first lane retired is replaced by its spare, a second one halves its width.
Times apart nothing depends on it. -/
def linkSpareUsed (s : State) (link : Nat) : Bool := s.nvRetired.any fun u => match u with | .linkLane n _ => n == link | _ => false
def linkHalved (s : State) (link : Nat) : Bool :=
  decide (2 ≤ (s.nvRetired.filter fun u => match u with | .linkLane n _ => n == link | _ => false).length)

/-- The units that a failed test retires: of a slice its failing ways. -/
def failedUnits (u : UnitId) (ways : List Nat) : List UnitId :=
  match u with
  | .slice n => ((ways.filter (· < 16)).foldl addNew []).map fun w => .sliceWay n w
  | _ => [u]

/-- The contexts saved for a unit's test. -/
def heldContexts (s : State) (u : UnitId) : List (Nat × Saved) :=
  s.parts.flatMap fun q => (q.2.saved.filter fun r => r.heldFor == some u).map fun r => (q.1, r)

/-- Whether a core can be had for a team that was saved for a test: its own when the test has passed, else one that the launch unit
chooses. -/
def returnFits (s : State) (same : Bool) (q : Nat × Saved) : Bool :=
  let n := (restoreSet (getPart s q.1) q.2).length
  match gridOf s q.1 q.2.team.grid with
  | some g => if same then restoreFits s q.1 g q.2.team.lastCore n else (restoreChoice s q.1 g n).isSome
  | none => false

/-- The team that was saved for a test goes back: onto its own core when the test passed, else where the launch unit puts it. One
that cannot go back yet stays held for the unit, and goes back when it can (R353, R410). (DEDUCED, log 39.) -/
def returnTeams (s : State) (same : Bool) (l : List (Nat × Saved)) : State :=
  l.foldl (fun s q =>
    if returnFits s same q then restoreTeam s q.1 q.2.team.grid q.2.team.index (if same then some q.2.team.lastCore else none) else s) s

/-- Whether a unit's test can end: its team has been saved, its router's reset forced and not stopped by Curfew (R420), and the teams of a
die whose DCC failed are saved. (DEDUCED, log 39.) -/
def testRan (s : State) (u : UnitId) (passed : Bool) : Bool :=
  match u with
  | .core c => (teamOf s c).isNone
  | .router site => routerDead s site && !siteStopped s site
  | .dcc d => passed || dieEmpty s d
  | _ => true

/-- What a test that cannot end yet begins: the teams of a die whose DCC failed are saved, to go on elsewhere. (DEDUCED, log 39.) -/
def beforeRetire (s : State) (u : UnitId) (passed : Bool) : State :=
  match u with
  | .dcc d => if passed then s else saveDie (modDie s d fun q => { q with asked := true }) d
  | _ => s

/-- Whether every line that the replays of the returning teams read is quiet. -/
def returnQuiet (s : State) (l : List (Nat × Saved)) : Bool :=
  l.all fun q => match gridOf s q.1 q.2.team.grid with
    | some g => replayQuiet s q.1 g q.2.team
    | none => true

/-- A targeted self-test ends. Passed: the error was transient and service resumes. Failed: the unit is retired, of a slice the
failing ways. After its end the teams that are still held for the unit go back as they can. R353, R410, R412. -/
def execSelfTestComplete (unit : UnitId) (result : TestResult) (s : State) : Host.Outcome State Fault Refusal :=
  let held := heldContexts s unit
  let passed := result == .passed
  if !s.testing.contains unit then .next (returnTeams s (!unitRetired s unit) held)
  else if !testRan s unit passed then .next (beforeRetire s unit passed)
  else if !returnQuiet s held then .next s
  else
    let s1 := { s with testing := s.testing.filter (· != unit) }
    match result with
    | .passed =>
      let s2 := { s1 with merr := { s1.merr with trans := if s1.merr.trans = BitVec.allOnes 32 then s1.merr.trans else s1.merr.trans + 1 } }
      let s3 := match unit with
        | .core c => modCore s2 c fun k => { k with testing := false }
        | .router site => modDie s2 (siteKey site) fun d => { d with reset := none, forced := false }
        | _ => s2
      .next (returnTeams s3 true held)
    | .failed ways =>
      let s2 := (failedUnits unit ways).foldl retireUnit { s1 with merr := { s1.merr with last := s1.merr.last + 1 } }
      .next (returnTeams s2 false held)

/-- A link retries a flit: its message takes a hop's time longer and changes in nothing else. R409. (DEDUCED, log 39.) -/
def execLinkCrcRetry (idx : Nat) (s : State) : Host.Outcome State Fault Refusal :=
  match s.net[idx]? with
  | none => .next s
  | some m =>
    if m.ready ≤ s.now then .next s
    else .next { s with net := s.net.set idx { m with ready := m.ready + 12 } }

/-! ## Starts (R415, R416, R387, R349) -/

/-- What a retired unit leaves in the machine at a start. (DEDUCED, log 40.) -/
def applyRetired (s : State) (u : UnitId) : State :=
  match u with
  | .core c => modCore s c fun k => { k with retired := true }
  | .dcc d => (dieCores d).foldl (fun s c => modCore s c fun k => { k with retired := true }) (modDie s d fun q => { q with retired := true })
  | .slice _ => s
  | .sliceWay n way => modSlice s n fun v => { v with badWays := insertNat v.badWays way }
  | .pisteWay site way => modRouter s site fun r => { r with badWays := insertNat r.badWays way }
  | .router site =>
    let s1 := modDie s (siteKey site) fun d => { d with retired := true, forced := true }
    if isComputeSite site then
      (dieCores (unitOfSite site)).foldl (fun s c => modCore s c fun k => { k with retired := true }) s1
    else s1
  | .dramRow .. | .linkLane .. => s

/-- The boot ROM's check of a firmware image (R388): the key is the fused one, and the signature is valid under it.
(PRESUMED, log 13.) -/
def imageGood (m : FwImage) : Bool :=
  shake256 m.key == Config.haljorDigest && Config.signatureValid m.key (toBytes 4 m.version.toNat ++ m.bytes) m.signature

/-- The step of Table 21-2 that fails, 0 for none: one the environment names, or the firmware check of R388.
(DEDUCED, log 40.) -/
def failedStep (s : State) (r : StartReport) : Nat :=
  let auth := imageGood r.image && decide (s.minVersion ≤ r.image.version)
  if r.failStep = 1 then 1
  else if !auth || r.failStep == 2 then 2
  else if 3 ≤ r.failStep ∧ r.failStep ≤ 7 then r.failStep
  else 0

/-- A partition as a warm start with KEEP restores it: its registers of R376 as they stood, and ACTIVE without a scrub (R416). A scrub
under way goes on, since its memory has been kept (R379), and a partition that Curfew has stopped stays so (R420).
(DEDUCED, log 40.) -/
def keepPart (v : Partition) : Partition :=
  { cfg := v.cfg, far := v.far, edge := v.edge, aps := v.aps, err := v.err, active := v.active && cfgEn v,
    scrub := v.scrub, scrubCfg := v.scrubCfg, scrubFar := v.scrubFar, stopped := v.stopped }

/-- The leaf index and the burned fuses after a start (R387). -/
def startLeaf (s : State) (readable : Bool) : Nat × Nat :=
  if readable then (max s.leaf (s.leafFuses * 2 ^ 30), s.leafFuses) else ((s.leafFuses + 1) * 2 ^ 30, s.leafFuses + 1)

/-- Measured Dayclock differences, -3 to +3 ticks. -/
def goodOff (m : SMap (BitVec 8)) : SMap (BitVec 8) :=
  m.filter fun q => decide (q.1 < 16) && q.1 != 0 && decide (-3 ≤ q.2.toInt) && decide (q.2.toInt ≤ 3) && q.2 != 0

/-- Region 0's counter loaded into every region within ±3 ticks, the difference measured into DCOFF (R349). -/
def syncDayclock (s old : State) (off : SMap (BitVec 8)) : State :=
  let b := mget 0 old.dcBase 0
  { s with dcBase := (List.range 16).map fun g => (g, b + (mget 0 off g).signExtend 64), dcOff := off }

/-- Whether every region's measured Dayclock difference from region 0 lies within ±3 ticks (Table 21-2, step 6).
(DEDUCED, log 40.) -/
def dayclocksNear (s : State) : Bool :=
  (List.range 16).all fun g =>
    let d := (mget 0 s.dcBase g - mget 0 s.dcBase 0).toInt
    decide (-3 ≤ d) && decide (d ≤ 3)

/-- A start: the steps of Table 21-2. What is volatile is as at reset; a warm start with KEEP keeps memory and partitions. A
failed start makes the next one cold. R349, R380, R386 - R388, R410, R415, R416. (DESIGN CHOICE, log 2; DEDUCED, log 40.) -/
def execDeviceStart (report : StartReport) (s : State) : Host.Outcome State Fault Refusal :=
  let warm := s.start.warm && !s.start.mustCold
  let fail := failedStep s report
  let keep := warm && s.start.keep && fail == 0
  let tested := report.testFails.filter fun u => !s.nvRetired.contains u && (!warm || s.flagged.contains (flaggedAs u))
  let nv := if report.nvReadable then s.nvRetired else s.fuseRetired
  let fails := if fail == 0 || decide (3 < fail) then tested else []
  let leaf := startLeaf s report.nvReadable
  let raise_ := report.raisesMinimum && (fail == 0 || decide (2 < fail))
  let s1 : State := { State.reset with
    now := s.now, agenda := s.agenda, cursor := s.cursor, fresh := s.fresh, outbox := s.outbox,
    mem := if keep then s.mem else [],
    merr := if warm then { s.merr with last := s.merr.last + BitVec.ofNat 16 fails.length } else { last := BitVec.ofNat 16 fails.length },
    start := { warm := false, keep := false, kind := warm, fstep := fail, forced := s.start.mustCold, mustCold := fail != 0 },
    dcBase := s.dcBase, dcOff := s.dcOff,
    nvRetired := nv ++ fails, fuseRetired := nv,
    leaf := leaf.1, leafFuses := leaf.2,
    minVersion := if raise_ then report.image.version else s.minVersion,
    image := if fail == 1 || fail == 2 then {} else report.image,
    cores := if warm then mmap (fun k => ({ emul := k.emul } : Core)) s.cores else [],
    routers := if keep then mmap (fun r => ({ pcways := r.pcways } : Router)) s.routers else [],
    parts := if keep then mmap keepPart s.parts else [] }
  let sync := (fail == 0 || decide (6 < fail)) && !(warm && dayclocksNear s)
  let s2 := if sync then syncDayclock s1 s (goodOff report.dcOff) else s1
  .next (s2.nvRetired.foldl applyRetired s2)

/-! ## Curfew (R420) and watchpoints (R421) -/

/-- Corrected tick T comes, within one tick of every other region: a partition's cores, DCCs, engines and networks stop. R420.
(DEDUCED, log 41.) -/
def execCurfewStop (part : Nat) (s : State) : Host.Outcome State Fault Refusal :=
  let v := getPart s part
  let c := v.curfew.toNat
  let t := corrected s (regionOfSite (siteNo (cfgX0 v) (cfgY0 v)))
  if bit c 0 && v.active && !v.stopped && decide (c / 2 ≤ t + 1) then .next (modPart s part fun v => { v with stopped := true })
  else .next s

/-- A watchpoint reports an access that it has matched at a slice: a trace record of the requester's class and region, or the debug
stop of every team of the partition. Without such an access it reports nothing. R421. (DEDUCED, log 41.) -/
def execWatchpointReport (part wp : Nat) (write : Bool) (cls region : Nat) (s : State) : Host.Outcome State Fault Refusal :=
  match s.wpHits.find? fun h => h.part == part && h.wp == wp && h.write == write && h.cls == cls && h.region == region with
  | none => .next s
  | some h =>
    let s1 := { s with wpHits := s.wpHits.erase h }
    if (getPart s part).stopped then .next s
    else if h.stop then
      let cs := (s.cores.filter fun q => match q.2.team with | some t => t.part == part | none => false).map (·.1)
      .next (cs.foldl saveOne s1)
    else .next (traceEvent s1 part region 7 0 cls region)

end Sys2Proof.Machine
end

