-- ==== Sys2Proof/Machine/Groups.lean ====
section
/-! DEFINITION. Spawning through bins (R40 - R42, R330, R331), extended windows (R34, R332) and the Schuss controls (R340). -/

namespace Sys2Proof.Machine

open Sys2Proof

/-! ## Spawn bins -/

/-- The bin a SPAWN goes to: the one that holds its key, else an empty one, none when no bin can take the thread (R40). -/
def binFor (t : Team) (key : Word) : Option Nat :=
  match (List.range 4).find? fun b => match mget? t.bins b with | some q => q.key == key | none => false with
  | some b => match mget? t.bins b with | some q => if q.args.length < 96 then some b else none | none => none
  | none => (List.range 4).find? fun b => (mget? t.bins b).isNone

/-- The timer period of a core in link cycles: units of 8 ns, 0 acting as 1 (R331). -/
def spawnPeriod (k : Core) : Nat := 40 * (if k.spwcfg = 0 then 1 else k.spwcfg.toNat)

/-- One thread placed in a bin; the timer starts with the first. -/
def binAdd (now period : Nat) (t : Team) (b : Nat) (key arg : Word) : Team :=
  match mget? t.bins b with
  | some q => { t with bins := mput t.bins b { q with args := q.args ++ [arg] } }
  | none => { t with bins := mput t.bins b { key := key, args := [arg], since := now, due := now + period } }

/-- Places a thread in a spawn bin, as a release at team scope; it waits while no bin can take it. A core issues one scalar instruction in
a cycle (R334), so no two groups place one by it in one; those that wait place theirs together, by `serveSpawns`. R40, R330. -/
def execSpawn (a b : BitVec 6) (s : State) : Host.Outcome State Fault Refusal :=
  scalarMem s true [a.toNat, b.toNat] fun x =>
    let key := rdS x.g a.toNat
    let arg := rdS x.g b.toNat
    if key.toNat % 4 ≠ 0 ∨ 4 * x.grid.hdr.scalarSize ≤ key.toNat then raise s x { code := 0x04 }
    else match binFor x.team key with
      | none => scalarWait s x (.spawn key arg)
      | some n => modTeam (scalarDone s x x.g) x.core fun t => binAdd s.now (spawnPeriod (getCore s x.core)) t n key arg

/-- The spawning groups that wait place their threads, as far as the bins take them, in ascending group index (R40). -/
def serveSpawns (now period : Nat) (t : Team) : Team :=
  (mkeys t.groups).foldl (fun t i => match mget? t.groups i with
    | some g => match g.state, g.wait with
      | .blocked, .spawn key arg => match binFor t key with
        | some n => { binAdd now period t n key arg with groups := mput t.groups i (completeScalar now g) }
        | none => t
      | _, _ => t
    | none => t) t

/-- A bin's timer expires. R41. -/
def execSpawnTimerExpiry (core bin : Nat) (s : State) : Host.Outcome State Fault Refusal :=
  match (teamOf s core).bind fun t => mget? t.bins bin with
  | some q =>
    if q.due ≤ s.now ∧ coreStopped s core = false then
      .next (modTeam s core fun t => { t with bins := mput t.bins bin { q with expired := true } })
              else .next s
  | none => .next s

/-- Whether a bin is ready: full, its timer expired, or every group of the team has executed EXIT (R39, R41). -/
def binReady (t : Team) (q : Bin) : Bool :=
  q.args.length == 96 || q.expired || (mvals t.groups).all fun g => g.state == .exiting

/-- Whether a bin's group slot precedes another's: its first thread was placed earlier (R42); of two placed at one time the lower bin's
goes first. (DESIGN CHOICE, log 52.) -/
def binFirst (t : Team) (b : Nat) (q : Bin) : Bool :=
  t.bins.all fun r => r.1 == b || !binReady t r.2 || decide (q.since < r.2.since) || (q.since == r.2.since && decide (b < r.1))

/-- A group as a spawn bin creates it (R37); its creation acquires what the SPAWNs of its threads release (R330). `born`: the number from
which asynchronous operations are its own. -/
def spawnGroup (g : Grid) (q : Bin) (i now born : Nat) : Group :=
  let n := q.args.length
  let m := maskLow n
  { live := m,
    sregs := [(1, BitVec.ofNat 32 n), (2, BitVec.ofNat 32 i), (61, m.extractLsb' 0 32), (62, m.extractLsb' 32 32), (63, m.extractLsb' 64 32)],
    vregs := [(0, tab 96 fun t => q.args.getD t 0)], spc := q.key, schussOn := g.schuss, budget := g.budget, age := now,
    born := born, heard := born }

/-- A ready bin launches its threads as a group in the lowest free slot; the bin is then empty, and waiting SPAWNs are served.
R40 - R42. -/
def execSpawnBinLaunch (core bin : Nat) (s : State) : Host.Outcome State Fault Refusal :=
  match teamOf s core with
  | none => .next s
  | some t =>
    let limit := match t.base with | 64 => 8 | 128 => 6 | _ => 4
    match mget? t.bins bin, gridOf s t.part t.grid, (List.range limit).find? fun i => (mget? t.groups i).isNone with
    | some q, some g, some i =>
      if coreStopped s core || !binReady t q || !binFirst t bin q || !(t.state == .resident || t.state == .draining) then .next s
      else .next (modTeam (bumpFresh s) core fun t => serveSpawns s.now (spawnPeriod (getCore s core)) { t with
        bins := mdel t.bins bin, groups := mput t.groups i (spawnGroup g q i s.now (s.fresh + 1)) })
    | _, _, _ => .next s

/-! ## Extended windows -/

/-- Requests windows that are not held, all together; waits until they are granted. R34, R35, R332. -/
def execXacq (w : BitVec 4) (s : State) : Host.Outcome State Fault Refusal :=
  scalarMem s true [] fun x =>
    let want := w &&& ~~~x.g.windows
    if want = 0 then scalarDone s x x.g
    else if (mget? x.team.xacq x.gi).isSome then s
    else serveWindows (modTeam (scalarWait s x .xacq) x.core fun t => { t with xacq := mput t.xacq x.gi want }) x.core

/-- Whether an outstanding load writes a register of some windows. (DEDUCED, log 30.) -/
def windowLoads (s : State) (x : Ctx) (m : BitVec 4) : Bool :=
  (pendOps s x).any fun o => (destV o.dest).any fun n => decide (192 ≤ n) && bit m.toNat ((n - 192) / 32)

/-- Returns held windows at once. R34, R332. (DEDUCED, log 30.) -/
def execXrel (w : BitVec 4) (s : State) : Host.Outcome State Fault Refusal :=
  scalarMem s true [] fun x =>
    let back := w &&& x.g.windows
    if windowLoads s x back then scalarWait s x .operand
    else serveWindows (scalarDone s x { clearWindows back x.g with windows := x.g.windows &&& ~~~back }) x.core

/-! ## Schuss controls. Without its feature they are no-ops (R418). -/

def schussCtl (s : State) (f : Group → Group) : Host.Outcome State Fault Refusal :=
  scalarMem s true [] fun x => scalarDone s x (if s.featEn.getLsbD 3 then f x.g else x.g)

/-- R340. -/
def execSchussOff (s : State) : Host.Outcome State Fault Refusal := schussCtl s fun g => { g with schussOn := false }

/-- R340. -/
def execSchussOn (s : State) : Host.Outcome State Fault Refusal := schussCtl s fun g => { g with schussOn := true }

/-- R340. -/
def execSchussBud (n : BitVec 16) (s : State) : Host.Outcome State Fault Refusal := schussCtl s fun g => { g with budget := n }

/-- SCHUSS.OFF under the major of version 2. R54, R340. -/
def execSchussOffV2 (s : State) : Host.Outcome State Fault Refusal := schussCtl s fun g => { g with schussOn := false }

/-- SCHUSS.ON under the major of version 2. R54, R340. -/
def execSchussOnV2 (s : State) : Host.Outcome State Fault Refusal := schussCtl s fun g => { g with schussOn := true }

/-- SCHUSS.BUD under the major of version 2. R54, R340. -/
def execSchussBudV2 (n : BitVec 16) (s : State) : Host.Outcome State Fault Refusal := schussCtl s fun g => { g with budget := n }

end Sys2Proof.Machine
end

