-- ==== Sys2Proof/Machine/LaneMem.lean ====
section
/-! DEFINITION. Lane loads, stores, atomics, CAS, LL and SC (R251 - R254, R257 - R265). -/

namespace Sys2Proof.Machine

open Sys2Proof

/-! ## Operands of a lane memory word -/

def memUni (w : LaneWord) : Bool := w.u == 1

/-- Bytes of one thread's access. -/
def memSize (op : MemOp) (m : Nat) : Nat := if op = .atom then 4 else widthBytes (mWidth m)

/-- The threads that access memory: with U = 1 thread f alone (R262). -/
def memThreads (x : Ctx) (w : LaneWord) : Mask :=
  if memUni w then
    match mfirst (activeMask x.g) with
    | some f => if mtest (guardMask x.g w) f then mset1 0 f else 0
    | none => 0
  else considered x.g w

/-- The threads whose destination a word writes: with U = 1 every active one. -/
def memWrites (x : Ctx) (w : LaneWord) : Mask :=
  if memUni w then (if memThreads x w = 0 then 0 else activeMask x.g) else considered x.g w

/-- The registers of a lane prefetch's base: vector registers and registers of the view. -/
def prefBase (w : LaneWord) : List Nat × List Nat :=
  let f := w.srcA.toNat
  (if fieldKind f = .vec then [f, f + 1] else [], if fieldKind f = .scal then [f - 320, f - 319] else [])

/-- A register of the base, in a thread's own copy. -/
def baseReg (g : Group) (f t : Nat) : Word := operand g .int f 0 t

/-- The words of a group operand for a thread: a routed group reads one source thread. -/
def groupVal (g : Group) (f rt n t : Nat) : Nat :=
  (List.range n).foldr (fun k v => (operand g .int (f + k) rt t).toNat + v * 2 ^ 32) 0

/-- The data operand B of a thread. A constant at 32 bits or below is that integer. -/
def memData (x : Ctx) (op : MemOp) (w : LaneWord) (t : Nat) : Nat :=
  groupVal x.g w.srcB.toNat w.rtB.toNat (memDataRegs op w.mod.toNat) t

/-- The new value of a CAS: the destination group before the word. -/
def casNew (x : Ctx) (w : LaneWord) (t : Nat) : Nat := groupVal x.g w.dst.toNat 0 (widthRegs (mWidth w.mod.toNat)) t

/-- The tile address of an `ld.ver`, and the address of a thread's access (R251, R264). -/
def tileAddr (x : Ctx) (w : LaneWord) : Nat := addr57 (baseReg x.g w.srcA.toNat 0) (baseReg x.g (w.srcA.toNat + 1) 0)

def memAddr (x : Ctx) (op : MemOp) (w : LaneWord) (t : Nat) : Nat :=
  let a := w.srcA.toNat
  if op = .ldVer then globalAddr (tileAddr x w) (64 + memData x op w t : Nat)
  else if mLocal w.mod.toNat then localAddr (baseReg x.g a t) (laneOff w)
  else globalAddr (addr57 (baseReg x.g a t) (baseReg x.g (a + 1) t)) (laneOff w)

/-- The vector registers a word names, with their operand numbers (R261, R391). -/
def memRegs (op : MemOp) (w : LaneWord) : List (Nat × Nat) :=
  let m := w.mod.toNat
  let vec := fun (k f n : Nat) => if fieldKind f = .vec then (upFrom f n).map fun r => (k, r) else []
  let nd := memDstRegs op m
  let nb := memDataRegs op m
  (if nd = 0 then [] else vec 0 w.dst.toNat nd) ++ vec 1 w.srcA.toNat (if mLocal m then 1 else 2) ++
    (if nb = 0 then [] else vec 2 w.srcB.toNat nb) ++
    (if nb ≠ 0 ∧ fieldKind w.srcB.toNat = .vec then (indexReg w.rtB.toNat).toList.map fun r => (4, r) else [])

/-- The view registers it names. -/
def memScal (op : MemOp) (w : LaneWord) : List Nat :=
  let m := w.mod.toNat
  let sc := fun (f n : Nat) => if fieldKind f = .scal then upFrom (f - 320) n else []
  let nd := memDstRegs op m
  let nb := memDataRegs op m
  (if nd = 0 then [] else sc w.dst.toNat nd) ++ sc w.srcA.toNat (if mLocal m then 1 else 2) ++
    (if nb = 0 then [] else sc w.srcB.toNat nb)

def memDest (op : MemOp) (w : LaneWord) : Dest :=
  let nd := memDstRegs op w.mod.toNat
  if nd = 0 then .none
  else if fieldKind w.dst.toNat = .vec then .vregs w.dst.toNat nd
  else .view (w.dst.toNat - 320) nd

/-! ## Checks (R252, R264, R390) -/

/-- The check one thread fails first. The version word of a tile is read too, under the same checks. -/
def threadFault (s : State) (x : Ctx) (op : MemOp) (w : LaneWord) (t : Nat) : Option Nat :=
  let m := w.mod.toNat
  let n := memSize op m
  let a := memAddr x op w t
  let wr := op == .st || op == .atom || op == .cas || op == .sc
  if op = .ldVer then
    if tileAddr x w % 64 ≠ 0 ∨ 32768 < memData x op w t + n then some 0x05
    else match accessFault s x false a n false with
      | some c => some c
      | none => globalFault s x (tileAddr x w) 8 false
  else accessFault s x (mLocal m) a n wr

/-- The code of the earliest check any accessing thread fails, with the threads that fail it. -/
def laneFault (s : State) (x : Ctx) (op : MemOp) (w : LaneWord) : Option (Nat × Mask) :=
  let fs := (maskThreads (memThreads x w)).map fun t => (t, threadFault s x op w t)
  let on := fun (c : Nat) => maskOf fun t => fs.contains (t, some c)
  ([0x05, 0x06, 0x20, 0x22, 0x21].find? fun c => on c != 0).map fun c => (c, on c)

/-! ## Effects -/

/-- The pending operation of a lane memory word. The version reads of `ld.ver` are acquires at sys scope (R198, R203). -/
def memOp (s : State) (x : Ctx) (op : MemOp) (w : LaneWord) : PendOp where
  id := 0
  group := x.gi
  lane := true
  kind := match op with
    | .ld => .ld | .ldVer => .ldver | .st => .st | .atom => .atom | .cas => .cas | .ll => .ll | .sc => .sc
  dest := memDest op w
  width := memSize op w.mod.toNat
  sext := mSext w.mod.toNat && (op == .ld || op == .ldVer)
  threads := memWrites x w
  uni := memUni w
  attr := if op = .ldVer then { order := 1, scope := 5 }
    else { order := if mScope w.mod.toNat = 6 then 3 else mOrder w.mod.toNat, scope := mScope w.mod.toNat }
  issued := s.now
  pc := x.g.lane.lpc

/-- The accesses of a word to global memory, in ascending order of threads (R263). -/
def memAccesses (s : State) (x : Ctx) (op : MemOp) (w : LaneWord) : List Access :=
  let o := memOp s x op w
  let m := w.mod.toNat
  let per := (maskThreads (memThreads x w)).flatMap fun t =>
    let d := if op = .cas then casNew x w t else memData x op w t
    let c := if op = .cas then memData x op w t else 0
    mkAccesses s x o.kind t (memAddr x op w t) o.width d c (fld m 0 3) (mScope m == 6)
  if op = .ldVer then
    let ver := mkAccesses s x .ldver 96 (tileAddr x w) 8 0 0 0 false
    (if per.isEmpty then [] else ver ++ per).map fun a => { a with state := .done }
  else per

/-- A local word: scratch is accessed in ascending order of threads; loads, atomics and CAS give each thread its value. -/
def localMem (s : State) (x : Ctx) (op : MemOp) (w : LaneWord) : State :=
  let n := memSize op w.mod.toNat
  let o := memOp s x op w
  let ts := maskThreads (memThreads x w)
  if ts.any fun t => boardHit x.team (memAddr x op w t) n then s
  else
    let new := fun (t old : Nat) => match op with
      | .st => some (memData x op w t)
      | .atom => some (atomNew (fld w.mod.toNat 0 3) (BitVec.ofNat 32 old) (BitVec.ofNat 32 (memData x op w t))).toNat
      | .cas => if old = memData x op w t then some (casNew x w t) else none
      | .ld | .ldVer | .ll | .sc => none
    let r := ts.foldl (fun (acc : Team × SMap Nat) t =>
      let a := memAddr x op w t
      let old := scratchRead acc.1 a n
      (match new t old with | some v => scratchWrite acc.1 a n v | none => acc.1, mput acc.2 t old)) (x.team, [])
    let g := if ts.isEmpty then x.g else writeDest x.g o fun t => extendW n o.sext (mget 0 r.2 t)
    modTeam (laneDone s x (hearIf (acquires o.attr && !ts.isEmpty) s.fresh (setFence x g none))) x.core fun t => { t with scratch := r.1.scratch, bad := r.1.bad }

/-- A load into the mask of the current path: the path neither ends nor switches before it returns (R298). -/
def oweMask (b : Bool) (g : Group) : Group := if b then { g with lane := { g.lane with maskOwed := true } } else g

/-- A global word: its operation is issued; a word with no accessing thread makes none. -/
def globalMem (s : State) (x : Ctx) (g : Group) (op : MemOp) (w : LaneWord) : State :=
  let accs := memAccesses s x op w
  let o := memOp s x op w
  let long := (op == .ld || op == .ldVer || op == .ll) && accs.any fun a => judgedLong s x a.va a.hpa
  let s1 := laneDone s x (oweMask (writesMask o && !accs.isEmpty) g)
  if accs.isEmpty then s1 else issueOp s1 x { o with long := long } accs

/-! ## Under Schuss (R253) -/

/-- Whether the guard or the base of a thread's address carries an invalid mark; a base is one register or, `wide`, two. -/
def baseInv (x : Ctx) (w : LaneWord) (wide : Bool) (t : Nat) : Bool :=
  mtest (invP x w.pred.toNat) t || operandInv x .int w.srcA.toNat 0 t || (wide && operandInv x .int (w.srcA.toNat + 1) 0 t)

/-- Whether a thread's address carries an invalid mark. -/
def addrInv (x : Ctx) (op : MemOp) (w : LaneWord) (t : Nat) : Bool :=
  baseInv x w (!mLocal w.mod.toNat) t || (op == .ldVer && operandInv x .int w.srcB.toNat w.rtB.toNat t)

/-- The marks of a load's destinations. -/
def markDest (x : Ctx) (g : Group) (d : Dest) (m inv : Mask) : Group :=
  match d with
  | .none | .sregs .. => g
  | .vregs n k => (upFrom n k).foldl (fun q r => markV x q r m inv) g
  | .view n k => (upFrom n k).foldl (fun q r => if m = 0 then q else markS x q r (inv != 0)) g

/-- A load in an episode: a global one only prefetches; a local one is executed where its checks pass. -/
def schussMem (s : State) (x : Ctx) (op : MemOp) (w : LaneWord) : State :=
  let n := memSize op w.mod.toNat
  let o := memOp s x op w
  let ts := maskThreads (memThreads x w)
  let isLocal := mLocal w.mod.toNat
  let good := fun (t : Nat) => isLocal && !addrInv x op w t && (threadFault s x op w t).isNone
  let inv := if memUni w then (if ts.all good then 0 else memWrites x w) else maskOf fun t => ts.contains t && !good t
  let wr := memWrites x w
  let gm := if memUni w then (match mfirst (guardInv x w &&& activeMask x.g) with
      | some f => if mfirst (activeMask x.g) = some f then activeMask x.g else 0
      | none => 0) else guardInv x w
  let bad := match o.dest with | .view d k => (inv ||| gm) != 0 && decide (61 < d + k) | _ => false
  if bad then stopEpisode s x
  else match renameRows s x (destV o.dest) with
    | none => stopEpisode s x
    | some g =>
      let g1 := if isLocal && inv != wr then
          writeDest g { o with threads := wr &&& ~~~inv } fun t => extendW n o.sext (scratchRead x.team (memAddr x op w t) n)
        else g
      let s1 := laneDone s x (markDest x g1 o.dest (wr ||| gm) (inv ||| gm))
      if isLocal then s1
      else ts.foldl (fun s t =>
        if addrInv x op w t || memAddr x op w t % n != 0 then s else prefetchLine s x (memAddr x op w t) true) s1

/-! ## The words -/

/-- One lane memory word: decode checks, waits, the checks of R252, then its accesses; one that makes none orders nothing (R26). `f` adds
what an operation does beside. -/
def laneMem (s : State) (op : MemOp) (w : LaneWord) (f : State → Ctx → State) : Host.Outcome State Fault Refusal :=
  withCtx s fun x =>
    let o := memOp s x op w
    let load := op == .ld || op == .ldVer || op == .ll
    if !memLegal op w then raise s x { code := 0x01, uni := memUni w }
    else match badReg x (memRegs op w) with
      | some n => raise s x { code := 0x03, uni := memUni w, aux := n }
      | none =>
        if inEpisode x && !load then stopEpisode s x
        else if waitsL s x ((memRegs op w).map (·.2)) (memScal op w) then s
        else if inEpisode x then
          (if mLocal w.mod.toNat && (maskThreads (memThreads x w)).any (fun t => boardHit x.team (memAddr x op w t) (memSize op w.mod.toNat))
           then s else schussMem s x op w)
        else if acqPending x && memThreads x w != 0 then s
        else match laneFault s x op w with
          | some (code, mask) =>
            let t := (mfirst mask).getD 0
            raise s x { code := code, uni := memUni w, thread := t, addr := memAddr x op w t, mask := mask }
          | none =>
            if mLocal w.mod.toNat then localMem s x op w
            else if memThreads x w = 0 then f (globalMem s x (setFence x x.g none) op w) x
            else withRelease s x o.attr.order o.attr.scope fun g => f (globalMem s x g op w) x

/-- A load, extended to its destination's width. R260 - R263. -/
def execLdLane (w : LaneWord) (s : State) : Host.Outcome State Fault Refusal := laneMem s .ld w fun s _ => s

/-- A load from a versioned tile's payload. R264. (DEDUCED, log 25.) -/
def execLdVer (w : LaneWord) (s : State) : Host.Outcome State Fault Refusal := laneMem s .ldVer w fun s _ => s

/-- A store. R260 - R263. -/
def execStLane (w : LaneWord) (s : State) : Host.Outcome State Fault Refusal := laneMem s .st w fun s _ => s

/-- An atomic operation on a word of each thread. R257, R260 - R263. -/
def execAtomLane (w : LaneWord) (s : State) : Host.Outcome State Fault Refusal := laneMem s .atom w fun s _ => s

/-- A compare and swap. R257, R260 - R263. -/
def execCasLane (w : LaneWord) (s : State) : Host.Outcome State Fault Refusal := laneMem s .cas w fun s _ => s

/-- A load that reserves its line, and holds off path switches for 64 words; a uniform one whose thread f fails its guard does
nothing (R26). R262, R265, R306. -/
def execLl (w : LaneWord) (s : State) : Host.Outcome State Fault Refusal :=
  laneMem s .ll w fun s x =>
    if memUni w && memThreads x w == 0 then s
    else modGroup s x.core x.gi fun g => { g with lane := { g.lane with hold := 64 } }

/-- A store that succeeds while the thread's reservation of the line is held. R262, R265. -/
def execSc (w : LaneWord) (s : State) : Host.Outcome State Fault Refusal := laneMem s .sc w fun s _ => s

end Sys2Proof.Machine
end

