-- ==== Sys2Proof/Machine/Hints.lean ====
section
/-! DEFINITION. The hint spaces of both streams: no-ops, prefetches and the skip flag (R73 - R75). A hint never faults and never
ends an episode. -/

namespace Sys2Proof.Machine

open Sys2Proof

/-- `pref.tr` fills a translation alone. -/
def prefetchTr (s : State) (x : Ctx) (va : Nat) : State :=
  if leaseOk x.grid va 1 false && (match translate s x.team.part x.grid.pasid va with | .ok _ => true | _ => false)
  then touchPage s x va else s

/-- The three prefetches: into the L1, into the slice, or of the translation. -/
inductive Pref where
  | l1 | sl | tr
  deriving DecidableEq, Repr

def prefetchOne (s : State) (x : Ctx) (p : Pref) (va : Nat) : State :=
  match p with
  | .l1 => prefetchLine s x va true
  | .sl => prefetchLine s x va false
  | .tr => prefetchTr s x va

/-- A scalar prefetch; a base outside s2 to s58, or odd, is a no-op. R73, R74. -/
def scalarPref (s : State) (p : Pref) (a : BitVec 6) (i : BitVec 14) : Host.Outcome State Fault Refusal :=
  withCtx s fun x =>
    let regs := [a.toNat, a.toNat + 1]
    if !pairReg a then scalarDone s x x.g
    else if waitsS s x regs then scalarWait s x .operand
    else
      let s1 := scalarDone s x x.g
      if regs.any fun r => invS x r then s1 else prefetchOne s1 x p (globalAddr (pairAddr x.g a.toNat) i.toInt)

/-- Prefetches a line into the L1 and its slice. R73. -/
def execPrefL1 (a : BitVec 6) (i : BitVec 14) (s : State) : Host.Outcome State Fault Refusal := scalarPref s .l1 a i

/-- Prefetches a line into its slice. R73. -/
def execPrefSl (a : BitVec 6) (i : BitVec 14) (s : State) : Host.Outcome State Fault Refusal := scalarPref s .sl a i

/-- Prefetches a translation. R73. -/
def execPrefTr (a : BitVec 6) (i : BitVec 14) (s : State) : Host.Outcome State Fault Refusal := scalarPref s .tr a i

/-- No effect; every unassigned scalar hint is this. R73, R74. -/
def execNopScalar (_ : BitVec 6) (_ : BitVec 14) (s : State) : Host.Outcome State Fault Refusal :=
  withCtx s fun x => scalarDone s x x.g

/-- The skip flag armed; an episode's trial run leaves it alone (R339). (DEDUCED, log 24.) -/
def armSkip (x : Ctx) : Group := if inEpisode x then x.g else { x.g with skip := true }

/-- Arms the skip flag. R73, R75. -/
def execShintSkip (_ : BitVec 6) (_ : BitVec 14) (s : State) : Host.Outcome State Fault Refusal :=
  withCtx s fun x => scalarDone s x (armSkip x)

/-- A lane prefetch, once for each considered thread, whatever U holds, a field that a hint does not use; a base that is no even pair the
group holds is a no-op. R73, R74. (DESIGN CHOICE, log 46.) -/
def lanePref (s : State) (p : Pref) (w : LaneWord) : Host.Outcome State Fault Refusal :=
  withCtx s fun x =>
    let f := w.srcA.toNat
    if waitsL s x [] [] then s
    else if !basePairOk f || (prefBase w).1.any fun r => !vregHeld x r then laneDone s x x.g
    else if waitsL s x (prefBase w).1 (prefBase w).2 then s
    else
      let at_ := fun (t : Nat) => globalAddr (addr57 (baseReg x.g f t) (baseReg x.g (f + 1) t)) (laneOff w)
      (maskThreads (considered x.g w)).foldl (fun s t =>
        if baseInv x w true t then s else prefetchOne s x p (at_ t)) (laneDone s x x.g)

/-- Prefetches lines into the L1 and their slices. R73. -/
def execPrefL1Lane (w : LaneWord) (s : State) : Host.Outcome State Fault Refusal := lanePref s .l1 w

/-- Prefetches lines into their slices. R73. -/
def execPrefSlLane (w : LaneWord) (s : State) : Host.Outcome State Fault Refusal := lanePref s .sl w

/-- Prefetches translations. R73. -/
def execPrefTrLane (w : LaneWord) (s : State) : Host.Outcome State Fault Refusal := lanePref s .tr w

/-- Arms the skip flag. A guard (!p0) leaves it alone (R59); any other guard counts for nothing, since Table 3-13 gives one to the
prefetches alone. R73, R75. (DESIGN CHOICE, log 46.) -/
def execShintSkipLane (w : LaneWord) (s : State) : Host.Outcome State Fault Refusal :=
  withCtx s fun x =>
    if waitsL s x [] [] then s else laneDone s x (if w.pred = 0 ∧ w.neg = 1 then x.g else armSkip x)

/-- An unassigned opcode of the lane hint space. R74. -/
def execUnassignedLaneHint (_ : BitVec 10) (_ : LaneWord) (s : State) : Host.Outcome State Fault Refusal :=
  withCtx s fun x => if waitsL s x [] [] then s else laneDone s x x.g

end Sys2Proof.Machine
end

