-- ==== Sys2Proof/Decode.lean ====
section
/-! DEFINITION. Decoding: 32-bit scalar words (Tables 3-3, 3-4), 96-bit lane words (Tables 3-6, 3-7, 3-11, 3-12) and the
differences between encoding versions (Table 3-2); total on any bytes, rejecting by name; and the encoder. -/

namespace Sys2Proof

open Sys2Proof.Machine (fld ofBytes toBytes)

/-- Why bytes hold no instruction. -/
inductive Reject where
  | tooFewBytes
  | scalarWord
  | laneWord
  deriving DecidableEq, Repr

/-- The `n` bits of `w` from bit `lo` up. -/
def ex (n w lo : Nat) : BitVec n := BitVec.ofNat n (w / 2 ^ lo)

/-- Major 0x01: ADD, SUB, AND, OR, XOR, ANDN, SHL, SHR_Z, SHR_S, ROTR, SLT, SLTU, SEQ, SNE, MIN_S, MIN_Z, MAX_S, MAX_Z, MUL, MULH_S, MULH_Z, DIV_S, DIV_Z, REM_S, REM_Z, POPC, CLZ, BREV, SEL. -/
def major01 (w : Nat) : Option Instr :=
  if fld w 0 8 = 0 then some (.add (ex 6 w 20) (ex 6 w 14) (ex 6 w 8)) else
  if fld w 0 8 = 1 then some (.sub (ex 6 w 20) (ex 6 w 14) (ex 6 w 8)) else
  if fld w 0 8 = 2 then some (.andR (ex 6 w 20) (ex 6 w 14) (ex 6 w 8)) else
  if fld w 0 8 = 3 then some (.orR (ex 6 w 20) (ex 6 w 14) (ex 6 w 8)) else
  if fld w 0 8 = 4 then some (.xorR (ex 6 w 20) (ex 6 w 14) (ex 6 w 8)) else
  if fld w 0 8 = 5 then some (.andn (ex 6 w 20) (ex 6 w 14) (ex 6 w 8)) else
  if fld w 0 8 = 6 then some (.shl (ex 6 w 20) (ex 6 w 14) (ex 6 w 8)) else
  if fld w 0 8 = 7 then some (.shrZ (ex 6 w 20) (ex 6 w 14) (ex 6 w 8)) else
  if fld w 0 8 = 8 then some (.shrS (ex 6 w 20) (ex 6 w 14) (ex 6 w 8)) else
  if fld w 0 8 = 9 then some (.rotr (ex 6 w 20) (ex 6 w 14) (ex 6 w 8)) else
  if fld w 0 8 = 10 then some (.slt (ex 6 w 20) (ex 6 w 14) (ex 6 w 8)) else
  if fld w 0 8 = 11 then some (.sltu (ex 6 w 20) (ex 6 w 14) (ex 6 w 8)) else
  if fld w 0 8 = 12 then some (.seq (ex 6 w 20) (ex 6 w 14) (ex 6 w 8)) else
  if fld w 0 8 = 13 then some (.sne (ex 6 w 20) (ex 6 w 14) (ex 6 w 8)) else
  if fld w 0 8 = 14 then some (.minS (ex 6 w 20) (ex 6 w 14) (ex 6 w 8)) else
  if fld w 0 8 = 15 then some (.minZ (ex 6 w 20) (ex 6 w 14) (ex 6 w 8)) else
  if fld w 0 8 = 16 then some (.maxS (ex 6 w 20) (ex 6 w 14) (ex 6 w 8)) else
  if fld w 0 8 = 17 then some (.maxZ (ex 6 w 20) (ex 6 w 14) (ex 6 w 8)) else
  if fld w 0 8 = 24 then some (.mul (ex 6 w 20) (ex 6 w 14) (ex 6 w 8)) else
  if fld w 0 8 = 25 then some (.mulhS (ex 6 w 20) (ex 6 w 14) (ex 6 w 8)) else
  if fld w 0 8 = 26 then some (.mulhZ (ex 6 w 20) (ex 6 w 14) (ex 6 w 8)) else
  if fld w 0 8 = 28 then some (.divS (ex 6 w 20) (ex 6 w 14) (ex 6 w 8)) else
  if fld w 0 8 = 29 then some (.divZ (ex 6 w 20) (ex 6 w 14) (ex 6 w 8)) else
  if fld w 0 8 = 30 then some (.remS (ex 6 w 20) (ex 6 w 14) (ex 6 w 8)) else
  if fld w 0 8 = 31 then some (.remZ (ex 6 w 20) (ex 6 w 14) (ex 6 w 8)) else
  if fld w 0 14 = 32 then some (.popc (ex 6 w 20) (ex 6 w 14)) else
  if fld w 0 14 = 33 then some (.clz (ex 6 w 20) (ex 6 w 14)) else
  if fld w 0 14 = 34 then some (.brev (ex 6 w 20) (ex 6 w 14)) else
  if fld w 6 2 = 2 then some (.sel (ex 6 w 20) (ex 6 w 14) (ex 6 w 8) (ex 6 w 0)) else
  none

/-- Major 0x02: ADDI. -/
def major02 (w : Nat) : Option Instr :=
  some (.addi (ex 6 w 20) (ex 6 w 14) (ex 14 w 0))

/-- Major 0x03: ANDI. -/
def major03 (w : Nat) : Option Instr :=
  some (.andi (ex 6 w 20) (ex 6 w 14) (ex 14 w 0))

/-- Major 0x04: ORI. -/
def major04 (w : Nat) : Option Instr :=
  some (.ori (ex 6 w 20) (ex 6 w 14) (ex 14 w 0))

/-- Major 0x05: XORI. -/
def major05 (w : Nat) : Option Instr :=
  some (.xori (ex 6 w 20) (ex 6 w 14) (ex 14 w 0))

/-- Major 0x07: SLTI. -/
def major07 (w : Nat) : Option Instr :=
  some (.slti (ex 6 w 20) (ex 6 w 14) (ex 14 w 0))

/-- Major 0x08: SLTIU. -/
def major08 (w : Nat) : Option Instr :=
  some (.sltiu (ex 6 w 20) (ex 6 w 14) (ex 14 w 0))

/-- Major 0x06: SHLI, SHRI_Z, SHRI_S, ROTRI. -/
def major06 (w : Nat) : Option Instr :=
  if fld w 5 9 = 0 then some (.shli (ex 6 w 20) (ex 6 w 14) (ex 5 w 0)) else
  if fld w 5 9 = 128 then some (.shriZ (ex 6 w 20) (ex 6 w 14) (ex 5 w 0)) else
  if fld w 5 9 = 256 then some (.shriS (ex 6 w 20) (ex 6 w 14) (ex 5 w 0)) else
  if fld w 5 9 = 384 then some (.rotri (ex 6 w 20) (ex 6 w 14) (ex 5 w 0)) else
  none

/-- Major 0x09: LI, LIZ, LUI, LIH. -/
def major09 (w : Nat) : Option Instr :=
  if fld w 16 4 = 0 then some (.li (ex 6 w 20) (ex 16 w 0)) else
  if fld w 16 4 = 1 then some (.liz (ex 6 w 20) (ex 16 w 0)) else
  if fld w 16 4 = 2 then some (.lui (ex 6 w 20) (ex 16 w 0)) else
  if fld w 16 4 = 3 then some (.lih (ex 6 w 20) (ex 16 w 0)) else
  none

/-- Major 0x0A: BFE_Z, BFE_S. -/
def major0A (w : Nat) : Option Instr :=
  if fld w 5 1 = 0 ∧ fld w 12 2 = 0 then some (.bfeZ (ex 6 w 20) (ex 6 w 14) (ex 6 w 6) (ex 5 w 0)) else
  if fld w 5 1 = 0 ∧ fld w 12 2 = 2 then some (.bfeS (ex 6 w 20) (ex 6 w 14) (ex 6 w 6) (ex 5 w 0)) else
  none

/-- Major 0x0B: BFI. -/
def major0B (w : Nat) : Option Instr :=
  if fld w 5 1 = 0 ∧ fld w 12 2 = 0 then some (.bfi (ex 6 w 20) (ex 6 w 14) (ex 6 w 6) (ex 5 w 0)) else
  none

/-- Major 0x10: BEQZ. -/
def major10 (w : Nat) : Option Instr :=
  some (.beqz (ex 6 w 20) (ex 20 w 0))

/-- Major 0x11: BNEZ. -/
def major11 (w : Nat) : Option Instr :=
  some (.bnez (ex 6 w 20) (ex 20 w 0))

/-- Major 0x12: BLTZ. -/
def major12 (w : Nat) : Option Instr :=
  some (.bltz (ex 6 w 20) (ex 20 w 0))

/-- Major 0x13: BGEZ. -/
def major13 (w : Nat) : Option Instr :=
  some (.bgez (ex 6 w 20) (ex 20 w 0))

/-- Major 0x14: BR. -/
def major14 (w : Nat) : Option Instr :=
  if fld w 20 12 = 1280 then some (.br (ex 20 w 0)) else
  none

/-- Major 0x15: CALL. -/
def major15 (w : Nat) : Option Instr :=
  some (.call (ex 6 w 20) (ex 20 w 0))

/-- Major 0x16: JMPR. -/
def major16 (w : Nat) : Option Instr :=
  some (.jmpr (ex 6 w 20) (ex 6 w 14) (ex 14 w 0))

/-- Major 0x18: LGO. -/
def major18 (w : Nat) : Option Instr :=
  if fld w 20 12 = 1536 then some (.lgo (ex 20 w 0)) else
  none

/-- Major 0x19: LJOIN. -/
def major19 (w : Nat) : Option Instr :=
  if fld w 0 32 = 1677721600 then some (.ljoin) else
  none

/-- Major 0x1A: MSK_LIVE, MSK_N. -/
def major1A (w : Nat) : Option Instr :=
  if fld w 0 32 = 1744830464 then some (.mskLive) else
  if fld w 16 16 = 26625 then some (.mskN (ex 16 w 0)) else
  none

/-- Major 0x1B: EXIT. -/
def major1B (w : Nat) : Option Instr :=
  if fld w 0 32 = 1811939328 then some (.exitScalar) else
  none

/-- Major 0x1C: YIELD. -/
def major1C (w : Nat) : Option Instr :=
  if fld w 0 32 = 1879048192 then some (.yield) else
  none

/-- Major 0x20: LD. -/
def major20 (w : Nat) : Option Instr :=
  some (.ldScalar (ex 6 w 20) (ex 6 w 14) (ex 2 w 12) (ex 1 w 11) (ex 1 w 10) (ex 1 w 9) (ex 3 w 6) (ex 6 w 0))

/-- Major 0x21: ST. -/
def major21 (w : Nat) : Option Instr :=
  if fld w 11 1 = 0 then some (.stScalar (ex 6 w 20) (ex 6 w 14) (ex 2 w 12) (ex 1 w 10) (ex 1 w 9) (ex 3 w 6) (ex 6 w 0)) else
  none

/-- Major 0x22: ATOM. -/
def major22 (w : Nat) : Option Instr :=
  some (.atomScalar (ex 6 w 20) (ex 6 w 14) (ex 6 w 8) (ex 3 w 5) (ex 2 w 3) (ex 3 w 0))

/-- Major 0x23: CAS. -/
def major23 (w : Nat) : Option Instr :=
  if fld w 1 2 = 0 then some (.casScalar (ex 6 w 20) (ex 6 w 14) (ex 6 w 8) (ex 3 w 5) (ex 2 w 3) (ex 1 w 0)) else
  none

/-- Major 0x24: FENCE. -/
def major24 (w : Nat) : Option Instr :=
  if fld w 7 9 = 0 ∧ fld w 20 12 = 2304 then some (.fence (ex 4 w 16) (ex 3 w 4) (ex 4 w 0)) else
  none

/-- Major 0x25: WAIT. -/
def major25 (w : Nat) : Option Instr :=
  if fld w 16 16 = 37888 then some (.waitCounts (ex 4 w 12) (ex 4 w 8) (ex 4 w 4) (ex 4 w 0)) else
  none

/-- Major 0x26: WAITLN. -/
def major26 (v w : Nat) : Option Instr :=
  if 2 ≤ v then some (.waitln (ex 6 w 20) (ex 6 w 14) (ex 14 w 0)) else
  none

/-- Major 0x2C: WAITLN_V1. -/
def major2C (v w : Nat) : Option Instr :=
  if v = 1 then some (.waitlnV1 (ex 6 w 20) (ex 6 w 14) (ex 14 w 0)) else
  none

/-- Major 0x27: PAUSE. -/
def major27 (v w : Nat) : Option Instr :=
  if v = 3 ∧ fld w 16 16 = 39936 then some (.pause (ex 16 w 0)) else
  none

/-- Major 0x2E: PAUSE_V1V2. -/
def major2E (v w : Nat) : Option Instr :=
  if v ≤ 2 ∧ fld w 16 16 = 47104 then some (.pauseV1v2 (ex 16 w 0)) else
  none

/-- Major 0x28: CPY_1D, CPY_1D_FT, CPY_2D, CPY_GATHER, CPY_SEAL, CPY_AON, CPY_VER, CPY_REPLAY. -/
def major28 (w : Nat) : Option Instr :=
  if fld w 0 14 = 0 then some (.cpy1d (ex 6 w 20) (ex 6 w 14)) else
  if fld w 0 14 = 8 then some (.cpy1dFt (ex 6 w 20) (ex 6 w 14)) else
  if fld w 0 14 = 1 then some (.cpy2d (ex 6 w 20) (ex 6 w 14)) else
  if fld w 0 14 = 2 then some (.cpyGather (ex 6 w 20) (ex 6 w 14)) else
  if fld w 0 14 = 3 then some (.cpySeal (ex 6 w 20) (ex 6 w 14)) else
  if fld w 0 14 = 4 then some (.cpyAon (ex 6 w 20) (ex 6 w 14)) else
  if fld w 0 14 = 5 then some (.cpyVer (ex 6 w 20) (ex 6 w 14)) else
  if fld w 0 14 = 6 then some (.cpyReplay (ex 6 w 20) (ex 6 w 14)) else
  none

/-- Major 0x29: COLL_RADD, COLL_BCAST, COLL_AGATH. -/
def major29 (w : Nat) : Option Instr :=
  if fld w 0 2 = 0 ∧ fld w 5 9 = 0 then some (.collRadd (ex 6 w 20) (ex 6 w 14) (ex 3 w 2)) else
  if fld w 0 14 = 1 then some (.collBcast (ex 6 w 20) (ex 6 w 14)) else
  if fld w 0 14 = 2 then some (.collAgath (ex 6 w 20) (ex 6 w 14)) else
  none

/-- Major 0x2A: SEND. -/
def major2A (w : Nat) : Option Instr :=
  some (.send (ex 6 w 20) (ex 6 w 14) (ex 6 w 8) (ex 8 w 0))

/-- Major 0x2B: RECVPOST, RECVTST. -/
def major2B (w : Nat) : Option Instr :=
  if fld w 0 8 = 0 then some (.recvpost (ex 6 w 20) (ex 6 w 14) (ex 6 w 8)) else
  if fld w 0 8 = 1 ∧ fld w 14 6 = 0 then some (.recvtst (ex 6 w 20) (ex 6 w 8)) else
  none

/-- Major 0x2D: LOC_SELF, LOC_HOME, LOC_BAND. -/
def major2D (v w : Nat) : Option Instr :=
  if v = 3 ∧ fld w 0 20 = 0 then some (.locSelf (ex 6 w 20)) else
  if v = 3 ∧ fld w 0 14 = 1 then some (.locHome (ex 6 w 20) (ex 6 w 14)) else
  if v = 3 ∧ fld w 0 14 = 2 then some (.locBand (ex 6 w 20) (ex 6 w 14)) else
  none

/-- Major 0x30: MMA. -/
def major30 (w : Nat) : Option Instr :=
  some (.mma (ex 6 w 20) (ex 6 w 14) (ex 6 w 8) (ex 3 w 5) (ex 1 w 4) (ex 1 w 3) (ex 3 w 0))

/-- Major 0x31: MLB. -/
def major31 (w : Nat) : Option Instr :=
  if fld w 2 6 = 0 then some (.mlb (ex 6 w 20) (ex 6 w 14) (ex 6 w 8) (ex 1 w 1) (ex 1 w 0)) else
  none

/-- Major 0x32: MDRAIN. -/
def major32 (w : Nat) : Option Instr :=
  if fld w 6 2 = 0 then some (.mdrain (ex 6 w 20) (ex 6 w 14) (ex 6 w 8) (ex 1 w 5) (ex 1 w 4) (ex 1 w 3) (ex 3 w 0)) else
  none

/-- Major 0x33: ACCCPY_ST, ACCCPY_LD. -/
def major33 (w : Nat) : Option Instr :=
  if fld w 4 4 = 0 then some (.acccpySt (ex 6 w 20) (ex 6 w 14) (ex 6 w 8) (ex 1 w 3) (ex 3 w 0)) else
  if fld w 4 4 = 1 then some (.acccpyLd (ex 6 w 20) (ex 6 w 14) (ex 6 w 8) (ex 1 w 3) (ex 3 w 0)) else
  none

/-- Major 0x34: SEMINC. -/
def major34 (w : Nat) : Option Instr :=
  if fld w 3 11 = 0 then some (.seminc (ex 6 w 20) (ex 6 w 14) (ex 3 w 0)) else
  none

/-- Major 0x35: SEMWAIT. -/
def major35 (w : Nat) : Option Instr :=
  if fld w 3 11 = 0 then some (.semwait (ex 6 w 20) (ex 6 w 14) (ex 3 w 0)) else
  none

/-- Major 0x36: SEMTST. -/
def major36 (w : Nat) : Option Instr :=
  if fld w 3 11 = 0 then some (.semtst (ex 6 w 20) (ex 6 w 14) (ex 3 w 0)) else
  none

/-- Major 0x37: BARARR, BARWAIT. -/
def major37 (w : Nat) : Option Instr :=
  if fld w 5 27 = 115343360 then some (.bararr (ex 5 w 0)) else
  if fld w 5 15 = 2048 then some (.barwait (ex 6 w 20) (ex 5 w 0)) else
  none

/-- Major 0x38: LAUNCH. -/
def major38 (w : Nat) : Option Instr :=
  if fld w 0 14 = 0 then some (.launch (ex 6 w 20) (ex 6 w 14)) else
  none

/-- Major 0x39: SPAWN. -/
def major39 (w : Nat) : Option Instr :=
  if fld w 0 8 = 0 ∧ fld w 20 12 = 3648 then some (.spawn (ex 6 w 14) (ex 6 w 8)) else
  none

/-- Major 0x3A: JOINC. -/
def major3A (w : Nat) : Option Instr :=
  if fld w 0 32 = 3892314112 then some (.joinc) else
  none

/-- Major 0x3B: XACQ, XREL. -/
def major3B (w : Nat) : Option Instr :=
  if fld w 4 28 = 247463936 then some (.xacq (ex 4 w 0)) else
  if fld w 4 28 = 247468032 then some (.xrel (ex 4 w 0)) else
  none

/-- Major 0x3C: SCHUSS_OFF, SCHUSS_ON, SCHUSS_BUD. -/
def major3C (v w : Nat) : Option Instr :=
  if v = 3 ∧ fld w 0 32 = 4026531840 then some (.schussOff) else
  if v = 3 ∧ fld w 0 32 = 4026597376 then some (.schussOn) else
  if v = 3 ∧ fld w 16 16 = 61442 then some (.schussBud (ex 16 w 0)) else
  none

/-- Major 0x3D: SCHUSS_OFF_V2, SCHUSS_ON_V2, SCHUSS_BUD_V2. -/
def major3D (v w : Nat) : Option Instr :=
  if v = 2 ∧ fld w 0 32 = 4093640704 then some (.schussOffV2) else
  if v = 2 ∧ fld w 0 32 = 4093706240 then some (.schussOnV2) else
  if v = 2 ∧ fld w 16 16 = 62466 then some (.schussBudV2 (ex 16 w 0)) else
  none

/-- Major 0x3E: SYSRD, SYSWR, TRAP, TRET, DCLK, BRK. -/
def major3E (w : Nat) : Option Instr :=
  if fld w 0 8 = 0 then some (.sysrd (ex 6 w 20) (ex 12 w 8)) else
  if fld w 0 8 = 1 then some (.syswr (ex 6 w 20) (ex 12 w 8)) else
  if fld w 0 8 = 2 ∧ fld w 20 12 = 3968 then some (.trap (ex 12 w 8)) else
  if fld w 0 32 = 4160749571 then some (.tret) else
  if fld w 0 20 = 4 then some (.dclk (ex 6 w 20)) else
  if fld w 0 8 = 5 ∧ fld w 20 12 = 3968 then some (.brk (ex 12 w 8)) else
  none

/-- Major 0x3F: NOP, PREF_L1, PREF_SL, PREF_TR, SHINT_SKIP. -/
def major3F (v w : Nat) : Option Instr :=
  if fld w 20 12 = 4032 then some (.nopScalar (ex 6 w 14) (ex 14 w 0)) else
  if fld w 20 12 = 4033 then some (.prefL1 (ex 6 w 14) (ex 14 w 0)) else
  if fld w 20 12 = 4034 then some (.prefSl (ex 6 w 14) (ex 14 w 0)) else
  if fld w 20 12 = 4035 then some (.prefTr (ex 6 w 14) (ex 14 w 0)) else
  if 2 ≤ v ∧ fld w 20 12 = 4048 then some (.shintSkip (ex 6 w 14) (ex 14 w 0)) else
  some (.nopScalar (ex 6 w 14) (ex 14 w 0))   -- an unassigned hint executes as a no-op (R74)

/-- The instruction a 32-bit scalar word stands for in encoding version `v` (Table 3-4, R54). -/
def decodeScalar (v w : Nat) : Option Instr :=
  match fld w 26 6 with
  | 0x01 => major01 w
  | 0x02 => major02 w
  | 0x03 => major03 w
  | 0x04 => major04 w
  | 0x05 => major05 w
  | 0x07 => major07 w
  | 0x08 => major08 w
  | 0x06 => major06 w
  | 0x09 => major09 w
  | 0x0A => major0A w
  | 0x0B => major0B w
  | 0x10 => major10 w
  | 0x11 => major11 w
  | 0x12 => major12 w
  | 0x13 => major13 w
  | 0x14 => major14 w
  | 0x15 => major15 w
  | 0x16 => major16 w
  | 0x18 => major18 w
  | 0x19 => major19 w
  | 0x1A => major1A w
  | 0x1B => major1B w
  | 0x1C => major1C w
  | 0x20 => major20 w
  | 0x21 => major21 w
  | 0x22 => major22 w
  | 0x23 => major23 w
  | 0x24 => major24 w
  | 0x25 => major25 w
  | 0x26 => major26 v w
  | 0x2C => major2C v w
  | 0x27 => major27 v w
  | 0x2E => major2E v w
  | 0x28 => major28 w
  | 0x29 => major29 w
  | 0x2A => major2A w
  | 0x2B => major2B w
  | 0x2D => major2D v w
  | 0x30 => major30 w
  | 0x31 => major31 w
  | 0x32 => major32 w
  | 0x33 => major33 w
  | 0x34 => major34 w
  | 0x35 => major35 w
  | 0x36 => major36 w
  | 0x37 => major37 w
  | 0x38 => major38 w
  | 0x39 => major39 w
  | 0x3A => major3A w
  | 0x3B => major3B w
  | 0x3C => major3C v w
  | 0x3D => major3D v w
  | 0x3E => major3E w
  | 0x3F => major3F v w
  | _ => none

/-- The fields of a long-form lane word (Table 3-6). -/
def laneFields (w : Nat) : LaneWord where
  dst := ex 9 w 75
  srcA := ex 9 w 66
  rtA := ex 10 w 56
  srcB := ex 9 w 47
  rtB := ex 10 w 37
  srcC := ex 9 w 28
  rtC := ex 10 w 18
  pred := ex 4 w 14
  neg := ex 1 w 13
  u := ex 1 w 12
  mod := ex 12 w 0

/-- One slot of a paired word, at bit `lo` (Table 3-7). -/
def slotFields (w lo : Nat) : ShortOp where
  op := ex 7 w (lo + 40)
  dst := ex 9 w (lo + 31)
  srcA := ex 9 w (lo + 22)
  srcB := ex 9 w (lo + 13)
  rtB := ex 10 w (lo + 3)
  pred := ex 3 w lo

/-- Long opcodes 0x000 to 0x027: integer, bit and compare operations (Table 3-11). -/
def laneOpInt (_v op : Nat) (w : LaneWord) : Option Instr :=
  match op with
  | 0x000 => some (.nopLane w)
  | 0x001 => some (.mov w)
  | 0x002 => some (.tidx w)
  | 0x008 => some (.addI32 w)
  | 0x009 => some (.subI32 w)
  | 0x00A => some (.mulI32 w)
  | 0x00B => some (.mulhS32 w)
  | 0x00C => some (.mulhZ32 w)
  | 0x00D => some (.minS32 w)
  | 0x00E => some (.minZ32 w)
  | 0x00F => some (.maxS32 w)
  | 0x010 => some (.maxZ32 w)
  | 0x011 => some (.absS32 w)
  | 0x012 => some (.negS32 w)
  | 0x013 => some (.andB32 w)
  | 0x014 => some (.orB32 w)
  | 0x015 => some (.xorB32 w)
  | 0x016 => some (.andnB32 w)
  | 0x017 => some (.notB32 w)
  | 0x018 => some (.shlB32 w)
  | 0x019 => some (.shrZ32 w)
  | 0x01A => some (.shrS32 w)
  | 0x01B => some (.popcB32 w)
  | 0x01C => some (.clzB32 w)
  | 0x01D => some (.brevB32 w)
  | 0x020 => some (.cmpEqI32 w)
  | 0x021 => some (.cmpNeI32 w)
  | 0x022 => some (.cmpLtS32 w)
  | 0x023 => some (.cmpLeS32 w)
  | 0x024 => some (.cmpLtZ32 w)
  | 0x025 => some (.cmpLeZ32 w)
  | _ => none

/-- Long opcodes 0x028 to 0x07F: floating-point, special, conversion and predicate operations (Table 3-11). -/
def laneOpFloat (v op : Nat) (w : LaneWord) : Option Instr :=
  match op with
  | 0x028 => some (.addF32 w)
  | 0x029 => some (.subF32 w)
  | 0x02A => some (.mulF32 w)
  | 0x02B => some (.minF32 w)
  | 0x02C => some (.maxF32 w)
  | 0x02D => some (.cmpEqF32 w)
  | 0x02E => some (.cmpLtF32 w)
  | 0x02F => some (.cmpLeF32 w)
  | 0x030 => some (.addF16x2 w)
  | 0x031 => some (.subF16x2 w)
  | 0x032 => some (.mulF16x2 w)
  | 0x033 => some (.minF16x2 w)
  | 0x034 => some (.maxF16x2 w)
  | 0x035 => some (.addBf16x2 w)
  | 0x036 => some (.subBf16x2 w)
  | 0x037 => some (.mulBf16x2 w)
  | 0x038 => some (.minBf16x2 w)
  | 0x039 => some (.maxBf16x2 w)
  | 0x03A => some (.classF32 w)
  | 0x040 => some (.rcpF32 w)
  | 0x041 => some (.rsqF32 w)
  | 0x042 => some (.sqrtF32 w)
  | 0x043 => some (.ex2F32 w)
  | 0x044 => some (.lg2F32 w)
  | 0x045 => some (.sinF32 w)
  | 0x046 => some (.cosF32 w)
  | 0x047 => if 2 ≤ v then some (.tanhF32 w) else none
  | 0x048 => some (.cvtF32S32 w)
  | 0x049 => some (.cvtS32F32 w)
  | 0x04A => some (.cvtF32Z32 w)
  | 0x04B => some (.cvtZ32F32 w)
  | 0x04C => some (.cvtF16x2F32 w)
  | 0x04D => some (.cvtBf16x2F32 w)
  | 0x050 => some (.pand w)
  | 0x051 => some (.por w)
  | 0x052 => some (.pxor w)
  | 0x053 => some (.pandn w)
  | _ => none

/-- Long opcodes 0x080 to 0x0FF (Table 3-12). -/
def laneOpLong (v op : Nat) (w : LaneWord) : Option Instr :=
  match op with
  | 0x080 => some (.madI32 w)
  | 0x081 => some (.mulhMadS32 w)
  | 0x082 => if fld w.mod.toNat 0 1 = 0 then some (.fshRB32 w) else if fld w.mod.toNat 0 1 = 1 then some (.fshLB32 w) else none
  | 0x083 => some (.bfeZ32 w)
  | 0x084 => some (.bfeS32 w)
  | 0x085 => some (.bfiB32 w)
  | 0x086 => some (.selB32 w)
  | 0x087 => some (.dot4S8 w)
  | 0x088 => some (.dot4Z8 w)
  | 0x089 => some (.dot2S16 w)
  | 0x08A => some (.dot2Z16 w)
  | 0x08B => some (.cmpI32 w)
  | 0x0A0 => some (.fmaF32 w)
  | 0x0A1 => some (.cmpF32 w)
  | 0x0A2 => some (.rndF32 w)
  | 0x0A3 => some (.fmaF16x2 w)
  | 0x0A4 => some (.fmaBf16x2 w)
  | 0x0A5 => some (.cmpF16x2 w)
  | 0x0A6 => some (.cmpBf16x2 w)
  | 0x0A7 => some (.rndF16x2 w)
  | 0x0A8 => some (.rndBf16x2 w)
  | 0x0C0 => some (.cvt w)
  | 0x0C1 => if v = 3 ∧ ¬ fld w.mod.toNat 8 4 = 8 then some (.qpack w) else if v = 3 ∧ fld w.mod.toNat 8 4 = 8 then some (.qpackScale w) else none
  | 0x0C2 => if v = 3 then some (.qunpkF32 w) else none
  | 0x0E0 => some (.voteAny w)
  | 0x0E1 => some (.voteAll w)
  | 0x0E2 => some (.ballot w)
  | 0x0E3 => some (.firstThread w)
  | 0x0E4 => if 2 ≤ v then some (.smpl w) else none
  | 0x0E5 => if v = 3 ∧ fld w.mod.toNat 0 2 = 0 then some (.randB32 w) else if v = 3 ∧ fld w.mod.toNat 0 2 = 1 then some (.randCoF32 w) else if v = 3 ∧ fld w.mod.toNat 0 2 = 2 then some (.randOcF32 w) else none
  | 0x0E8 => if v ≤ 2 then some (.randV1v2 w) else none
  | _ => none

/-- Long opcodes 0x100 to 0x1FF: memory and control (Table 3-12). -/
def laneOpMem (_v op : Nat) (w : LaneWord) : Option Instr :=
  match op with
  | 0x100 => if fld w.mod.toNat 10 1 = 0 then some (.ldLane w) else if fld w.mod.toNat 10 1 = 1 then some (.ldVer w) else none
  | 0x101 => some (.stLane w)
  | 0x102 => some (.atomLane w)
  | 0x103 => some (.casLane w)
  | 0x104 => some (.ll w)
  | 0x105 => some (.sc w)
  | 0x180 => some (.bra w)
  | 0x181 => some (.brx w)
  | 0x182 => some (.lend w)
  | 0x183 => some (.exitLane w)
  | _ => none

/-- Long opcodes 0x3E0 to 0x3FF: the lane hint space (Table 3-13, R74). -/
def laneOpHint (v op : Nat) (w : LaneWord) : Option Instr :=
  match op with
  | 0x3E0 => some (.prefL1Lane w)
  | 0x3E1 => some (.prefSlLane w)
  | 0x3E2 => some (.prefTrLane w)
  | 0x3F0 => if 2 ≤ v then some (.shintSkipLane w) else some (.unassignedLaneHint (BitVec.ofNat 10 op) w)
  | _ => some (.unassignedLaneHint (BitVec.ofNat 10 op) w)

/-- The instruction of a long-form opcode. -/
def decodeLong (v op : Nat) (w : LaneWord) : Option Instr :=
  if op < 0x028 then laneOpInt v op w
  else if op < 0x080 then laneOpFloat v op w
  else if op < 0x100 then laneOpLong v op w
  else if op < 0x200 then laneOpMem v op w
  else if 0x3E0 ≤ op ∧ op < 0x400 then laneOpHint v op w
  else none

/-- The instruction a 96-bit lane word stands for in encoding version `v` (R58). -/
def decodeLane (v w : Nat) : Option Instr :=
  match fld w 94 2 with
  | 0 => decodeLong v (fld w 84 10) (laneFields w)
  | 1 => some (.lanePairedWord (slotFields w 47) (slotFields w 0))
  | _ => none

/-- Decoding of bytes, little-endian (R49): 4 of the scalar section or 12 of the lane section. -/
def decodeBytes (v : Nat) (lane : Bool) (bs : List Byte) : Except Reject Instr :=
  if lane then
    if bs.length < 12 then .error .tooFewBytes
    else match decodeLane v (ofBytes (bs.take 12)) with
      | some i => .ok i
      | none => .error .laneWord
  else
    if bs.length < 4 then .error .tooFewBytes
    else match decodeScalar v (ofBytes (bs.take 4)) with
      | some i => .ok i
      | none => .error .scalarWord

/-! ## The encoder -/

/-- A long-form word with opcode `op` (Table 3-6). -/
def encodeLong (op : Nat) (w : LaneWord) : Nat :=
  op * 2 ^ 84 + w.dst.toNat * 2 ^ 75 + w.srcA.toNat * 2 ^ 66 + w.rtA.toNat * 2 ^ 56 + w.srcB.toNat * 2 ^ 47
    + w.rtB.toNat * 2 ^ 37 + w.srcC.toNat * 2 ^ 28 + w.rtC.toNat * 2 ^ 18 + w.pred.toNat * 2 ^ 14 + w.neg.toNat * 2 ^ 13
    + w.u.toNat * 2 ^ 12 + w.mod.toNat

/-- One slot of a paired word (Table 3-7). -/
def encodeSlot (s : ShortOp) : Nat :=
  s.op.toNat * 2 ^ 40 + s.dst.toNat * 2 ^ 31 + s.srcA.toNat * 2 ^ 22 + s.srcB.toNat * 2 ^ 13 + s.rtB.toNat * 2 ^ 3
    + s.pred.toNat

/-- A scalar word of form R: three registers beside the fixed bits `m` (Table 3-3). -/
def formR (m : Nat) (d a b : BitVec 6) : Nat := m + d.toNat * 2 ^ 20 + a.toNat * 2 ^ 14 + b.toNat * 2 ^ 8

/-- A scalar word of form I. -/
def formI (m : Nat) (d a : BitVec 6) (i : BitVec 14) : Nat := m + d.toNat * 2 ^ 20 + a.toNat * 2 ^ 14 + i.toNat

/-- A scalar word with a register and a low field (forms B and S). -/
def formS (m : Nat) (d : BitVec 6) (i : Nat) : Nat := m + d.toNat * 2 ^ 20 + i

/-- Two registers beside the fixed bits. -/
def formDA (m : Nat) (d a : BitVec 6) : Nat := m + d.toNat * 2 ^ 20 + a.toNat * 2 ^ 14

/-- The words of major 0x01; none for any other. -/
def encodeAlu : Instr → Option Nat
  | .add d a b => some (formR 0x04000000 d a b)
  | .sub d a b => some (formR 0x04000001 d a b)
  | .andR d a b => some (formR 0x04000002 d a b)
  | .orR d a b => some (formR 0x04000003 d a b)
  | .xorR d a b => some (formR 0x04000004 d a b)
  | .andn d a b => some (formR 0x04000005 d a b)
  | .shl d a b => some (formR 0x04000006 d a b)
  | .shrZ d a b => some (formR 0x04000007 d a b)
  | .shrS d a b => some (formR 0x04000008 d a b)
  | .rotr d a b => some (formR 0x04000009 d a b)
  | .slt d a b => some (formR 0x0400000A d a b)
  | .sltu d a b => some (formR 0x0400000B d a b)
  | .seq d a b => some (formR 0x0400000C d a b)
  | .sne d a b => some (formR 0x0400000D d a b)
  | .minS d a b => some (formR 0x0400000E d a b)
  | .minZ d a b => some (formR 0x0400000F d a b)
  | .maxS d a b => some (formR 0x04000010 d a b)
  | .maxZ d a b => some (formR 0x04000011 d a b)
  | .mul d a b => some (formR 0x04000018 d a b)
  | .mulhS d a b => some (formR 0x04000019 d a b)
  | .mulhZ d a b => some (formR 0x0400001A d a b)
  | .divS d a b => some (formR 0x0400001C d a b)
  | .divZ d a b => some (formR 0x0400001D d a b)
  | .remS d a b => some (formR 0x0400001E d a b)
  | .remZ d a b => some (formR 0x0400001F d a b)
  | .popc d a => some (formDA 0x04000020 d a)
  | .clz d a => some (formDA 0x04000021 d a)
  | .brev d a => some (formDA 0x04000022 d a)
  | .sel d a b c => some (formR 0x04000080 d a b + c.toNat)
  | _ => none

/-- The words of majors 0x02 to 0x1C; none for any other. -/
def encodeImm : Instr → Option Nat
  | .addi d a i => some (formI 0x08000000 d a i)
  | .andi d a i => some (formI 0x0C000000 d a i)
  | .ori d a i => some (formI 0x10000000 d a i)
  | .xori d a i => some (formI 0x14000000 d a i)
  | .slti d a i => some (formI 0x1C000000 d a i)
  | .sltiu d a i => some (formI 0x20000000 d a i)
  | .shli d a n => some (formDA 0x18000000 d a + n.toNat)
  | .shriZ d a n => some (formDA 0x18001000 d a + n.toNat)
  | .shriS d a n => some (formDA 0x18002000 d a + n.toNat)
  | .rotri d a n => some (formDA 0x18003000 d a + n.toNat)
  | .li d i => some (formS 0x24000000 d i.toNat)
  | .liz d i => some (formS 0x24010000 d i.toNat)
  | .lui d i => some (formS 0x24020000 d i.toNat)
  | .lih d i => some (formS 0x24030000 d i.toNat)
  | .bfeZ d a w p => some (formDA 0x28000000 d a + w.toNat * 2 ^ 6 + p.toNat)
  | .bfeS d a w p => some (formDA 0x28002000 d a + w.toNat * 2 ^ 6 + p.toNat)
  | .bfi d a w p => some (formDA 0x2C000000 d a + w.toNat * 2 ^ 6 + p.toNat)
  | .beqz a o => some (formS 0x40000000 a o.toNat)
  | .bnez a o => some (formS 0x44000000 a o.toNat)
  | .bltz a o => some (formS 0x48000000 a o.toNat)
  | .bgez a o => some (formS 0x4C000000 a o.toNat)
  | .br o => some (0x50000000 + o.toNat)
  | .call a o => some (formS 0x54000000 a o.toNat)
  | .jmpr d a i => some (formI 0x58000000 d a i)
  | .lgo o => some (0x60000000 + o.toNat)
  | .ljoin => some (0x64000000)
  | .mskLive => some (0x68000000)
  | .mskN n => some (0x68010000 + n.toNat)
  | .exitScalar => some (0x6C000000)
  | .yield => some (0x70000000)
  | _ => none

/-- The words of majors 0x20 to 0x2E; none for any other. -/
def encodeMem : Instr → Option Nat
  | .ldScalar d a w x l q c f => some (formDA 0x80000000 d a + w.toNat * 2 ^ 12 + x.toNat * 2 ^ 11 + l.toNat * 2 ^ 10 + q.toNat * 2 ^ 9 + c.toNat * 2 ^ 6 + f.toNat)
  | .stScalar d a w l q c f => some (formDA 0x84000000 d a + w.toNat * 2 ^ 12 + l.toNat * 2 ^ 10 + q.toNat * 2 ^ 9 + c.toNat * 2 ^ 6 + f.toNat)
  | .atomScalar d a b c q o => some (formR 0x88000000 d a b + c.toNat * 2 ^ 5 + q.toNat * 2 ^ 3 + o.toNat)
  | .casScalar d a b c q w => some (formR 0x8C000000 d a b + c.toNat * 2 ^ 5 + q.toNat * 2 ^ 3 + w.toNat)
  | .fence t c m => some (0x90000000 + t.toNat * 2 ^ 16 + c.toNat * 2 ^ 4 + m.toNat)
  | .waitCounts t c s l => some (0x94000000 + t.toNat * 2 ^ 12 + c.toNat * 2 ^ 8 + s.toNat * 2 ^ 4 + l.toNat)
  | .waitln d a i => some (formI 0x98000000 d a i)
  | .waitlnV1 d a i => some (formI 0xB0000000 d a i)
  | .pause n => some (0x9C000000 + n.toNat)
  | .pauseV1v2 n => some (0xB8000000 + n.toNat)
  | .cpy1d d a => some (formDA 0xA0000000 d a)
  | .cpy1dFt d a => some (formDA 0xA0000008 d a)
  | .cpy2d d a => some (formDA 0xA0000001 d a)
  | .cpyGather d a => some (formDA 0xA0000002 d a)
  | .cpySeal d a => some (formDA 0xA0000003 d a)
  | .cpyAon d a => some (formDA 0xA0000004 d a)
  | .cpyVer d a => some (formDA 0xA0000005 d a)
  | .cpyReplay d a => some (formDA 0xA0000006 d a)
  | .collRadd d a t => some (formDA 0xA4000000 d a + t.toNat * 2 ^ 2)
  | .collBcast d a => some (formDA 0xA4000001 d a)
  | .collAgath d a => some (formDA 0xA4000002 d a)
  | .send d a b l => some (formR 0xA8000000 d a b + l.toNat)
  | .recvpost d a b => some (formR 0xAC000000 d a b)
  | .recvtst d b => some (0xAC000001 + d.toNat * 2 ^ 20 + b.toNat * 2 ^ 8)
  | .locSelf d => some (formS 0xB4000000 d 0)
  | .locHome d a => some (formDA 0xB4000001 d a)
  | .locBand d a => some (formDA 0xB4000002 d a)
  | _ => none

/-- The words of majors 0x30 to 0x3F; none for any other. -/
def encodeSys : Instr → Option Nat
  | .mma d a b k z p t => some (formR 0xC0000000 d a b + k.toNat * 2 ^ 5 + z.toNat * 2 ^ 4 + p.toNat * 2 ^ 3 + t.toNat)
  | .mlb d a b l p => some (formR 0xC4000000 d a b + l.toNat * 2 ^ 1 + p.toNat)
  | .mdrain d a b z i p t => some (formR 0xC8000000 d a b + z.toNat * 2 ^ 5 + i.toNat * 2 ^ 4 + p.toNat * 2 ^ 3 + t.toNat)
  | .acccpySt d a b p t => some (formR 0xCC000000 d a b + p.toNat * 2 ^ 3 + t.toNat)
  | .acccpyLd d a b p t => some (formR 0xCC000010 d a b + p.toNat * 2 ^ 3 + t.toNat)
  | .seminc d a c => some (formDA 0xD0000000 d a + c.toNat)
  | .semwait d a c => some (formDA 0xD4000000 d a + c.toNat)
  | .semtst d a c => some (formDA 0xD8000000 d a + c.toNat)
  | .bararr b => some (0xDC000000 + b.toNat)
  | .barwait d b => some (formS 0xDC010000 d b.toNat)
  | .launch d a => some (formDA 0xE0000000 d a)
  | .spawn a b => some (0xE4000000 + a.toNat * 2 ^ 14 + b.toNat * 2 ^ 8)
  | .joinc => some (0xE8000000)
  | .xacq w => some (0xEC000000 + w.toNat)
  | .xrel w => some (0xEC010000 + w.toNat)
  | .schussOff => some (0xF0000000)
  | .schussOn => some (0xF0010000)
  | .schussBud n => some (0xF0020000 + n.toNat)
  | .schussOffV2 => some (0xF4000000)
  | .schussOnV2 => some (0xF4010000)
  | .schussBudV2 n => some (0xF4020000 + n.toNat)
  | .sysrd d n => some (0xF8000000 + d.toNat * 2 ^ 20 + n.toNat * 2 ^ 8)
  | .syswr d n => some (0xF8000001 + d.toNat * 2 ^ 20 + n.toNat * 2 ^ 8)
  | .trap n => some (0xF8000002 + n.toNat * 2 ^ 8)
  | .tret => some (0xF8000003)
  | .dclk d => some (formS 0xF8000004 d 0)
  | .brk n => some (0xF8000005 + n.toNat * 2 ^ 8)
  | .nopScalar x y => some (0xFC000000 + x.toNat * 2 ^ 14 + y.toNat)
  | .prefL1 a i => some (0xFC100000 + a.toNat * 2 ^ 14 + i.toNat)
  | .prefSl a i => some (0xFC200000 + a.toNat * 2 ^ 14 + i.toNat)
  | .prefTr a i => some (0xFC300000 + a.toNat * 2 ^ 14 + i.toNat)
  | .shintSkip x y => some (0xFD000000 + x.toNat * 2 ^ 14 + y.toNat)
  | _ => none

/-- The word of a scalar instruction; none for any other. -/
def encodeScalar (i : Instr) : Option Nat :=
  match encodeAlu i with
  | some w => some w
  | none => match encodeImm i with
    | some w => some w
    | none => match encodeMem i with
      | some w => some w
      | none => encodeSys i

/-- The word of a lane instruction; none for any other. -/
def encodeLane : Instr → Option Nat
  | .nopLane w => some (encodeLong 0x000 w)
  | .mov w => some (encodeLong 0x001 w)
  | .tidx w => some (encodeLong 0x002 w)
  | .addI32 w => some (encodeLong 0x008 w)
  | .subI32 w => some (encodeLong 0x009 w)
  | .mulI32 w => some (encodeLong 0x00A w)
  | .mulhS32 w => some (encodeLong 0x00B w)
  | .mulhZ32 w => some (encodeLong 0x00C w)
  | .minS32 w => some (encodeLong 0x00D w)
  | .minZ32 w => some (encodeLong 0x00E w)
  | .maxS32 w => some (encodeLong 0x00F w)
  | .maxZ32 w => some (encodeLong 0x010 w)
  | .absS32 w => some (encodeLong 0x011 w)
  | .negS32 w => some (encodeLong 0x012 w)
  | .andB32 w => some (encodeLong 0x013 w)
  | .orB32 w => some (encodeLong 0x014 w)
  | .xorB32 w => some (encodeLong 0x015 w)
  | .andnB32 w => some (encodeLong 0x016 w)
  | .notB32 w => some (encodeLong 0x017 w)
  | .shlB32 w => some (encodeLong 0x018 w)
  | .shrZ32 w => some (encodeLong 0x019 w)
  | .shrS32 w => some (encodeLong 0x01A w)
  | .popcB32 w => some (encodeLong 0x01B w)
  | .clzB32 w => some (encodeLong 0x01C w)
  | .brevB32 w => some (encodeLong 0x01D w)
  | .cmpEqI32 w => some (encodeLong 0x020 w)
  | .cmpNeI32 w => some (encodeLong 0x021 w)
  | .cmpLtS32 w => some (encodeLong 0x022 w)
  | .cmpLeS32 w => some (encodeLong 0x023 w)
  | .cmpLtZ32 w => some (encodeLong 0x024 w)
  | .cmpLeZ32 w => some (encodeLong 0x025 w)
  | .addF32 w => some (encodeLong 0x028 w)
  | .subF32 w => some (encodeLong 0x029 w)
  | .mulF32 w => some (encodeLong 0x02A w)
  | .minF32 w => some (encodeLong 0x02B w)
  | .maxF32 w => some (encodeLong 0x02C w)
  | .cmpEqF32 w => some (encodeLong 0x02D w)
  | .cmpLtF32 w => some (encodeLong 0x02E w)
  | .cmpLeF32 w => some (encodeLong 0x02F w)
  | .addF16x2 w => some (encodeLong 0x030 w)
  | .subF16x2 w => some (encodeLong 0x031 w)
  | .mulF16x2 w => some (encodeLong 0x032 w)
  | .minF16x2 w => some (encodeLong 0x033 w)
  | .maxF16x2 w => some (encodeLong 0x034 w)
  | .addBf16x2 w => some (encodeLong 0x035 w)
  | .subBf16x2 w => some (encodeLong 0x036 w)
  | .mulBf16x2 w => some (encodeLong 0x037 w)
  | .minBf16x2 w => some (encodeLong 0x038 w)
  | .maxBf16x2 w => some (encodeLong 0x039 w)
  | .classF32 w => some (encodeLong 0x03A w)
  | .rcpF32 w => some (encodeLong 0x040 w)
  | .rsqF32 w => some (encodeLong 0x041 w)
  | .sqrtF32 w => some (encodeLong 0x042 w)
  | .ex2F32 w => some (encodeLong 0x043 w)
  | .lg2F32 w => some (encodeLong 0x044 w)
  | .sinF32 w => some (encodeLong 0x045 w)
  | .cosF32 w => some (encodeLong 0x046 w)
  | .tanhF32 w => some (encodeLong 0x047 w)
  | .cvtF32S32 w => some (encodeLong 0x048 w)
  | .cvtS32F32 w => some (encodeLong 0x049 w)
  | .cvtF32Z32 w => some (encodeLong 0x04A w)
  | .cvtZ32F32 w => some (encodeLong 0x04B w)
  | .cvtF16x2F32 w => some (encodeLong 0x04C w)
  | .cvtBf16x2F32 w => some (encodeLong 0x04D w)
  | .pand w => some (encodeLong 0x050 w)
  | .por w => some (encodeLong 0x051 w)
  | .pxor w => some (encodeLong 0x052 w)
  | .pandn w => some (encodeLong 0x053 w)
  | .madI32 w => some (encodeLong 0x080 w)
  | .mulhMadS32 w => some (encodeLong 0x081 w)
  | .fshRB32 w => some (encodeLong 0x082 w)
  | .fshLB32 w => some (encodeLong 0x082 w)
  | .bfeZ32 w => some (encodeLong 0x083 w)
  | .bfeS32 w => some (encodeLong 0x084 w)
  | .bfiB32 w => some (encodeLong 0x085 w)
  | .selB32 w => some (encodeLong 0x086 w)
  | .dot4S8 w => some (encodeLong 0x087 w)
  | .dot4Z8 w => some (encodeLong 0x088 w)
  | .dot2S16 w => some (encodeLong 0x089 w)
  | .dot2Z16 w => some (encodeLong 0x08A w)
  | .cmpI32 w => some (encodeLong 0x08B w)
  | .fmaF32 w => some (encodeLong 0x0A0 w)
  | .cmpF32 w => some (encodeLong 0x0A1 w)
  | .rndF32 w => some (encodeLong 0x0A2 w)
  | .fmaF16x2 w => some (encodeLong 0x0A3 w)
  | .fmaBf16x2 w => some (encodeLong 0x0A4 w)
  | .cmpF16x2 w => some (encodeLong 0x0A5 w)
  | .cmpBf16x2 w => some (encodeLong 0x0A6 w)
  | .rndF16x2 w => some (encodeLong 0x0A7 w)
  | .rndBf16x2 w => some (encodeLong 0x0A8 w)
  | .cvt w => some (encodeLong 0x0C0 w)
  | .qpack w => some (encodeLong 0x0C1 w)
  | .qpackScale w => some (encodeLong 0x0C1 w)
  | .qunpkF32 w => some (encodeLong 0x0C2 w)
  | .voteAny w => some (encodeLong 0x0E0 w)
  | .voteAll w => some (encodeLong 0x0E1 w)
  | .ballot w => some (encodeLong 0x0E2 w)
  | .firstThread w => some (encodeLong 0x0E3 w)
  | .smpl w => some (encodeLong 0x0E4 w)
  | .randB32 w => some (encodeLong 0x0E5 w)
  | .randCoF32 w => some (encodeLong 0x0E5 w)
  | .randOcF32 w => some (encodeLong 0x0E5 w)
  | .randV1v2 w => some (encodeLong 0x0E8 w)
  | .ldLane w => some (encodeLong 0x100 w)
  | .ldVer w => some (encodeLong 0x100 w)
  | .stLane w => some (encodeLong 0x101 w)
  | .atomLane w => some (encodeLong 0x102 w)
  | .casLane w => some (encodeLong 0x103 w)
  | .ll w => some (encodeLong 0x104 w)
  | .sc w => some (encodeLong 0x105 w)
  | .bra w => some (encodeLong 0x180 w)
  | .brx w => some (encodeLong 0x181 w)
  | .lend w => some (encodeLong 0x182 w)
  | .exitLane w => some (encodeLong 0x183 w)
  | .prefL1Lane w => some (encodeLong 0x3E0 w)
  | .prefSlLane w => some (encodeLong 0x3E1 w)
  | .prefTrLane w => some (encodeLong 0x3E2 w)
  | .shintSkipLane w => some (encodeLong 0x3F0 w)
  | .lanePairedWord a b => some (2 ^ 94 + encodeSlot a * 2 ^ 47 + encodeSlot b)
  | .unassignedLaneHint op w => some (encodeLong op.toNat w)
  | _ => none

/-- The bits and the word of an instruction; none for a step that has no encoding. -/
def encode (i : Instr) : Option (Nat × Nat) :=
  match encodeScalar i with
  | some w => some (32, w)
  | none => (encodeLane i).map fun w => (96, w)

/-- The encoding version an instruction's own position belongs to: 3 but for the rows of Table 3-2. -/
def versionOf : Instr → Nat
  | .waitlnV1 .. => 1
  | .pauseV1v2 .. => 2
  | .schussOffV2 => 2
  | .schussOnV2 => 2
  | .schussBudV2 .. => 2
  | .randV1v2 .. => 2
  | _ => 3

/-- Decoding of a word of `nbits` bits in version `v`: 32 bits are a scalar word, 96 a lane word. -/
def decodeWord (v nbits w : Nat) : Option Instr :=
  if nbits ≤ 32 then decodeScalar v (w % 2 ^ 32) else decodeLane v (w % 2 ^ 96)

/-- The version in which a table word is read: the newest that assigns it (log 10). (DEDUCED, log 10.) -/
def tableVersion (nbits w : Nat) : Nat :=
  if (decodeWord 3 nbits w).isSome then 3
  else if (decodeWord 2 nbits w).isSome then 2
  else if (decodeWord 1 nbits w).isSome then 1
  else 3

/-- The instruction the decoder reads from an opcode-table word: its bytes laid out as R49 stores them, then decoded.
(DEDUCED, log 10.) -/
def decodeTableWord (nbits w : Nat) : Option Instr :=
  let lane := decide (32 < nbits)
  match decodeBytes (tableVersion nbits w) lane (toBytes (if lane then 12 else 4) w) with
  | .ok i => some i
  | .error _ => none

end Sys2Proof
end

