-- ==== Sys2Proof/Machine/Fetch.lean ====
section
/-! DEFINITION. Issuing a word: which stream may issue, and the fetch and decoding of its next word (R49, R53, R54, R57, R72). -/

namespace Sys2Proof.Machine

open Sys2Proof

/-- The cores of a die stand still in the stop of a clock hop and while the die is under reset (R320, R413). -/
def dieStopped (s : State) (d : Nat) : Bool :=
  inHopStop s d || (getDie s d).reset.isSome

/-- Whether the stream `State.cur` names may issue a word: its team is on the core and not being saved, nothing stops the
core, and the stream is there: a lane stream that runs and is not suspended, or a scalar stream that has not executed its last
EXIT (R47, R394, R401). -/
def issuable (s : State) : Option Ctx :=
  match ctx? s with
  | none => none
  | some x =>
    if (x.team.state == .resident || x.team.state == .draining) && !dieStopped s (dieOf x.core) &&
        !(getPart s x.team.part).stopped && !(getCore s x.core).retired && !(getCore s x.core).testing &&
        (if x.lane then x.g.lane.running && !x.g.lane.suspended else x.g.state != .exiting)
    then some x else none

/-- What a fetch gives: an instruction, a word that is none (with the slot its fault names), or a fault. -/
inductive Fetched where
  | instr (i : Instr)
  | illegal (slot : Nat)
  | fault (f : FaultInfo)
  deriving Repr

/-- Address of the word a stream issues next, its length, and whether it lies in its section (R49, R53). -/
def wordAt (x : Ctx) : Nat × Nat × Bool :=
  if x.lane then
    (x.grid.image + x.grid.hdr.laneOff + 12 * x.g.lane.lpc, 12, decide (x.g.lane.lpc < x.grid.hdr.laneSize))
  else
    let pc := x.g.spc.toNat
    (x.grid.image + x.grid.hdr.scalarOff + pc, 4, decide (pc < 4 * x.grid.hdr.scalarSize) && pc % 4 == 0)

/-- The bytes of the next word. A page of the image that is broken gives the lease-broken fault (R52). -/
def fetchBytes (s : State) (x : Ctx) : Option (List Byte) :=
  readVirt s x.team.part x.grid.pasid (wordAt x).1 (wordAt x).2.1

/-- Whether a word's page has lost its translation to a migration: the fetch waits (R371). -/
def fetchMoving (s : State) (x : Ctx) : Bool :=
  (pagesOf (wordAt x).1 (wordAt x).2.1).any fun k => pageMoving (getPart s x.team.part) x.grid.pasid k

/-- The fault of a fetch whose bytes cannot be read: a translation that is missing, or falls in another partition's window or a context
area, before a broken page (R52, R252, R364). -/
def fetchFault (s : State) (x : Ctx) : Nat :=
  if (tab (wordAt x).2.1 fun i => translate s x.team.part x.grid.pasid ((wordAt x).1 + i)).contains .fault then 0x22 else 0x21

def fetchWord (s : State) (x : Ctx) : Fetched :=
  if !(wordAt x).2.2 then .fault { code := 0x04 }
  else match fetchBytes s x with
    | none => .fault { code := fetchFault s x, addr := (wordAt x).1 }
    | some bs => match decodeBytes x.grid.hdr.version x.lane bs with
      | .ok i => .instr i
      | .error _ => .illegal 2

end Sys2Proof.Machine
end

