-- ==== Sys2Proof/Machine/LaneCtl.lean ====
section
/-! DEFINITION. Lane control: branches over the reconvergence stack, LEND, lane EXIT, and the path switch (R27, R295 - R306). -/

namespace Sys2Proof.Machine

open Sys2Proof

/-- rcv as a reconvergence PC: 0xF_FFFF is none (R295). (DEDUCED, log 23.) -/
def rcvOf (w : LaneWord) : Option Nat := if ctlRcv w = 0xFFFFF then none else some (ctlRcv w)

/-- A control word: its decode checks, its rcv against the lane size, and its effect. A word that ends an episode does so before
it issues (R295, R301). -/
def laneCtl (s : State) (op : CtlOp) (w : LaneWord) (f : Ctx → State) : Host.Outcome State Fault Refusal :=
  withCtx s fun x =>
    let branch := op == .bra || op == .brx
    let idx := if op = .brx ∧ fieldKind w.dst.toNat = .vec then [(4, w.dst.toNat)] else []
    let sidx := if op = .brx ∧ fieldKind w.dst.toNat = .scal then [w.dst.toNat - 320] else []
    if !ctlLegal op w then raise s x { code := 0x01 }
    else match badReg x idx with
      | some n => raise s x { code := 0x03, aux := n }
      | none =>
        if branch && (match rcvOf w with | some r => decide (x.grid.hdr.laneSize ≤ r) | none => false) then raise s x { code := 0x04 }
        else if inEpisode x && !branch then stopEpisode s x
        else if waitsL s x (idx.map (·.2)) sidx then s
        else f x

/-- A divergence of the current path over sets of threads with their targets, the first of which runs on: a join is pushed where
the reconvergence point changes, then the other sets, the lowest thread's on top (R299). (DEDUCED, log 23.) -/
def diverge (s : State) (x : Ctx) (rcv : Option Nat) (join : Nat) (sets : List (Nat × Mask)) : State :=
  let m := laneMask x.g
  let r := x.g.lane.rpc
  let st0 := x.g.lane.stack
  let st1 := if rcv ≠ r then { join := true, lpc := join, mask := m, rpc := r } :: st0 else st0
  let r1 := if rcv ≠ r then rcv else r
  match sets with
  | [] => s
  | (pc, mask) :: others =>
    let paths : List PathEntry := others.map fun q => { join := false, lpc := q.1, mask := q.2, rpc := r1 }
    let st2 := paths ++ st1
    if 32 < st2.length then raise s x { code := 0x07, thread := (mfirst m).getD 127, mask := m }
    else
      let g := setLaneMask { x.g with lane := { x.g.lane with rpc := r1, stack := st2 } } mask
      putG s x (laneNext s.now g pc)

/-- The path goes on undivided at `pc`. -/
def laneJump (s : State) (x : Ctx) (pc : Nat) : State := putG s x (laneNext s.now x.g pc)

/-- Threads whose guard passes take the branch. R299; under Schuss R301. -/
def execBra (w : LaneWord) (s : State) : Host.Outcome State Fault Refusal :=
  laneCtl s .bra w fun x =>
    let m := laneMask x.g
    let t := m &&& guardMask x.g w &&& ~~~(invP x w.pred.toNat)
    let f := m &&& ~~~t
    let fall := x.g.lane.lpc + 1
    if t = 0 then laneJump s x fall
    else if f = 0 then laneJump s x (ctlTarget w)
    else
      let taken := (mfirst t).getD 96 < (mfirst f).getD 96
      diverge s x (rcvOf w) (ctlRcv w) (if taken then [(ctlTarget w, t), (fall, f)] else [(fall, f), (ctlTarget w, t)])

/-- The threads of a mask by their targets, in rising order of each set's lowest thread. -/
def byTarget (m : Mask) (target : Nat → Nat) : List (Nat × Mask) :=
  (maskThreads m).foldl (fun acc t =>
    if acc.any fun q => q.1 == target t then acc.map fun q => if q.1 = target t then (q.1, mset1 q.2 t) else q
    else acc ++ [(target t, mset1 0 t)]) []

/-- A branch through a table of n consecutive lane words. R299; under Schuss R301. -/
def execBrx (w : LaneWord) (s : State) : Host.Outcome State Fault Refusal :=
  laneCtl s .brx w fun x =>
    let d := w.dst.toNat
    let target := fun (t : Nat) =>
      let v := operand x.g .int d 0 t
      if operandInv x .int d 0 t then x.g.lane.lpc + 1
      else ctlTarget w + (if v.toNat < ctlN w then v.toNat else ctlN w - 1)
    match byTarget (laneMask x.g) target with
    | [] => laneJump s x (x.g.lane.lpc + 1)
    | [(pc, _)] => laneJump s x pc
    | sets => diverge s x (rcvOf w) (ctlRcv w) sets

/-- The threads of the current path are finished. R297, R300. -/
def execLend (w : LaneWord) (s : State) : Host.Outcome State Fault Refusal :=
  laneCtl s .lend w fun x =>
    let m := laneMask x.g
    let l := x.g.lane
    let st := l.stack.map fun e => { e with mask := e.mask &&& ~~~m }
    laneDone s x (setLaneMask { x.g with lane := { l with ended := l.ended ||| m, stack := st } } 0)

/-- Threads leave: their live bits, and their bits in every mask, are cleared (R25, R297). -/
def dropThreads (g : Group) (e : Mask) : Group :=
  let g1 := { g with live := g.live &&& ~~~e }
  let fix := fun (m : SMap Word) => [0, 1, 2].foldl (fun m k => mput m (61 + k) (mget 0 m (61 + k) &&& liveWord g1 k)) m
  { g1 with
    sregs := fix g1.sregs,
    episode := g1.episode.map fun p => { p with saved := { p.saved with sregs := fix p.saved.sregs } },
    lane := { g1.lane with view := fix g1.lane.view, stack := liveList g1 g1.lane.stack, ended := g1.lane.ended &&& g1.live } }

/-- The considered threads exit; the others go on. R27, R300. -/
def execExitLane (w : LaneWord) (s : State) : Host.Outcome State Fault Refusal :=
  laneCtl s .exit w fun x => laneDone s x (dropThreads x.g (considered x.g w))

/-! ## The path switch (R305, R306) -/

/-- The entry of a stack, counted from the top, in which thread u lies as a path, or else the topmost that holds it. -/
def findPath (l : List PathEntry) (u : Nat) : Option Nat := l.findIdx? fun e => !e.join && mtest e.mask u
def findAny (l : List PathEntry) (u : Nat) : Option Nat := l.findIdx? fun e => mtest e.mask u

/-- The switch to the path of thread u. An rPC of none stands for 0xF_FFFF. -/
def switchTo (g : Group) (u : Nat) : Group :=
  let l := g.lane
  let cur := laneMask g
  match findPath l.stack u with
  | some k =>
    match l.stack[k]? with
    | some e =>
      let rest := l.stack.eraseIdx k
      let here : PathEntry := { join := false, lpc := l.lpc, mask := cur, rpc := l.rpc }
      setLaneMask { g with lane := { l with lpc := e.lpc, rpc := e.rpc, stack := here :: rest } } e.mask
    | none => g
  | none =>
    match findAny l.stack u with
    | some k =>
      match l.stack[k]? with
      | some j =>
        let above := l.stack.take k
        let w := above.foldl (fun m e => m &&& ~~~e.mask) (j.mask &&& ~~~cur)
        let fix := fun (r : Option Nat) => if r.getD 0xFFFFF = j.lpc then j.rpc else r
        let here : PathEntry := { join := false, lpc := l.lpc, mask := cur, rpc := fix l.rpc }
        let st := here :: (above.map fun e => { e with rpc := fix e.rpc }) ++ l.stack.drop (k + 1)
        setLaneMask { g with lane := { l with lpc := j.lpc, rpc := j.rpc, stack := st } } w
      | none => g
    | none => g

/-- The timer has run for 2,048 cycles and the hold count is 0: the lowest runnable lane thread's path becomes current, and every
LL reservation of the group is cleared. R305, R306; not in an episode or handler mode (R301, R395), nor while the team is saved
(R303), nor while the current path waits for a load of its mask. (DEDUCED, log 24.) -/
def execPathSwitch (core group : Nat) (s : State) : Host.Outcome State Fault Refusal :=
  match groupOf s core group, teamOf s core with
  | some g, some t =>
    let due := match g.lane.offSince with | some t => decide (t + 2048 * coreDiv s core ≤ s.now) | none => false
    match mfirst (pathThreads g) with
    | some u =>
      if activeTeam t && !coreStopped s core && g.lane.running && !g.lane.suspended && g.episode.isNone && due
          && !g.lane.maskOwed && g.lane.hold == 0 && !mtest (laneMask g) u then
        let g1 := switchTo g u
        .next (setGroup s core group
          (timerG s.now (settle 40 { g1 with resv := [], lane := { g1.lane with offSince := none, gathered := none } })))
      else .next s
    | none => .next s
  | _, _ => .next s

end Sys2Proof.Machine
end

