-- ==== Sys2Proof/Machine/Uses.lean ====
section
/-! DEFINITION. The registers each instruction reads and writes, for issue selection (R334), Schuss entry (R337), the grant ration
(R341) and the reads of uncorrectable words (R411). -/

namespace Sys2Proof.Machine

open Sys2Proof

def pairRegs (a : BitVec 6) : List Nat := [a.toNat, a.toNat + 1]
def baseRegs (a : BitVec 6) (one : Bool) : List Nat := if one then [a.toNat] else pairRegs a

/-- The registers of the scalar file an instruction reads, and those it writes or loads. -/
def scalarRegs (i : Instr) : List Nat × List Nat :=
  match i with
  | .add d a b => ([a.toNat, b.toNat], [d.toNat])
  | .sub d a b => ([a.toNat, b.toNat], [d.toNat])
  | .andR d a b => ([a.toNat, b.toNat], [d.toNat])
  | .orR d a b => ([a.toNat, b.toNat], [d.toNat])
  | .xorR d a b => ([a.toNat, b.toNat], [d.toNat])
  | .andn d a b => ([a.toNat, b.toNat], [d.toNat])
  | .shl d a b => ([a.toNat, b.toNat], [d.toNat])
  | .shrZ d a b => ([a.toNat, b.toNat], [d.toNat])
  | .shrS d a b => ([a.toNat, b.toNat], [d.toNat])
  | .rotr d a b => ([a.toNat, b.toNat], [d.toNat])
  | .slt d a b => ([a.toNat, b.toNat], [d.toNat])
  | .sltu d a b => ([a.toNat, b.toNat], [d.toNat])
  | .seq d a b => ([a.toNat, b.toNat], [d.toNat])
  | .sne d a b => ([a.toNat, b.toNat], [d.toNat])
  | .minS d a b => ([a.toNat, b.toNat], [d.toNat])
  | .minZ d a b => ([a.toNat, b.toNat], [d.toNat])
  | .maxS d a b => ([a.toNat, b.toNat], [d.toNat])
  | .maxZ d a b => ([a.toNat, b.toNat], [d.toNat])
  | .mul d a b => ([a.toNat, b.toNat], [d.toNat])
  | .mulhS d a b => ([a.toNat, b.toNat], [d.toNat])
  | .mulhZ d a b => ([a.toNat, b.toNat], [d.toNat])
  | .divS d a b => ([a.toNat, b.toNat], [d.toNat])
  | .divZ d a b => ([a.toNat, b.toNat], [d.toNat])
  | .remS d a b => ([a.toNat, b.toNat], [d.toNat])
  | .remZ d a b => ([a.toNat, b.toNat], [d.toNat])
  | .popc d a => ([a.toNat], [d.toNat])
  | .clz d a => ([a.toNat], [d.toNat])
  | .brev d a => ([a.toNat], [d.toNat])
  | .sel d a b c => ([a.toNat, b.toNat, c.toNat], [d.toNat])
  | .addi d a _ => ([a.toNat], [d.toNat])
  | .andi d a _ => ([a.toNat], [d.toNat])
  | .ori d a _ => ([a.toNat], [d.toNat])
  | .xori d a _ => ([a.toNat], [d.toNat])
  | .slti d a _ => ([a.toNat], [d.toNat])
  | .sltiu d a _ => ([a.toNat], [d.toNat])
  | .shli d a _ => ([a.toNat], [d.toNat])
  | .shriZ d a _ => ([a.toNat], [d.toNat])
  | .shriS d a _ => ([a.toNat], [d.toNat])
  | .rotri d a _ => ([a.toNat], [d.toNat])
  | .li d _ => ([], [d.toNat])
  | .liz d _ => ([], [d.toNat])
  | .lui d _ => ([], [d.toNat])
  | .lih d _ => ([d.toNat], [d.toNat])
  | .bfeZ d a _ _ => ([a.toNat], [d.toNat])
  | .bfeS d a _ _ => ([a.toNat], [d.toNat])
  | .bfi d a _ _ => ([a.toNat, d.toNat], [d.toNat])
  | .beqz a _ => ([a.toNat], [])
  | .bnez a _ => ([a.toNat], [])
  | .bltz a _ => ([a.toNat], [])
  | .bgez a _ => ([a.toNat], [])
  | .call a _ => ([], [a.toNat])
  | .jmpr d a _ => ([a.toNat], [d.toNat])
  | .mskLive => ([], [61, 62, 63])
  | .mskN _ => ([], [61, 62, 63])
  | .ldScalar d a w _ l _ _ _ => (baseRegs a (l == 1), regsFrom d (if w = 3 then 2 else 1))
  | .stScalar d a w l _ _ _ => (baseRegs a (l == 1) ++ regsFrom d (if w = 3 then 2 else 1), [])
  | .atomScalar d a b c _ _ => (baseRegs a (c == 7) ++ [b.toNat], [d.toNat])
  | .casScalar d a b c _ w => (baseRegs a (c == 7) ++ regsFrom b (if w = 1 then 2 else 1) ++ regsFrom d (if w = 1 then 2 else 1), [])
  | .waitln d a _ => (pairRegs a ++ [d.toNat], [])
  | .waitlnV1 d a _ => (pairRegs a ++ [d.toNat], [])
  | .cpy1d d a => (semRegs d ++ [a.toNat], [])
  | .cpy1dFt d a => (semRegs d ++ [a.toNat], [])
  | .cpy2d d a => (semRegs d ++ [a.toNat], [])
  | .cpyGather d a => (semRegs d ++ [a.toNat], [])
  | .cpySeal d a => (semRegs d ++ [a.toNat], [])
  | .cpyAon d a => (semRegs d ++ [a.toNat], [])
  | .cpyVer d a => (semRegs d ++ [a.toNat], [])
  | .cpyReplay d a => (semRegs d ++ [a.toNat], [])
  | .collRadd d a _ => (semRegs d ++ [a.toNat], [])
  | .collBcast d a => (semRegs d ++ [a.toNat], [])
  | .collAgath d a => (semRegs d ++ [a.toNat], [])
  | .send d a b _ => (semRegs d ++ [a.toNat, b.toNat], [])
  | .recvpost d a b => (semRegs d ++ [a.toNat, b.toNat], [])
  | .recvtst d b => ([b.toNat], pairRegs d)
  | .locSelf d => ([], [d.toNat])
  | .locHome d a => (pairRegs a, [d.toNat])
  | .locBand d a => ([a.toNat], [d.toNat])
  | .mma d a b _ _ _ _ => (semRegs d ++ pairRegs a ++ [b.toNat], [])
  | .mlb d a b l _ => (semRegs d ++ baseRegs a (l == 1) ++ [b.toNat], [])
  | .mdrain d a b _ _ _ _ => (semRegs d ++ [a.toNat, b.toNat], [])
  | .acccpySt d a b _ _ => (semRegs d ++ [a.toNat, b.toNat], [])
  | .acccpyLd d a b _ _ => (semRegs d ++ [a.toNat, b.toNat], [])
  | .seminc d a _ => (pairRegs a ++ [d.toNat], [])
  | .semwait d a _ => (pairRegs a ++ [d.toNat], [])
  | .semtst d a _ => (pairRegs a, [d.toNat])
  | .barwait d _ => ([], [d.toNat])
  | .launch d a => (pairRegs a, [d.toNat])
  | .spawn a b => ([a.toNat, b.toNat], [])
  | .sysrd d n => ([], wideRegs d (sysWide n.toNat))
  | .syswr d n => (wideRegs d (sysWide n.toNat), [])
  | .dclk d => ([], wideRegs d true)
  | .prefL1 a _ => (pairRegs a, [])
  | .prefSl a _ => (pairRegs a, [])
  | .prefTr a _ => (pairRegs a, [])
  | _ => ([], [])

/-- What a lane word is, with its fields. -/
inductive LaneUse where
  | none
  | alu (op : LaneOp) (w : LaneWord)
  | pair (a b : ShortOp)
  | mem (op : MemOp) (w : LaneWord)
  | ctl (op : CtlOp) (w : LaneWord)
  | pref (w : LaneWord)
  deriving DecidableEq, Repr

def laneUse (i : Instr) : LaneUse :=
  match i with
  | .nopLane w => .alu .nopLane w
  | .mov w => .alu .mov w
  | .tidx w => .alu .tidx w
  | .addI32 w => .alu .addI32 w
  | .subI32 w => .alu .subI32 w
  | .mulI32 w => .alu .mulI32 w
  | .mulhS32 w => .alu .mulhS32 w
  | .mulhZ32 w => .alu .mulhZ32 w
  | .minS32 w => .alu .minS32 w
  | .minZ32 w => .alu .minZ32 w
  | .maxS32 w => .alu .maxS32 w
  | .maxZ32 w => .alu .maxZ32 w
  | .absS32 w => .alu .absS32 w
  | .negS32 w => .alu .negS32 w
  | .andB32 w => .alu .andB32 w
  | .orB32 w => .alu .orB32 w
  | .xorB32 w => .alu .xorB32 w
  | .andnB32 w => .alu .andnB32 w
  | .notB32 w => .alu .notB32 w
  | .shlB32 w => .alu .shlB32 w
  | .shrZ32 w => .alu .shrZ32 w
  | .shrS32 w => .alu .shrS32 w
  | .popcB32 w => .alu .popcB32 w
  | .clzB32 w => .alu .clzB32 w
  | .brevB32 w => .alu .brevB32 w
  | .cmpEqI32 w => .alu .cmpEqI32 w
  | .cmpNeI32 w => .alu .cmpNeI32 w
  | .cmpLtS32 w => .alu .cmpLtS32 w
  | .cmpLeS32 w => .alu .cmpLeS32 w
  | .cmpLtZ32 w => .alu .cmpLtZ32 w
  | .cmpLeZ32 w => .alu .cmpLeZ32 w
  | .addF32 w => .alu .addF32 w
  | .subF32 w => .alu .subF32 w
  | .mulF32 w => .alu .mulF32 w
  | .minF32 w => .alu .minF32 w
  | .maxF32 w => .alu .maxF32 w
  | .cmpEqF32 w => .alu .cmpEqF32 w
  | .cmpLtF32 w => .alu .cmpLtF32 w
  | .cmpLeF32 w => .alu .cmpLeF32 w
  | .addF16x2 w => .alu .addF16x2 w
  | .subF16x2 w => .alu .subF16x2 w
  | .mulF16x2 w => .alu .mulF16x2 w
  | .minF16x2 w => .alu .minF16x2 w
  | .maxF16x2 w => .alu .maxF16x2 w
  | .addBf16x2 w => .alu .addBf16x2 w
  | .subBf16x2 w => .alu .subBf16x2 w
  | .mulBf16x2 w => .alu .mulBf16x2 w
  | .minBf16x2 w => .alu .minBf16x2 w
  | .maxBf16x2 w => .alu .maxBf16x2 w
  | .classF32 w => .alu .classF32 w
  | .rcpF32 w => .alu .rcpF32 w
  | .rsqF32 w => .alu .rsqF32 w
  | .sqrtF32 w => .alu .sqrtF32 w
  | .ex2F32 w => .alu .ex2F32 w
  | .lg2F32 w => .alu .lg2F32 w
  | .sinF32 w => .alu .sinF32 w
  | .cosF32 w => .alu .cosF32 w
  | .tanhF32 w => .alu .tanhF32 w
  | .cvtF32S32 w => .alu .cvtF32S32 w
  | .cvtS32F32 w => .alu .cvtS32F32 w
  | .cvtF32Z32 w => .alu .cvtF32Z32 w
  | .cvtZ32F32 w => .alu .cvtZ32F32 w
  | .cvtF16x2F32 w => .alu .cvtF16x2F32 w
  | .cvtBf16x2F32 w => .alu .cvtBf16x2F32 w
  | .pand w => .alu .pand w
  | .por w => .alu .por w
  | .pxor w => .alu .pxor w
  | .pandn w => .alu .pandn w
  | .madI32 w => .alu .madI32 w
  | .mulhMadS32 w => .alu .mulhMadS32 w
  | .fshRB32 w => .alu .fshRB32 w
  | .fshLB32 w => .alu .fshLB32 w
  | .bfeZ32 w => .alu .bfeZ32 w
  | .bfeS32 w => .alu .bfeS32 w
  | .bfiB32 w => .alu .bfiB32 w
  | .selB32 w => .alu .selB32 w
  | .dot4S8 w => .alu .dot4S8 w
  | .dot4Z8 w => .alu .dot4Z8 w
  | .dot2S16 w => .alu .dot2S16 w
  | .dot2Z16 w => .alu .dot2Z16 w
  | .cmpI32 w => .alu .cmpI32 w
  | .fmaF32 w => .alu .fmaF32 w
  | .cmpF32 w => .alu .cmpF32 w
  | .rndF32 w => .alu .rndF32 w
  | .fmaF16x2 w => .alu .fmaF16x2 w
  | .fmaBf16x2 w => .alu .fmaBf16x2 w
  | .cmpF16x2 w => .alu .cmpF16x2 w
  | .cmpBf16x2 w => .alu .cmpBf16x2 w
  | .rndF16x2 w => .alu .rndF16x2 w
  | .rndBf16x2 w => .alu .rndBf16x2 w
  | .cvt w => .alu .cvt w
  | .qpack w => .alu .qpack w
  | .qpackScale w => .alu .qpackScale w
  | .qunpkF32 w => .alu .qunpkF32 w
  | .voteAny w => .alu .voteAny w
  | .voteAll w => .alu .voteAll w
  | .ballot w => .alu .ballot w
  | .firstThread w => .alu .firstThread w
  | .smpl w => .alu .smpl w
  | .randB32 w => .alu .randB32 w
  | .randCoF32 w => .alu .randCoF32 w
  | .randOcF32 w => .alu .randOcF32 w
  | .randV1v2 w => .alu .randV1v2 w
  | .ldLane w => .mem .ld w
  | .ldVer w => .mem .ldVer w
  | .stLane w => .mem .st w
  | .atomLane w => .mem .atom w
  | .casLane w => .mem .cas w
  | .ll w => .mem .ll w
  | .sc w => .mem .sc w
  | .bra w => .ctl .bra w
  | .brx w => .ctl .brx w
  | .lend w => .ctl .lend w
  | .exitLane w => .ctl .exit w
  | .lanePairedWord a b => .pair a b
  | .prefL1Lane w => .pref w
  | .prefSlLane w => .pref w
  | .prefTrLane w => .pref w
  | _ => .none

/-- The operation and long form of each slot of a word in a version. -/
def aluParts (v : Nat) (u : LaneUse) : List (LaneOp × LaneWord) :=
  match u with
  | .alu op w => [(op, w)]
  | .pair a b => [a, b].filterMap fun q => (shortOpcode v q.op.toNat).map fun op => (op, shortWord q)
  | _ => []

/-- The vector registers a lane word names, and the view registers. -/
def laneRegs (v : Nat) (u : LaneUse) : List Nat × List Nat :=
  match u with
  | .pref w => if basePairOk w.srcA.toNat then prefBase w else ([], [])
  | .mem op w => ((memRegs op w).map (·.2), memScal op w)
  | .ctl op w =>
    if op = .brx ∧ fieldKind w.dst.toNat = .vec then ([w.dst.toNat], [])
    else if op = .brx ∧ fieldKind w.dst.toNat = .scal then ([], [w.dst.toNat - 320])
    else ([], [])
  | _ => ((aluParts v u).flatMap fun q => vecUses q.1 q.2, (aluParts v u).flatMap fun q => scalUses q.1 q.2)

/-- The distinct vector registers a lane word reads: one bank read for each. -/
def bankReads (v : Nat) (u : LaneUse) : List Nat :=
  dedup (match u with
    | .mem op w => (memRegs op w).filterMap fun q => if q.1 = 0 && op != .cas then Option.none else some q.2
    | .none => []
    | .ctl _ _ | .pref _ => (laneRegs v u).1
    | _ => (aluParts v u).flatMap fun q => vecReads q.1 q.2)

end Sys2Proof.Machine
end

