-- ==== Sys2Proof/Machine/Issue.lean ====
section
/-! DEFINITION. Issue: the reads of uncorrectable words (R411), issue selection with its counters (R334, R335), the grant ration
(R66, R341), the boost (R307), and the entry and budget of Schuss episodes (R337 - R339). -/

namespace Sys2Proof.Machine

open Sys2Proof

/-! ## The next word of a stream -/

/-- The state seen from a stream, when its word may issue. -/
def streamAt (s : State) (core group : Nat) (lane : Bool) : Option Ctx :=
  issuable { s with cur := { core := core, group := group, lane := lane } }

def nextInstr (s : State) (x : Ctx) : Option Instr := match fetchWord s x with | .instr i => some i | _ => none

/-- Whether an instruction makes the copy-back of a lane stream that has ended (R28, R29): it reads what the stream wrote of its view, and
writes it to the scalar file. -/
def copiesBack (x : Ctx) (i : Instr) : Bool :=
  x.g.lane.started && !x.g.lane.running && match i with | .lgo _ | .ljoin => true | _ => false

/-- The scalar registers an instruction reads: LGO every one that it does not copy back first (R28). -/
def scalarReads (x : Ctx) (i : Instr) : List Nat :=
  match i with
  | .lgo _ => if x.g.lane.running then [] else (List.range 64).filter fun r => !(copiesBack x i && (joinRegs x.g).contains r)
  | _ => (scalarRegs i).1

/-- Those it writes: LGO and LJOIN those of the copy-back (R28). -/
def scalarWrites (x : Ctx) (i : Instr) : List Nat := if copiesBack x i then joinRegs x.g else (scalarRegs i).2

/-- The outstanding operations whose destinations an instruction names: it waits for them. LGO waits for every scalar register, while the
lane stream runs too, and a copy-back for the view as well (R28). -/
def waitsFor (s : State) (x : Ctx) (i : Instr) : List PendOp :=
  let regs := (match i with | .lgo _ => List.range 64 | _ => scalarReads x i) ++ scalarWrites x i
  if x.lane then
    let r := laneRegs x.grid.hdr.version (laneUse i)
    (pendOps s x).filter fun o =>
      writesMask o || (destV o.dest).any (fun n => r.1.contains n) || (destView o.dest).any fun n => r.2.contains n
  else
    (pendOps s x).filter fun o => (destS o.dest).any (fun n => regs.contains n) || (copiesBack x i && !(destView o.dest).isEmpty)

/-! ## Uncorrectable words (R411) -/

/-- The acting stream as though the listed registers of its group carried marks: what reads a mark reads a bad word. -/
def badCtx (x : Ctx) : Ctx :=
  let vs := x.team.bad.foldl (fun (m : SMap Mask) b => match b with
    | .vreg g r t => if g = x.gi then mmod 0 m r (fun k => mset1 k t) else m
    | _ => m) []
  let c : Checkpoint := { sregs := [], preds := [], vregs := [], spc := 0, lane := {} }
  { x with g := { x.g with episode := some { lane := x.lane, op := 0, start := 0, saved := c, invV := vs } } }

/-- The threads for which a lane operation reads a marked register: of a uniform word thread f alone, when its guard passes (R26). -/
def aluBad (x y : Ctx) (q : LaneOp × LaneWord) : Mask :=
  let u := srcUse q.1 q.2.mod.toNat
  memThreads x q.2 &&& maskOf fun t =>
    operandInv y u.1 q.2.srcA.toNat q.2.rtA.toNat t || operandInv y u.2.1 q.2.srcB.toNat q.2.rtB.toNat t ||
      operandInv y u.2.2 q.2.srcC.toNat q.2.rtC.toNat t

def memBad (x y : Ctx) (op : MemOp) (w : LaneWord) : Mask :=
  let m := w.mod.toNat
  let reg := fun (f n rt t : Nat) => (upFrom f n).any fun r => operandInv y .int r rt t
  memThreads x w &&& maskOf fun t =>
    reg w.srcA.toNat (if mLocal m then 1 else 2) 0 t || reg w.srcB.toNat (memDataRegs op m) w.rtB.toNat t ||
      (op == .cas && reg w.dst.toNat (widthRegs (mWidth m)) 0 t) ||
      (mLocal m && op != .st && badScratch x.team (memAddr x op w t) (memSize op m))

/-- The threads for which a lane word reads a listed word. -/
def laneBad (x : Ctx) (u : LaneUse) : Mask :=
  let y := badCtx x
  match u with
  | .mem op w => memBad x y op w
  | .ctl op w => if op = .brx then laneMask x.g &&& maskOf fun t => operandInv y .int w.dst.toNat 0 t else 0
  | _ => (aluParts x.grid.hdr.version u).foldl (fun m q => m ||| aluBad x y q) 0

/-- Scratch bytes a scalar instruction reads itself, command blocks among them. -/
def scalarScratch (x : Ctx) (i : Instr) : List (Nat × Nat) :=
  let at_ := fun (a : BitVec 6) => (rdS x.g a.toNat).toNat
  let desc := fun (a : BitVec 6) => [(at_ a, 64)]
  match i with
  | .ldScalar _ a w _ l _ _ f => if l = 1 then [(localAddr (rdS x.g a.toNat) (f.toInt * widthBytes w.toNat), widthBytes w.toNat)] else []
  | .atomScalar _ a _ c _ _ => if c = 7 then [(localAddr (rdS x.g a.toNat) 0, 4)] else []
  | .casScalar _ a _ c _ w => if c = 7 then [(localAddr (rdS x.g a.toNat) 0, if w = 1 then 8 else 4)] else []
  | .cpy1d _ a => desc a
  | .cpy1dFt _ a => desc a
  | .cpy2d _ a => desc a
  | .cpyGather _ a => desc a
  | .cpySeal _ a => desc a
  | .cpyAon _ a => desc a
  | .cpyVer _ a => desc a
  | .cpyReplay _ a => desc a
  | .collRadd _ a _ => desc a
  | .collBcast _ a => desc a
  | .collAgath _ a => desc a
  | .send _ a _ l => [(at_ a, l.toNat + 1)]
  | .mma _ a _ _ _ _ _ => [((rdS x.g (a.toNat + 1)).toNat, 32)]
  | .mdrain _ a _ _ _ _ _ => desc a
  | _ => []

/-- Whether an instruction is a prefetch hint, which never faults (R74): by an uncorrectable base it prefetches what the base holds. -/
def isPref (i : Instr) : Bool :=
  match i with
  | .prefL1 .. | .prefSl .. | .prefTr .. => true
  | _ => match laneUse i with | .pref _ => true | _ => false

/-- Whether an instruction reads a location the list names. -/
def readsBad (x : Ctx) (i : Instr) : Bool :=
  if x.team.bad.isEmpty || isPref i then false
  else if x.lane then laneBad x (laneUse i) != 0
  else
    (scalarReads x i).any (fun r => x.team.bad.contains (.sreg x.gi r)) ||
      (scalarScratch x i).any fun r => badScratch x.team r.1 r.2

/-- Whether a lane word is uniform, and the threads it reads for: of a uniform word thread f, when its guard passes (R26). -/
def laneReads (x : Ctx) (u : LaneUse) : Bool × Mask :=
  match u with
  | .alu _ w | .mem _ w => (w.u == 1, memThreads x w)
  | .ctl _ w | .pref w => (false, considered x.g w)
  | .pair .. => (false, (aluParts x.grid.hdr.version u).foldl (fun m q => m ||| considered x.g q.2) 0)
  | .none => (false, 0)

/-- The fault of an instruction that reads an uncorrectable word, in the threads of a mask: it names the lowest (R390), and of a uniform
word thread f alone (R391). -/
def badFault (x : Ctx) (i : Instr) (m : Mask) : FaultInfo :=
  if x.lane then
    { code := 0x12, uni := (laneReads x (laneUse i)).1, thread := (mfirst m).getD 127, mask := m,
      addr := match laneUse i, mfirst m with | .mem op w, some t => memAddr x op w t | _, _ => 0 }
  else { code := 0x12 }

/-- Registers an instruction writes in whole, with the threads of a vector register: of a uniform word every active thread, and none where
thread f's guard fails (R26). -/
def mends (x : Ctx) (i : Instr) (b : BadWord) : Bool :=
  let row := fun (f n : Nat) (m : Mask) (r t : Nat) => decide (f ≤ r) && decide (r < f + n) && mtest m t
  match b with
  | .sreg g r => g == x.gi && !x.lane && (scalarWrites x i).contains r
  | .vreg g r t => g == x.gi && x.lane &&
      (match laneUse i with
      | .mem op w => fieldKind w.dst.toNat == .vec && row w.dst.toNat (memDstRegs op w.mod.toNat) (memWrites x w) r t
      | u => (aluParts x.grid.hdr.version u).any fun q =>
          destField q.1 q.2 == some r && row r 1 (memWrites x q.2) r t)
  | _ => false

/-- After an instruction that completed: the words it replaced leave the list. What a word writes in an episode is discarded with it
(R199). -/
def mendAfter (s : State) (x : Ctx) (i : Instr) : State :=
  if x.team.bad.isEmpty || inEpisode x then s
  else match groupOf s x.core x.gi with
    | some g =>
      if g.trap.h == x.g.trap.h && (g.spc != x.g.spc || g.lane.lpc != x.g.lane.lpc) then
        modTeam s x.core fun t => { t with bad := t.bad.filter fun b => !mends x i b }
      else s
    | none => s

/-- The fault of an asynchronous operation (R282, R411): delivered at the scalar stream's boundary, else, or where its group has exited, it
ends the task. (DEDUCED, log 35.) -/
def asyncFault (s : State) (c : Nat) (t : Team) (g : Grid) (e : AsyncErr) : State :=
  let s1 := modTeam s c fun t => { t with asyncErr := t.asyncErr.erase e }
  let gi := e.group
  match (groupIn t gi).filter fun v => decide (v.born ≤ e.after) && v.state != .exiting with
  | none =>
    let r : Record := { code := e.code, ends := true, core := c, group := gi, region := coreRegion c, team := t.index, grid := g.seq,
                        pc := e.pc, desc := e.desc, pasid := g.pasid, part := t.part, dc := dayclock s (coreRegion c) }
    endTask (addRecord s1 r) t.part g.task
  | some v =>
    let x : Ctx := { core := c, gi := gi, lane := false, team := t, g := v, grid := g }
    let f : FaultInfo := { code := e.code, desc := e.desc }
    if handles v then modGroup (endEpisode (traceFault (withdraw s1 c gi) t.part c e.code g.seq) c gi false) c gi fun q => pauseTimer s.now (deliverG q false f q.spc)
    else
      let r := faultRecord s1 x f (if v.trap.h then 0x25 else e.code) (if v.trap.h then e.code else 0) true
      endTask (addRecord s1 { r with pc := e.pc }) t.part g.task

/-- An asynchronous operation of a group fails at an uncorrectable word outside a save's list: one of its copies, its command that
executes, or one of its collectives; which of several is a free value. (DESIGN CHOICE, log 9; DEDUCED, log 35.) -/
def failOne (s : State) (c gi : Nat) (t : Team) : State :=
  let copies := (t.copies.filter fun q => q.group == gi && q.odd.isNone).map fun q => dropCopy s c q
  let cmds := (t.queue.head?.filter fun q => q.group == gi && q.running).toList.map fun q =>
    modTeam (asyncFail s c gi q.after q.pc) c fun v => { v with queue := v.queue.drop 1 }
  let colls := (t.colls.filter fun q => q.group == gi).map fun q => dropColl s c q
  match copies ++ cmds ++ colls with
  | [] => s
  | [r] => r
  | l => bumpFresh (l.getD (Config.failing s.fresh % l.length) s)

/-- An asynchronous operation has read uncorrectable data: fault 0x12, at the next boundary of its group's scalar stream; while its team
is being saved one that still runs fails, and its fault waits with the context. R411. -/
def execAsyncUncorrectableDelivery (core group : Nat) (s : State) : Host.Outcome State Fault Refusal :=
  match teamOf s core with
  | none => .next s
  | some t =>
    if dieStopped s (dieOf core) || (getPart s t.part).stopped then .next s
    else match gridOf s t.part t.grid with
      | none => .next s
      | some g =>
        if activeTeam t then match t.asyncErr.find? fun q => q.group == group with
          | some q => .next (asyncFault s core t g q)
          | none => .next (failOne s core group t)
        else if t.state = .saving then .next (failOne s core group t)
        else .next s

/-! ## The grant ration (R66, R341, R344) -/

/-- The issue cycles of a lane word (R66). (DEDUCED, log 34.) -/
def laneCycles (x : Ctx) (u : LaneUse) : Nat :=
  let v := x.grid.hdr.version
  let m := activeMask x.g
  let beats := (if m.extractLsb' 0 32 = 0 then 0 else 1) + (if m.extractLsb' 32 32 = 0 then 0 else 1) + (if m.extractLsb' 64 32 = 0 then 0 else 1)
  let uni := match u with | .alu _ w => w.u == 1 | .mem _ w => w.u == 1 | _ => false
  let vs := bankReads v u
  let extra := match u with
    | .pair .. => 0
    | _ => sumOf ((List.range 4).map fun b => (vs.filter (· % 4 == b)).length - 1)
  let routes := match u with
    | .mem op w => if memDataRegs op w.mod.toNat = 0 then [] else routeClass w.srcB.toNat w.rtB.toNat
    | _ => (aluParts v u).flatMap fun q => routeClass q.2.srcA.toNat q.2.rtA.toNat ++ routeClass q.2.srcB.toNat q.2.rtB.toNat ++
        routeClass q.2.srcC.toNat q.2.rtC.toNat
  (if uni then 1 else beats) + extra + (if routes.isEmpty then 0 else maxOf routes + (routes.length - 1))
where
  /-- The class of a routed source; empty for one that is not routed. -/
  routeClass (f rt : Nat) : List Nat :=
    if fieldKind f != .vec then []
    else match fld rt 7 3 with
      | 0 => []
      | 2 => [1]
      | 4 => [3]
      | _ => [2]

/-- The effective rate of a core (R343). -/
def rateOf (s : State) (core part : Nat) : Nat := (mget {} (getRegion s (coreRegion core)).power part).rate

/-- The grants a group's lane word has gathered so far. -/
def gathered (g : Group) : Nat := g.lane.gathered.getD 0

/-- The grants a lane word still needs before it begins: one for each of its bank reads (R66, R341). -/
def grantsNeeded (x : Ctx) (i : Instr) : Nat := (bankReads x.grid.hdr.version (laneUse i)).length - gathered x.g

/-- Grants given to a group in the window. -/
def takeGrants (k : Core) (gi n : Nat) : Core :=
  { k with winLeft := k.winLeft - n, winGrants := k.winGrants + n,
           winServed := if n = 0 then k.winServed else insertNat k.winServed gi }

/-- A lane word issues: its last bank reads are granted, and it holds the lane scheduler. (DEDUCED, log 34.) -/
def chargeLane (s : State) (x : Ctx) (i : Instr) : State :=
  modCore s x.core fun k => { takeGrants k x.gi (grantsNeeded x i) with
    laneBusy := s.now + laneCycles x (laneUse i) * coreDiv s x.core }

/-- A selected lane word whose reads the window does not cover takes what is left of it and waits for the next (R341). -/
def gatherLane (s : State) (x : Ctx) : State :=
  let left := (getCore s x.core).winLeft
  modGroup (modCore s x.core fun k => takeGrants k x.gi left) x.core x.gi fun g =>
    { g with lane := { g.lane with gathered := some (gathered g + left) } }

/-- A new window of 16 core cycles opens with as many grants as the rate. R341, R342. (DEDUCED, log 37.) -/
def execGrantWindow (core : Nat) (s : State) : Host.Outcome State Fault Refusal :=
  match teamOf s core with
  | none => .next s
  | some t =>
    if coreStopped s core ∨ s.now < (getCore s core).winStart + 16 * coreDiv s core then .next s
    else .next (modCore s core fun k => { k with winStart := s.now, winLeft := rateOf s core t.part, winServed := [] })

/-! ## Blocked and Ready (Table 2-3) -/

/-- The scalar instructions whose accesses wait for an outstanding acquire (R209). -/
def waitsAcquire (i : Instr) : Bool :=
  match i with
  | .ldScalar .. | .stScalar .. | .atomScalar .. | .casScalar .. | .waitln .. | .waitlnV1 .. => true
  | .cpy1d .. | .cpy1dFt .. | .cpy2d .. | .cpyGather .. | .cpySeal .. | .cpyAon .. | .cpyVer .. | .cpyReplay .. => true
  | .collRadd .. | .collBcast .. | .collAgath .. | .send .. | .recvpost .. | .recvtst .. => true
  | .mma .. | .mlb .. | .mdrain .. | .acccpySt .. | .acccpyLd .. => true
  | .seminc .. | .semwait .. | .semtst .. | .bararr .. | .barwait .. | .launch .. | .spawn .. | .joinc => true
  | .xacq .. | .xrel .. => true
  | .syswr _ n => decide (0x104 ≤ n.toNat) && decide (n.toNat < 0x108)
  | _ => false

/-- Whether an instruction issues an asynchronous operation, which waits for what its group has heard (R214). -/
def asyncOp (i : Instr) : Bool :=
  match i with
  | .cpy1d .. | .cpy1dFt .. | .cpy2d .. | .cpyGather .. | .cpySeal .. | .cpyAon .. | .cpyVer .. | .cpyReplay .. => true
  | .collRadd .. | .collBcast .. | .collAgath .. | .send .. | .recvpost .. | .recvtst .. => true
  | .mma .. | .mlb .. | .mdrain .. | .acccpySt .. | .acccpyLd .. => true
  | _ => false

/-- Whether an acquire holds a stream's next instruction back: it waits for a memory reply. -/
def acquireWait (x : Ctx) (i : Instr) : Bool :=
  acqPending x && !inEpisode x &&
    (if x.lane then (match laneUse i with | .mem _ w => memThreads x w != 0 | _ => false) else waitsAcquire i)

/-- Whether the range scoreboard holds a scalar access to scratch back (R195). -/
def scalarBoard (x : Ctx) (i : Instr) : Bool :=
  let at_ := fun (a : BitVec 6) (off : Int) (n : Nat) => !invS x a.toNat && boardHit x.team (localAddr (rdS x.g a.toNat) off) n
  match i with
  | .ldScalar _ a w _ l _ _ f => l == 1 && at_ a (f.toInt * widthBytes w.toNat) (widthBytes w.toNat)
  | .stScalar _ a w l _ _ f => l == 1 && at_ a (f.toInt * widthBytes w.toNat) (widthBytes w.toNat)
  | .atomScalar _ a _ c _ _ => c == 7 && at_ a 0 4
  | .casScalar _ a _ c _ w => c == 7 && at_ a 0 (if w = 1 then 8 else 4)
  | _ => false

/-- And a lane word's. -/
def laneBoard (x : Ctx) (u : LaneUse) : Bool :=
  match u with
  | .mem op w => mLocal w.mod.toNat && (maskThreads (memThreads x w)).any fun t => boardHit x.team (memAddr x op w t) (memSize op w.mod.toNat)
  | _ => false

/-- Whether a stream's next access waits under a scoreboard entry, which is an operand wait (R195). -/
def boardWait (x : Ctx) (i : Instr) : Bool := if x.lane then laneBoard x (laneUse i) else scalarBoard x i

/-- The operations a scalar EXIT waits for: every load and store of its group (R39). -/
def exitWaits (s : State) (x : Ctx) (i : Instr) : List PendOp :=
  match i with | .exitScalar => (getCore s x.core).ops.filter fun o => o.group == x.gi | _ => []

/-- Whether the operands of a stream's next instruction are there: no load it names is outstanding, nor an acquire before it, no
scoreboard entry holds it back, and for EXIT no load or store of the group (R39, R195). -/
def operandsHere (s : State) (x : Ctx) (i : Instr) : Bool :=
  (waitsFor s x i).isEmpty && !acquireWait x i && !boardWait x i && (exitWaits s x i).isEmpty &&
    (match i with
    | .xrel w => !windowLoads s x (w &&& x.g.windows)
    | .trap _ => handles x.g || !bufferFull s x.team.part (dieOf x.core)
    | .brk _ => handles x.g || !bufferFull s x.team.part (dieOf x.core)
    | _ => true)

/-- Whether the queue an instruction found full has room (R161, R270, R280, R284). -/
def queueRoom (x : Ctx) (i : Instr) : Bool :=
  match i with
  | .collRadd .. | .collBcast .. | .collAgath .. => decide (x.team.colls.length < 4)
  | .recvpost .. => decide (x.team.recvs.length < 16)
  | .mma .. | .mlb .. | .mdrain .. | .acccpySt .. | .acccpyLd .. => decide (x.team.queue.length < 8)
  | _ => decide (x.team.copies.length < 32)

/-- Whether nothing holds a copy back any more: what it reads at issue is written, and an entry is free. -/
def copyClear (x : Ctx) (k : CopyKind) (desc : Nat) : Bool :=
  !descBusy x k desc (readDesc x.team desc) && decide ((x.team.copies.filter fun c => c.entry.isSome).length < 16)

/-- Whether the range scoreboard, or the group's own earlier operations on a range, no longer hold a command back (R194, R205). -/
def boardClear (x : Ctx) (i : Instr) : Bool :=
  match i with
  | .send _ a _ l => !payloadBusy x (rdS x.g a.toNat).toNat (l.toNat + 1)
  | .cpy1d _ a | .cpy1dFt _ a | .cpy2d _ a | .cpySeal _ a | .cpyAon _ a | .cpyVer _ a => copyClear x .d1 (rdS x.g a.toNat).toNat
  | .cpyGather _ a => copyClear x .gather (rdS x.g a.toNat).toNat
  | .cpyReplay _ a => copyClear x .replay (rdS x.g a.toNat).toNat
  | _ => decide ((x.team.copies.filter fun c => c.entry.isSome).length < 16)

/-- Whether the lane stream an instruction waits for has ended, with the loads into its view (R28, R29). -/
def lendOver (s : State) (x : Ctx) (i : Instr) : Bool :=
  match i with
  | .ljoin => !x.g.lane.running && !viewLoads s x
  | .lgo _ => !x.g.lane.running && !(x.g.lane.started && viewLoads s x)
  | _ => !x.g.lane.running || x.g.lane.suspended

/-- Whether the condition a blocked scalar stream waits on holds (Table 2-3). The waits that steps of their own end (a semaphore, a
barrier, a watch, a pause, windows, a spawn bin, the team's retirement, a walk) do not hold by themselves. -/
def waitOver (s : State) (x : Ctx) (i : Instr) : Bool :=
  match x.g.wait with
  | .none => true
  | .operand => operandsHere s x i
  | .counts => match i with | .waitCounts t c st l => !countsAbove s x t c st l | _ => true
  | .joinc kids => !childrenOpen s x.team.part kids
  | .launch => !gridLimit (getPart s x.team.part)
  | .queue => queueRoom x i
  | .scoreboard => boardClear x i
  | .fence =>
    (match i with
    | .fence t c m => !fenceStill s x t c m
    | .send .. => !hearWaits s x && !releaseWaits s x
    | _ => if asyncOp i then !hearWaits s x else !releaseWaits s x)
  | .lend => lendOver s x i
  | .sem _ | .bar _ | .waitln .. | .pause _ | .xacq | .spawn .. | .retire => false
  | .walk done => done

/-- Whether a group's scalar stream is Ready: it is, or the condition it was blocked on holds (Table 2-3). -/
def scalarReady (s : State) (x : Ctx) : Bool :=
  match x.g.state, nextInstr s x with
  | .ready, _ | .issuing, _ => true
  | .blocked, some i => waitOver s x i
  | _, _ => false

/-- When a scalar stream is runnable (R303): its team is Resident or Draining, its last EXIT is not executed, and it is not blocked
in one of the waits the rule lists. -/
def scalarRunnable (s : State) (x : Ctx) : Bool :=
  activeTeam x.team && x.g.state != .exiting &&
    (scalarReady s x || (match x.g.wait with
      | .counts | .sem _ | .bar _ | .waitln .. | .pause _ | .joinc _ | .xacq | .spawn .. | .launch | .lend | .retire => false
      | .none | .operand | .queue | .scoreboard | .fence | .walk _ => true))

/-! ## Selection (R334, R335) -/

/-- Whether a lane word's own wait is over: the release half of a store (R209). -/
def laneClear (s : State) (x : Ctx) (i : Instr) : Bool :=
  match laneUse i with
  | .mem op w =>
    let a := (memOp s x op w).attr
    mLocal w.mod.toNat || memThreads x w == 0 || !(wideRelease a.order a.scope && releaseWaits s x)
  | _ => true

/-- Whether a stream could issue but for the ration: its group is Ready or Issuing, its next word can be fetched and its operands are
there (R334). (DEDUCED, log 34.) -/
def streamReady (s : State) (core gi : Nat) (lane : Bool) : Bool :=
  match streamAt s core gi lane with
  | none => false
  | some x =>
    !fetchMoving s x && (lane || scalarReady s x) &&
      (match nextInstr s x with
      | none => true
      | some i => operandsHere s x i && (!lane || laneClear s x i))

/-- The stall code of a scalar stream's wait (Table 14-6). -/
def waitCode (w : Wait) : Option Nat :=
  match w with
  | .counts => some 4
  | .sem _ => some 5
  | .bar _ => some 6
  | .waitln .. | .pause _ => some 7
  | .xacq => some 8
  | .spawn .. => some 9
  | .queue => some 10
  | .scoreboard => some 11
  | .lend | .joinc _ | .launch | .retire => some 12
  | .none | .operand | .fence | .walk _ => none

/-- The reason of Table 14-6 for which a group's stream does not issue: the first of those that apply. (DEDUCED, log 34.) -/
def stallReason (s : State) (core gi : Nat) (lane : Bool) (g : Group) : Nat :=
  let at_ := streamAt s core gi lane
  let here := at_.bind fun x => (nextInstr s x).map fun i => (x, i)
  let ops := match here with | some (x, i) => waitsFor s x i ++ exitWaits s x i | none => []
  let reply := match here with
    | some (x, i) => acquireWait x i || ((if lane then !laneClear s x i else g.wait == .fence) && releaseWaits s x)
    | none => false
  let board := match here with | some (x, i) => boardWait x i | none => false
  let when_ := fun (b : Bool) (n : Nat) => if b then [n] else []
  let l := when_ (g.episode.any fun e => e.lane == lane) 1 ++ when_ (ops.any (·.long)) 2 ++ when_ (!ops.isEmpty || reply) 3 ++
    (waitCode g.wait).toList ++ when_ board 11 ++ when_ (match at_ with | some x => fetchMoving s x | none => false) 14
  (minOf? l).getD 15

/-- The oldest group of some: the lowest age stamp, then the lowest index. -/
def oldest (l : List (Nat × Group)) : Option (Nat × Group) :=
  match minOf? (l.map fun q => q.2.age) with
  | some a => l.find? fun q => q.2.age == a
  | none => none

/-- The group selected among the eligible: the one boosted earliest, of two boosted at one time the lower index, else the oldest. Groups
of one team share a priority. (DEDUCED, log 34.) -/
def selectGroup (l : List (Nat × Group)) : Option Nat :=
  match minOf? (l.filterMap fun q => q.2.boosted) with
  | some b => (l.find? fun q => q.2.boosted == some b).map (·.1)
  | none => (oldest l).map (·.1)

/-- The groups of a core whose stream could issue but for the ration. -/
def readyGroups (s : State) (core : Nat) (lane : Bool) : List (Nat × Group) :=
  (match teamOf s core with | some t => t.groups | none => []).filter fun q => streamReady s core q.1 lane

/-- The group whose selected lane word gathers its reads: one without a grant in this window goes first (R341). -/
def gathering (s : State) (core : Nat) (l : List (Nat × Group)) : Option Nat :=
  let l1 := l.filter fun q => q.2.lane.gathered.isSome
  match l1.filter fun q => !(getCore s core).winServed.contains q.1 with
  | [] => (oldest l1).map (·.1)
  | r => (oldest r).map (·.1)

/-- The group that a scheduler selects but for the ration: a lane word that gathers its reads stays selected (R342). -/
def choice (s : State) (core : Nat) (lane : Bool) (l : List (Nat × Group)) : Option Nat :=
  if lane then (gathering s core l).or (selectGroup l) else selectGroup l

/-- Whether the ration admits a group's lane word: the window is not spent, or the word needs no read more (R334, R341). -/
def admitted (s : State) (core gi : Nat) : Bool :=
  (getCore s core).winLeft != 0 || match streamAt s core gi true with
    | some x => (match nextInstr s x with | some i => grantsNeeded x i == 0 | none => true)
    | none => true

/-- The ration holds back the lane word of a core that is selected. Another does not pass it, since rationing does not change the order in
which groups issue (R341, R342). (DEDUCED, log 34.) -/
def rationHolds (s : State) (core : Nat) (l : List (Nat × Group)) : Bool :=
  match choice s core true l with | some gi => !admitted s core gi | none => false

/-- The groups whose stream is eligible: it could issue, and the ration admits it (R334). (DEDUCED, log 34.) -/
def eligibleGroups (s : State) (core : Nat) (lane : Bool) : List (Nat × Group) :=
  (readyGroups s core lane).filter fun q => !lane || admitted s core q.1

def bumpCount (m : SMap (BitVec 48)) (i : Nat) : SMap (BitVec 48) := mmod 0 m i (· + 1)

def modSched (s : State) (core : Nat) (lane : Bool) (f : Sched → Sched) : State :=
  modCore s core fun k => if lane then { k with laneSched := f k.laneSched } else { k with scalarSched := f k.scalarSched }

/-- Whether the scalar stream of a group is Ready again though its slot still says Blocked. -/
def wakes (s : State) (core gi : Nat) : Bool :=
  match streamAt s core gi false with | some x => x.g.state == .blocked && scalarReady s x | none => false

/-- Whether the next scalar instruction of an Issuing group waits for an operand. -/
def stalls (s : State) (core gi : Nat) : Bool :=
  match streamAt s core gi false with
  | some x => x.g.state == .issuing && (match nextInstr s x with | some i => !operandsHere s x i | none => false)
  | none => false

/-- One group as a cycle of a scheduler leaves it: Ready where the condition it was blocked on holds, Blocked where its next instruction
waits for an operand (Table 2-3), and the time since which its stream has had an instruction ready (R307). (DEDUCED, log 34.) -/
def watchGroup (s : State) (core : Nat) (lane : Bool) (gi : Nat) (g : Group) : Group :=
  let since := fun (o : Option Nat) => if streamReady s core gi lane then some (o.getD s.now) else none
  let g1 := if lane then { g with laneReadySince := since g.laneReadySince } else { g with readySince := since g.readySince }
  if !lane && wakes s core gi then { g1 with state := .ready, wait := match g.wait with | .walk true | .joinc _ => g.wait | _ => .none }
  else if !lane && stalls s core gi then { g1 with state := .blocked, wait := .operand }
  else g1

/-- A selected group: its slot is Issuing (Table 2-3), and a lane word that the ration does not admit yet stays selected (R342). -/
def selectedG (lane held : Bool) (g : Group) : Group :=
  let g1 := if g.state = .ready then { g with state := .issuing } else g
  if lane && held then { g1 with lane := { g1.lane with gathered := some (gathered g1) } } else g1

/-- One cycle of a scheduler: blocked groups whose condition holds turn Ready, the eligible groups are counted, and one is selected,
whose word issues at the next turn; with none the oldest group's reason is charged. While a lane word holds the lane scheduler it
only counts; a cycle in which the ration admits no word is charged to reason 13. R334, R335, R341, R342.
(DESIGN CHOICE, log 1; DEDUCED, log 34.) -/
def execIssueSelect (core : Nat) (lane : Bool) (s : State) : Host.Outcome State Fault Refusal :=
  let gs := match teamOf s core with | some t => t.groups | none => []
  if coreStopped s core then .next s else
  let ready := readyGroups s core lane
  let held := lane && rationHolds s core ready
  let es := eligibleGroups s core lane
  let s0 := modTeam s core fun t => { t with groups := t.groups.map fun q => (q.1, watchGroup s core lane q.1 q.2) }
  let s1 := modSched s0 core lane fun v => { v with elig := bumpCount v.elig es.length }
  let stall := fun (s : State) (r : Nat) => modSched s core lane fun v => { v with stall := bumpCount v.stall r }
  if lane && decide (s.now < (getCore s core).laneBusy) then .next s1
  else match choice s core lane ready with
    | some gi =>
      let s2 := modGroup s1 core gi (selectedG lane held)
      .next (if held then stall s2 13 else { s2 with agenda := { dt := 0, who := .issue core gi lane false } :: s2.agenda })
    | none => .next (stall s1 (match oldest gs with | some q => stallReason s core q.1 lane q.2 | none => 0))

/-- A group that has had an instruction ready for 1,024 cycles without issuing is boosted until it issues. R307.
(DEDUCED, log 34.) -/
def execIssueBoost (core group : Nat) (s : State) : Host.Outcome State Fault Refusal :=
  match groupOf s core group with
  | none => .next s
  | some g =>
    let long := fun (o : Option Nat) (lane : Bool) => match o with
      | some t => decide (t + 1024 * coreDiv s core ≤ s.now) && streamReady s core group lane
      | none => false
    if g.boosted.isNone && (long g.readySince false || long g.laneReadySince true) then
      .next (setGroup s core group { g with boosted := some s.now })
    else .next s

/-! ## Schuss (R337 - R339) -/

/-- The checkpoint of a stream at entry. -/
def checkpointOf (g : Group) : Checkpoint := { sregs := g.sregs, preds := g.preds, vregs := g.vregs, spc := g.spc, lane := g.lane }

/-- The marks a long load's destinations start with. (DEDUCED, log 24.) -/
def longMarks (o : PendOp) : SMap Mask := (destV o.dest).foldl (fun m r => mput m r o.threads) []

/-- The first judged-long load the stream's next word waits on whose entry decision is still to be taken. -/
def longWait (s : State) (x : Ctx) : Option PendOp :=
  match nextInstr s x with
  | some i => (waitsFor s x i).find? fun o => o.long && !o.decided && (o.kind == .ld || o.kind == .ldver || o.kind == .ll)
  | none => none

/-- Whether the conditions of R337, R395 and R418 hold. A load whose destinations include the mask registers starts no episode:
the mask is always valid in one (R338). (DEDUCED, log 24.) -/
def schussMay (s : State) (x : Ctx) (o : PendOp) : Bool :=
  s.featEn.getLsbD 3 && x.g.schussOn && x.g.budget != 0 && !x.g.trap.h && x.g.episode.isNone && decide (0 < freeBlocks x.team) &&
    !((destS o.dest ++ destView o.dest).any fun r => decide (61 ≤ r))

/-- The entry decision: an armed skip flag is consumed and declines; else the stream checkpoints, borrows a block and runs on
with the load's destinations marked. R337. -/
def execSchussEntry (core group : Nat) (lane : Bool) (s : State) : Host.Outcome State Fault Refusal :=
  match streamAt s core group lane with
  | none => .next s
  | some x =>
    match longWait s x with
    | none => .next s
    | some o =>
      if !schussMay s x o then .next s
      else
        let s1 := modCore s core fun k => { k with ops := k.ops.map fun q => if q.id = o.id then { q with decided := true } else q }
        if x.g.skip then .next (modGroup s1 core group fun g => { g with skip := false })
        else
          let e : Episode := { lane := lane, op := o.id, start := s.now, saved := checkpointOf x.g,
                               invS := if lane then destView o.dest else destS o.dest, invV := longMarks o }
          .next (modGroup s1 core group fun g =>
            if lane then { g with episode := some e } else { g with episode := some e, state := .issuing, wait := .none })

/-- The cycles since entry reach the budget: the episode ends. R339. -/
def execSchussBudgetExpiry (core group : Nat) (s : State) : Host.Outcome State Fault Refusal :=
  match groupOf s core group with
  | none => .next s
  | some g => match g.episode with
    | some e =>
      if e.start + g.budget.toNat * coreDiv s core ≤ s.now ∧ coreStopped s core = false then .next (endEpisode s core group false) else .next s
    | none => .next s

end Sys2Proof.Machine
end

