-- ==== Sys2Proof/Machine/ScalarAlu.lean ====
section
/-! DEFINITION. The scalar ALU: majors 0x01 to 0x0B (R104 - R110). -/

namespace Sys2Proof.Machine

open Sys2Proof

/-! ## Values -/

def mulHighS (a b : Word) : Word := BitVec.ofInt 32 (a.toInt * b.toInt / 2 ^ 32)
def mulHighZ (a b : Word) : Word := BitVec.ofNat 32 (a.toNat * b.toNat / 2 ^ 32)

/-- The divisions and remainders of R106, defined for every operand. -/
def divUnsigned (a b : Word) : Word := if b = 0 then 0xFFFFFFFF#32 else BitVec.ofNat 32 (a.toNat / b.toNat)
def remUnsigned (a b : Word) : Word := if b = 0 then a else BitVec.ofNat 32 (a.toNat % b.toNat)
def divSigned (a b : Word) : Word :=
  if b = 0 then (if a.toInt < 0 then 1 else 0xFFFFFFFF#32)
  else if a = 0x80000000#32 ∧ b = 0xFFFFFFFF#32 then 0x80000000#32
  else BitVec.ofInt 32 (a.toInt.tdiv b.toInt)
def remSigned (a b : Word) : Word :=
  if b = 0 then a
  else if a = 0x80000000#32 ∧ b = 0xFFFFFFFF#32 then 0
  else a - b * divSigned a b

def popc32 (a : Word) : Word := BitVec.ofNat 32 (popCount 32 a.toNat)
def clz32 (a : Word) : Word := BitVec.ofNat 32 (leadingZeros 32 a.toNat)
def brev32 (a : Word) : Word := BitVec.ofNat 32 (revBits 32 a.toNat)

/-- The field of width `w` at position `p` (R110). -/
def bitField (a : Word) (w p : Nat) : Nat := fld a.toNat p w

/-! ## The shared operation -/

/-- One scalar ALU instruction: it waits while a register it names awaits a load, and else writes its value. Under Schuss its
result is invalid when a source is, and an invalid write of the mask ends the episode (R104, R127, R338). -/
def scalarOp (s : State) (regs : List Nat) (d : Nat) (v : Group → Word) : Host.Outcome State Fault Refusal :=
  withCtx s fun x =>
    if waitsS s x (d :: regs) then scalarWait s x .operand
    else if (regs.any fun r => invS x r) && decide (61 ≤ d) then stopEpisode s x
    else scalarDone s x (markS x (wrS x.g d (v x.g)) d (regs.any fun r => invS x r))

/-- Form R with two sources, with one, and form I with its sign-extended immediate. -/
def alu2 (s : State) (d a b : BitVec 6) (f : Word → Word → Word) : Host.Outcome State Fault Refusal :=
  scalarOp s [a.toNat, b.toNat] d.toNat fun g => f (rdS g a.toNat) (rdS g b.toNat)

def alu1 (s : State) (d a : BitVec 6) (f : Word → Word) : Host.Outcome State Fault Refusal :=
  scalarOp s [a.toNat] d.toNat fun g => f (rdS g a.toNat)

def aluI (s : State) (d a : BitVec 6) (i : BitVec 14) (f : Word → Word → Word) : Host.Outcome State Fault Refusal :=
  scalarOp s [a.toNat] d.toNat fun g => f (rdS g a.toNat) (i.signExtend 32)

/-! ## The instructions -/

/-- The sum modulo 2^32. R105. -/
def execAdd (d a b : BitVec 6) (s : State) : Host.Outcome State Fault Refusal := alu2 s d a b fun a b => a + b

/-- The difference modulo 2^32. R105. -/
def execSub (d a b : BitVec 6) (s : State) : Host.Outcome State Fault Refusal := alu2 s d a b fun a b => a - b

/-- Bitwise AND. R105. -/
def execAndR (d a b : BitVec 6) (s : State) : Host.Outcome State Fault Refusal := alu2 s d a b fun a b => a &&& b

/-- Bitwise OR. R105. -/
def execOrR (d a b : BitVec 6) (s : State) : Host.Outcome State Fault Refusal := alu2 s d a b fun a b => a ||| b

/-- Bitwise XOR. R105. -/
def execXorR (d a b : BitVec 6) (s : State) : Host.Outcome State Fault Refusal := alu2 s d a b fun a b => a ^^^ b

/-- sa AND NOT sb. R105. -/
def execAndn (d a b : BitVec 6) (s : State) : Host.Outcome State Fault Refusal := alu2 s d a b fun a b => a &&& ~~~b

/-- Shift left; amounts of 32 or more give 0. R106. -/
def execShl (d a b : BitVec 6) (s : State) : Host.Outcome State Fault Refusal := alu2 s d a b fun a b => shiftLeft a b.toNat

/-- Shift right with zeros. R106. -/
def execShrZ (d a b : BitVec 6) (s : State) : Host.Outcome State Fault Refusal := alu2 s d a b fun a b => shiftRightZ a b.toNat

/-- Shift right with copies of bit 31. R106. -/
def execShrS (d a b : BitVec 6) (s : State) : Host.Outcome State Fault Refusal := alu2 s d a b fun a b => shiftRightS a b.toNat

/-- Rotate right by sb[4:0]. R105. -/
def execRotr (d a b : BitVec 6) (s : State) : Host.Outcome State Fault Refusal := alu2 s d a b fun a b => rotateRight a b.toNat

/-- Signed less than. R105. -/
def execSlt (d a b : BitVec 6) (s : State) : Host.Outcome State Fault Refusal := alu2 s d a b fun a b => b2w (a.slt b)

/-- Unsigned less than. R105. -/
def execSltu (d a b : BitVec 6) (s : State) : Host.Outcome State Fault Refusal := alu2 s d a b fun a b => b2w (a.ult b)

/-- Equal. R105. -/
def execSeq (d a b : BitVec 6) (s : State) : Host.Outcome State Fault Refusal := alu2 s d a b fun a b => b2w (a == b)

/-- Not equal. R105. -/
def execSne (d a b : BitVec 6) (s : State) : Host.Outcome State Fault Refusal := alu2 s d a b fun a b => b2w (a != b)

/-- The smaller, signed. R105. -/
def execMinS (d a b : BitVec 6) (s : State) : Host.Outcome State Fault Refusal := alu2 s d a b fun a b => if a.slt b then a else b

/-- The smaller, unsigned. R105. -/
def execMinZ (d a b : BitVec 6) (s : State) : Host.Outcome State Fault Refusal := alu2 s d a b fun a b => if a.ult b then a else b

/-- The larger, signed. R105. -/
def execMaxS (d a b : BitVec 6) (s : State) : Host.Outcome State Fault Refusal := alu2 s d a b fun a b => if a.slt b then b else a

/-- The larger, unsigned. R105. -/
def execMaxZ (d a b : BitVec 6) (s : State) : Host.Outcome State Fault Refusal := alu2 s d a b fun a b => if a.ult b then b else a

/-- The low word of the product. R105. -/
def execMul (d a b : BitVec 6) (s : State) : Host.Outcome State Fault Refusal := alu2 s d a b fun a b => a * b

/-- The high word of the signed product. R105. -/
def execMulhS (d a b : BitVec 6) (s : State) : Host.Outcome State Fault Refusal := alu2 s d a b fun a b => mulHighS a b

/-- The high word of the unsigned product. R105. -/
def execMulhZ (d a b : BitVec 6) (s : State) : Host.Outcome State Fault Refusal := alu2 s d a b fun a b => mulHighZ a b

/-- The signed quotient, towards zero. R106. -/
def execDivS (d a b : BitVec 6) (s : State) : Host.Outcome State Fault Refusal := alu2 s d a b fun a b => divSigned a b

/-- The unsigned quotient. R106. -/
def execDivZ (d a b : BitVec 6) (s : State) : Host.Outcome State Fault Refusal := alu2 s d a b fun a b => divUnsigned a b

/-- The signed remainder. R106. -/
def execRemS (d a b : BitVec 6) (s : State) : Host.Outcome State Fault Refusal := alu2 s d a b fun a b => remSigned a b

/-- The unsigned remainder. R106. -/
def execRemZ (d a b : BitVec 6) (s : State) : Host.Outcome State Fault Refusal := alu2 s d a b fun a b => remUnsigned a b

/-- The number of 1 bits. R105. -/
def execPopc (d a : BitVec 6) (s : State) : Host.Outcome State Fault Refusal := alu1 s d a fun a => popc32 a

/-- The number of leading 0 bits. R105. -/
def execClz (d a : BitVec 6) (s : State) : Host.Outcome State Fault Refusal := alu1 s d a fun a => clz32 a

/-- The bits in reverse order. R105. -/
def execBrev (d a : BitVec 6) (s : State) : Host.Outcome State Fault Refusal := alu1 s d a fun a => brev32 a

/-- sa if sc is not 0, else sb. R105. -/
def execSel (d a b c : BitVec 6) (s : State) : Host.Outcome State Fault Refusal :=
  scalarOp s [a.toNat, b.toNat, c.toNat] d.toNat fun g =>
    if rdS g c.toNat ≠ 0 then rdS g a.toNat else rdS g b.toNat

/-- The sum with the immediate. R107. -/
def execAddi (d a : BitVec 6) (i : BitVec 14) (s : State) : Host.Outcome State Fault Refusal := aluI s d a i fun a i => a + i

/-- AND with the immediate. R107. -/
def execAndi (d a : BitVec 6) (i : BitVec 14) (s : State) : Host.Outcome State Fault Refusal := aluI s d a i fun a i => a &&& i

/-- OR with the immediate. R107. -/
def execOri (d a : BitVec 6) (i : BitVec 14) (s : State) : Host.Outcome State Fault Refusal := aluI s d a i fun a i => a ||| i

/-- XOR with the immediate. R107. -/
def execXori (d a : BitVec 6) (i : BitVec 14) (s : State) : Host.Outcome State Fault Refusal := aluI s d a i fun a i => a ^^^ i

/-- Signed less than the immediate. R107. -/
def execSlti (d a : BitVec 6) (i : BitVec 14) (s : State) : Host.Outcome State Fault Refusal := aluI s d a i fun a i => b2w (a.slt i)

/-- Unsigned less than the immediate as 32 bits. R107. -/
def execSltiu (d a : BitVec 6) (i : BitVec 14) (s : State) : Host.Outcome State Fault Refusal := aluI s d a i fun a i => b2w (a.ult i)

/-- Shift left by n. R108. -/
def execShli (d a : BitVec 6) (n : BitVec 5) (s : State) : Host.Outcome State Fault Refusal :=
  alu1 s d a fun a => shiftLeft a n.toNat

/-- Shift right by n with zeros. R108. -/
def execShriZ (d a : BitVec 6) (n : BitVec 5) (s : State) : Host.Outcome State Fault Refusal :=
  alu1 s d a fun a => shiftRightZ a n.toNat

/-- Shift right by n with copies of bit 31. R108. -/
def execShriS (d a : BitVec 6) (n : BitVec 5) (s : State) : Host.Outcome State Fault Refusal :=
  alu1 s d a fun a => shiftRightS a n.toNat

/-- Rotate right by n. R108. -/
def execRotri (d a : BitVec 6) (n : BitVec 5) (s : State) : Host.Outcome State Fault Refusal :=
  alu1 s d a fun a => rotateRight a n.toNat

/-- The immediate, sign-extended. R109. -/
def execLi (d : BitVec 6) (i : BitVec 16) (s : State) : Host.Outcome State Fault Refusal :=
  scalarOp s [] d.toNat fun _ => i.signExtend 32

/-- The immediate, zero-extended. R109. -/
def execLiz (d : BitVec 6) (i : BitVec 16) (s : State) : Host.Outcome State Fault Refusal :=
  scalarOp s [] d.toNat fun _ => i.setWidth 32

/-- The immediate in the upper half. R109. -/
def execLui (d : BitVec 6) (i : BitVec 16) (s : State) : Host.Outcome State Fault Refusal :=
  scalarOp s [] d.toNat fun _ => i ++ 0#16

/-- The upper half replaced, the lower kept. R109. -/
def execLih (d : BitVec 6) (i : BitVec 16) (s : State) : Host.Outcome State Fault Refusal :=
  scalarOp s [d.toNat] d.toNat fun g => i ++ (rdS g d.toNat).setWidth 16

/-- A bit field, zero-extended. R110. -/
def execBfeZ (d a w : BitVec 6) (p : BitVec 5) (s : State) : Host.Outcome State Fault Refusal :=
  if bitFieldOk w p then alu1 s d a fun a => BitVec.ofNat 32 (bitField a w.toNat p.toNat)
  else withCtx s fun x => raiseIllegal s x

/-- A bit field, sign-extended from its top bit. R110. -/
def execBfeS (d a w : BitVec 6) (p : BitVec 5) (s : State) : Host.Outcome State Fault Refusal :=
  if bitFieldOk w p then alu1 s d a fun a => BitVec.ofInt 32 (toSigned w.toNat (bitField a w.toNat p.toNat))
  else withCtx s fun x => raiseIllegal s x

/-- A bit field of sd replaced by the low bits of sa. R110. -/
def execBfi (d a w : BitVec 6) (p : BitVec 5) (s : State) : Host.Outcome State Fault Refusal :=
  if bitFieldOk w p then scalarOp s [a.toNat, d.toNat] d.toNat fun g =>
    BitVec.ofNat 32 (setFld (rdS g d.toNat).toNat p.toNat w.toNat (rdS g a.toNat).toNat)
  else withCtx s fun x => raiseIllegal s x

end Sys2Proof.Machine
end

