-- ==== Sys2Proof/Machine/Locality.lean ====
section
/-! DEFINITION. The locality query LOC (R21 - R23). -/

namespace Sys2Proof.Machine

open Sys2Proof

/-- Class, region and number of the group's core. R22. -/
def execLocSelf (d : BitVec 6) (s : State) : Host.Outcome State Fault Refusal :=
  withCtx s fun x =>
    if waitsS s x [d.toNat] then scalarWait s x .operand
    else
      let v := clsCode (getDie s (dieOf x.core)).cls * 2 ^ 17 + coreRegion x.core * 2 ^ 13 + x.core
      scalarDone s x (markS x (wrS x.g d.toNat (BitVec.ofNat 32 v)) d.toNat false)

/-- Where an address's home is; all ones when it is not translated or not leased, or its page is broken. -/
def homeWord (s : State) (x : Ctx) (a : Nat) : Word :=
  match translate s x.team.part x.grid.pasid a with
  | .ok h =>
    if !leaseOk x.grid a 1 false then 0xFFFFFFFF#32
    else
      let tier := (tierOf s x.team.part h).getD 0
      match memHome (getPart s x.team.part) h with
      | some (ms, _) =>
        BitVec.ofNat 32 (bandTo x.core (msSite ms) * 2 ^ 14 + tier * 2 ^ 12 + regionOfSite (msSite ms) * 2 ^ 8 + ms)
      | none => BitVec.ofNat 32 (3 * 2 ^ 14 + tier * 2 ^ 12 + 0xFFF)
  | .fault => 0xFFFFFFFF#32
  | .broken => 0xFFFFFFFF#32

/-- Whether a translation is at hand, in the core's cache, in the die's or in the pin table (R364). While a migration has taken
the old one away and not installed the new one there is none (R371). (DEDUCED, log 24.) -/
def xlatAtHand (s : State) (x : Ctx) (a : Nat) : Bool :=
  !pageMoving (getPart s x.team.part) x.grid.pasid (a / 4096) &&
    (tlbHit (getCore s x.core) x.grid.pasid a || dieTlbHit s x.core x.grid.pasid a ||
      (pinOf (getPart s x.team.part) x.grid.pasid (a / 4096)).isSome)

/-- The home of an address; the stream waits while a walker fetches its translation, in an episode too. R22, R23. It never ends an
episode, whatever register it marks (R23). (DEDUCED, log 24.) -/
def execLocHome (d a : BitVec 6) (s : State) : Host.Outcome State Fault Refusal :=
  withCtx s fun x =>
    let regs := [a.toNat, a.toNat + 1]
    let adr := pairAddr x.g a.toNat
    let inv := regs.any fun r => invS x r
    let walk : Walk := { core := x.core, group := some x.gi, pasid := x.grid.pasid, va := adr, part := x.team.part }
    let put := fun (s : State) (bad : Bool) =>
      scalarDone s x (markS x (wrS x.g d.toNat (homeWord s x adr)) d.toNat bad)
    if !pairReg a then raiseIllegal s x
    else if waitsS s x (d.toNat :: regs) then scalarWait s x .operand
    else if inv then put s true
    else if xlatAtHand s x adr then put (touchPage s x adr) false
    else match x.g.wait with
      | .walk true => put s false
      | .walk false => s
      | _ => if walkerFree s x.core then scalarWait { s with walks := s.walks ++ [walk] } x (.walk false)
             else scalarWait s x .operand

/-- Boundaries and band from a core to a region (R22). The band to the core's own region, whose destinations lie in band 0 or band 1,
is 1. (DESIGN CHOICE, log 47.) -/
def bandWord (core : Nat) (r : Word) : Word :=
  if 15 < r.toNat then 0xFFFFFFFF#32
  else
    let h := regionHops (coreRegion core) r.toNat
    BitVec.ofNat 32 (h * 4 + (match h with | 0 => 1 | 1 => 2 | _ => 3))

/-- Boundaries and band from the group's core to a region; an invalid sa marks the result and ends no episode. R22, R23.
(DEDUCED, log 24; DESIGN CHOICE, log 47.) -/
def execLocBand (d a : BitVec 6) (s : State) : Host.Outcome State Fault Refusal :=
  withCtx s fun x =>
    if waitsS s x [d.toNat, a.toNat] then scalarWait s x .operand
    else scalarDone s x (markS x (wrS x.g d.toNat (bandWord x.core (rdS x.g a.toNat))) d.toNat (invS x a.toNat))

end Sys2Proof.Machine
end

