-- ==== Sys2Proof/Machine/Translation.lean ====
section
/-! DEFINITION. Translation as it changes: walks that complete, invalidations, shootdowns (R362 - R364, R369, R372), migration
(R370, R371), revocation and re-grant, and the end of a task (R318, R368). -/

namespace Sys2Proof.Machine

open Sys2Proof

/-! ## Translation caches -/

/-- The cores of a partition, by its compute dies. -/
def partCores (v : Partition) : List Nat := (compDies v).flatMap dieCores

def tlbDrop (l : List Tlb) (pasid page pages : Nat) : List Tlb :=
  l.filter fun e => !(e.pasid == pasid && decide (page < e.vpage + e.size) && decide (e.vpage < page + pages))

/-- The entries of a range leave a core's cache and its die's (R372). -/
def dropTlb (s : State) (core pasid page pages : Nat) : State :=
  let s1 := modCore s core fun k => { k with tlb := tlbDrop k.tlb pasid page pages }
  modDie s1 (dieOf core) fun d => { d with tlb := tlbDrop d.tlb pasid page pages }

/-- A stream that waited for a walk goes on. -/
def wakeWalk (g : Group) : Group :=
  match g.wait with | .walk _ => { g with state := .ready, wait := .walk true } | _ => g

/-- A walk ends: a translation is cached, and A is set in its leaf. A page in migration has none until it has its new one.
R362 - R364. -/
def execTranslationWalkComplete (idx : Nat) (s : State) : Host.Outcome State Fault Refusal :=
  match s.walks[idx]? with
  | none => .next s
  | some w =>
    let v := getPart s w.part
    let page := w.va / 4096
    if v.stopped || pageMoving v w.pasid page || !leafQuiet s w.part w.pasid page then .next s
    else
      let s1 := { s with walks := s.walks.eraseIdx idx }
      let s2 := match walkPage s1 w.part w.pasid w.va with
        | some q => touchTlb (fillLeaf s1 w.part q false) w.core { pasid := w.pasid, vpage := q.page, size := q.size }
        | none => s1
      .next (match w.group with
        | some g => modGroup s2 w.core g wakeWalk
        | none => s2)

/-- The page numbers of a byte range. -/
def pageSpan (va len : Nat) : Nat × Nat := if len = 0 then (va / 4096, 0) else (va / 4096, (va + len - 1) / 4096 - va / 4096 + 1)

def inPages (q : Nat × Nat) (page : Nat) : Bool := decide (q.1 ≤ page) && decide (page < q.1 + q.2)

/-- Whether a pin touches a page range. -/
def pinIn (q : Pin) (r : Nat × Nat) : Bool := decide (q.page < r.1 + r.2) && decide (r.1 < q.page + q.size)

/-- Whether a pin lies in a revocation or a migration under way. -/
def pinInWork (v : Partition) (q : Pin) : Bool :=
  (v.migs.any fun m => m.pasid == q.pasid && pinIn q (m.page, 1)) ||
    v.revs.any fun r => r.pasid == q.pasid && pinIn q (pageSpan r.base r.len)

/-- The host submits a translation invalidation: cached translations of the range go, and a pinned page outside a revocation or
migration is broken. R363, R369. -/
def execTranslationInvalidation (part pasid va len : Nat) (s : State) : Host.Outcome State Fault Refusal :=
  let r := pageSpan va len
  let s1 := (partCores (getPart s part)).foldl (fun s c => dropTlb s c pasid r.1 r.2) s
  .next (modPart s1 part fun v => { v with
    pins := v.pins.map fun q => if q.pasid = pasid ∧ pinIn q r ∧ !pinInWork v q then { q with broken := true } else q })

/-! ## Shootdowns (R372) -/

/-- A shootdown is sent to the agent of every core of the partition. -/
def startShot (s : State) (part pasid page pages : Nat) : State :=
  modPart (bumpFresh s) part fun v => { v with shots := v.shots ++
    [{ id := s.fresh, pasid := pasid, page := page, pages := pages, toVisit := partCores v, toAck := [] }] }

/-- What a core has issued with a translation of a range and not received: the accesses that have entered the network, the increments
it has made, and the lines it has asked for. What is still queued, a held write among it, is translated when it is issued (R392), and so
is a `ld.ver`, whose reads are made in the step that returns them. (DEDUCED, log 36.) -/
def inFlight (s : State) (part core : Nat) (h : Shootdown) : List Nat :=
  let k := getCore s core
  let hit := fun (va : Nat) => inPages (h.page, h.pages) (va / 4096)
  let is := s.incs.filter fun i => i.part == part && i.core == some core && i.pasid == h.pasid && hit i.va
  let mine := match k.team with
    | none => false
    | some t => t.part == part && (match gridOf s part t.grid with | some g => g.pasid == h.pasid | none => false)
  is.map (·.id) ++
    if mine then
      (k.accs.filter fun a => a.state != .done && entered k a && hit a.va).map (·.id) ++ (k.misses.filter fun m => hit m.va).map (·.txn)
    else []

/-- Whether the response to a core's request has reached it; what its L1 does before it installs the line is no part of that. -/
def arrived (s : State) (core txn : Nat) : Bool :=
  s.net.any fun m => m.loc == .site (coreSite core) && m.req == .core core && m.txn == txn &&
    (match m.kind with | .reply | .grant | .opResp => true | _ => false)

/-- Whether everything a core waits for has been answered. -/
def answered (s : State) (core : Nat) (ids : List Nat) : Bool :=
  let k := getCore s core
  let open_ := fun (a : Access) => a.state != .done && !(k.misses.any fun m => m.leader == a.id && arrived s core m.txn)
  !(k.accs.any fun a => open_ a && ids.contains a.id) && !(k.misses.any fun m => ids.contains m.txn && !arrived s core m.txn) &&
    !(s.incs.any fun i => i.core == some core && ids.contains i.id)

/-- The teams of a revocation's grids that are still on a core (R368, step 1). -/
def revTeamsHere (s : State) (part : Nat) (r : Revocation) : Bool :=
  s.cores.any fun q => match q.2.team with
    | some t => t.part == part && (match gridOf s part t.grid with
        | some g => r.grids.contains g.seq
        | none => false)
    | none => false

/-- A core's translation agent receives a shootdown and removes the named entries. That of a revocation waits until every team
is saved. R368, R372. -/
def execShootdown (part shot core : Nat) (s : State) : Host.Outcome State Fault Refusal :=
  let v := getPart s part
  match v.shots.find? fun h => h.id == shot with
  | none => .next s
  | some h =>
    let held := v.revs.any fun r => r.shot == shot && revTeamsHere s part r
    if !h.toVisit.contains core || held || v.stopped then .next s
    else
      let ids := inFlight s part core h
      let upd := fun (q : Shootdown) => if q.id = shot then
        { q with toVisit := q.toVisit.filter (· != core), toAck := q.toAck ++ [(core, ids)] } else q
      .next (modPart (dropTlb s core h.pasid h.page h.pages) part fun v => { v with shots := v.shots.map upd })

/-! ### What a completed shootdown leads to -/

/-- A physical address in an old frame moved to the new one. -/
def moveHpa (old new h : Nat) : Nat := if h / 4096 * 4096 = old then new + h % 4096 else h

def moveCore (part old new : Nat) (k : Core) : Core :=
  match k.team with
  | some t =>
    if t.part = part then { k with accs := k.accs.map fun (a : Access) => { a with hpa := moveHpa old new a.hpa } } else k
  | none => k

def moveInc (part old new : Nat) (i : SemInc) : SemInc := if i.part = part then { i with hpa := moveHpa old new i.hpa } else i

/-- The new translation is installed: the pin names the new frame, with every line still to be pulled; what waits at the old
place waits at the new one (R371, step 2). -/
def installMigration (s : State) (part : Nat) (m : Migration) : State :=
  let s1 := modPart s part fun v => { v with
    migs := v.migs.map fun q => if q.page = m.page ∧ q.pasid = m.pasid then { q with installed := true } else q,
    aons := v.aons.map fun r => { r with writes := r.writes.map fun w => (moveHpa m.old m.new w.1, w.2) },
    pins := v.pins.map fun q => if q.page = m.page ∧ q.pasid = m.pasid then { q with frame := m.new } else q }
  let s2 : State := { s1 with
    cores := mmap (moveCore part m.old m.new) s1.cores,
    incs := s1.incs.map (moveInc part m.old m.new),
    semWaits := s1.semWaits.map fun (w : SemWait) =>
      if waitPart s w = part then { w with hpa := moveHpa m.old m.new w.hpa } else w }
  let waiting := (s2.cores.filter fun (q : Nat × Core) => !q.2.accs.isEmpty).map (·.1)
  waiting.foldl pump s2

def overlaps (l : Lease) (base len : Nat) : Bool := decide (l.base < base + len) && decide (base < l.base + l.len)

/-- Whether a lease lies over a page range. -/
def leaseIn (base len : Nat) (r : Nat × Nat) : Bool :=
  pinIn { pasid := 0, page := (pageSpan base len).1, size := (pageSpan base len).2, frame := 0, w := false, refs := 0 } r

/-- A grid's leases marked by the page ranges of it that are revoked and not granted again. -/
def markLeases (g : Grid) : Grid :=
  let out := fun (base len : Nat) => g.lost.any fun r => leaseIn base len r
  { g with
    leases := g.leases.map fun l => { l with revoked := out l.base l.len },
    imageRevoked := out g.image g.hdr.dataOff,
    revoked := !g.lost.isEmpty }

/-- A grid whose leases over a range are revoked loses its references to the range's pins. -/
def losePins (pasid : Nat) (pages : List Nat) (v : Partition) (g : Grid) : Partition :=
  { v with pins := giveRefs v.pins pasid (g.pinned.filter pages.contains) }

/-- A revocation's end: the range's pins are gone, the leases over it of the grids that held one are marked, and completion is
reported (R368).
(DEDUCED, log 36.) -/
def finishRevocation (s : State) (part : Nat) (r : Revocation) : State :=
  let span := pageSpan r.base r.len
  let v := getPart s part
  let pages := (v.pins.filter fun q => q.pasid == r.pasid && pinIn q span).map (·.page)
  let hit := fun (g : Grid) => r.grids.contains g.seq
  let taken := v.granted.filter fun q => (v.grids.any fun g => g.task == q.task && g.pasid == r.pasid) && inPages span q.page
  let mark := fun (g : Grid) =>
    if hit g then markLeases { g with pinned := g.pinned.filter fun k => !pages.contains k, lost := g.lost ++ [span] } else g
  let v1 := (v.grids.filter hit).foldl (losePins r.pasid pages) v
  let v2 := taken.foldl (fun v q => match pinOf v r.pasid q.page with
    | some k => { v with pins := giveRefs v.pins r.pasid [k.page] }
    | none => v) v1
  send (modPart s part fun _ => sweepPins { v2 with
    granted := v.granted.filter fun q => !taken.contains q,
    grids := v.grids.map mark,
    revs := v.revs.filter fun q => q.shot != r.shot }) .ack

/-- The last agent has acknowledged. -/
def shotDone (s : State) (part shot : Nat) : State :=
  let v := getPart s part
  let s1 := modPart s part fun v => { v with shots := v.shots.filter fun h => h.id != shot }
  match v.migs.find? (fun m => m.shot == shot && !m.installed), v.revs.find? fun r => r.shot == shot with
  | some m, _ => installMigration s1 part m
  | none, some r => finishRevocation s1 part r
  | none, none => s1

/-- A core's agent acknowledges, once every access issued with a removed translation has its response. R372, R373. -/
def execShootdownAck (part shot core : Nat) (s : State) : Host.Outcome State Fault Refusal :=
  match (getPart s part).shots.find? fun h => h.id == shot with
  | none => .next s
  | some h =>
    match h.toAck.find? fun q => q.1 == core with
    | none => .next s
    | some q =>
      if !answered s core q.2 || (getPart s part).stopped then .next s
      else
        let h1 := { h with toAck := h.toAck.filter fun r => r.1 != core }
        let s1 := modPart s part fun v => { v with shots := v.shots.map fun r => if r.id = shot then h1 else r }
        .next (if h1.toVisit.isEmpty && h1.toAck.isEmpty then shotDone s1 part shot else s1)

/-! ## Migration (R370, R371) -/

/-- The entry of a page pinned with a larger host page, which the host has split since: the page has an entry of its own, beside what
lies before it and after it; each grid and grant holds its references to them (R370). (DEDUCED, log 36.) -/
def splitPin (pasid page : Nat) (v : Partition) : Partition :=
  match pinOf v pasid page with
  | none => v
  | some q =>
    let parts := ([(q.page, page - q.page), (page, 1), (page + 1, q.page + q.size - (page + 1))]).filter (·.2 != 0)
    let held := fun (g : Grid) => g.pasid == pasid && g.pinned.contains q.page
    let granted := fun (r : Nat × Nat) =>
      (v.granted.filter fun k => inPages r k.page && v.grids.any fun g => g.task == k.task && g.pasid == pasid).length
    let piece := fun (r : Nat × Nat) =>
      { q with page := r.1, size := r.2, frame := q.frame + 4096 * (r.1 - q.page), refs := (v.grids.filter held).length + granted r }
    { v with pins := v.pins.flatMap fun k => if k = q then parts.map piece else [k],
             grids := v.grids.map fun g => if held g then { g with pinned := (parts.map (·.1)).foldl insertNat g.pinned } else g }

/-- System software moves one 4 KiB page: its old translation is shot down. A ninth migration waits, and a page without a
translation, one whose host mapping has not been split into 4 KiB, or a new place outside the partition's reach is refused.
R370, R371. (DEDUCED, log 36.) -/
def execMigrate (part pasid va hpa : Nat) (s : State) : Host.Outcome State Fault Refusal :=
  let v := getPart s part
  let page := va / 4096
  if !v.active || v.stopped || decide (8 ≤ v.migs.length) || v.migs.any (fun m => m.pasid == pasid && m.page == page) then .next s
  else match lookup s part pasid (page * 4096) with
    | none => .next (send s .refused)
    | some old =>
      let large := match walkPage s part pasid va with | some q => q.size != 1 | none => false
      if large || hpa % 4096 ≠ 0 || (tierOf s part hpa).isNone || inCtxArea v hpa then .next (send s .refused)
      else
        let s1 := startShot (modPart s part (splitPin pasid page)) part pasid page 1
        .next (modPart s1 part fun v => { v with
          migs := v.migs ++ [{ pasid := pasid, page := page, old := old, new := hpa, shot := s.fresh }] })

/-- The lowest line of a migrating page that has not been pulled. -/
def nextPull (m : Migration) : Option Nat := (List.range 32).find? fun k => !m.valid.getLsbD k

/-- The background engine pulls the next line; with none left the old frame is released and a record is raised. `mig` is the
migration's place in the partition's list. R371. (DEDUCED, log 5; DEDUCED, log 36.) -/
def execMigrationBackgroundPull (part mig : Nat) (s : State) : Host.Outcome State Fault Refusal :=
  let v := getPart s part
  match v.migs[mig]? with
  | none => .next s
  | some m =>
    if !m.installed || v.stopped then .next s
    else match nextPull m with
      | some k => .next (if lineQuiet s part (m.new + 128 * k) then pullLine s part (m.new + 128 * k) else s)
      | none =>
        let s1 := modPart s part fun v => { v with migs := v.migs.eraseIdx mig }
        .next (unlessFull s (addRecord s1 { code := 0x41, addr := BitVec.ofNat 57 (m.page * 4096), pasid := m.pasid, part := part, dc := dayclock s 0 }) part)

/-! ## Revocation (R368) -/

/-- Whether a grid holds a lease over a range; its image lease is one (R365). -/
def holdsLease (g : Grid) (base len : Nat) : Bool :=
  (g.state == .leasing || g.state == .placing || g.state == .running) &&
    (g.leases.any (fun l => overlaps l base len) ||
      overlaps { base := g.image, len := g.hdr.dataOff, r := true, w := false } base len)

/-- System software revokes a range: every team of every grid that holds a lease over it is saved, and the range's translations
are shot down. R368. (DEDUCED, log 36.) -/
def execRevoke (part pasid va len : Nat) (s : State) : Host.Outcome State Fault Refusal :=
  let v := getPart s part
  if !v.active || v.stopped || len == 0 then .next s
  else
    let hit := fun (g : Grid) => g.pasid == pasid && holdsLease g va len
    let cs := (v.grids.filter hit).flatMap fun g => namedCores s part g.seq none
    let s1 := ((cs.flatMap (saveCores s)).foldl addNew []).foldl saveOne s
    let s2 := modPart s1 part fun v => { v with grids := v.grids.map fun g => if hit g then { g with revoked := true } else g }
    let r := pageSpan va len
    let s3 := startShot s2 part pasid r.1 r.2
    .next (modPart s3 part fun v => { v with revs := v.revs ++ [{ pasid := pasid, base := va, len := len, shot := s2.fresh, grids := (v.grids.filter hit).map (·.seq) }] })

/-- The parts of page ranges outside another. -/
def cutSpans (l : List (Nat × Nat)) (r : Nat × Nat) : List (Nat × Nat) :=
  l.flatMap fun q => [(q.1, r.1 - q.1), (r.1 + r.2, q.1 + q.2 - (r.1 + r.2))].map (spanMeet q) |>.filter (·.2 != 0)

/-- The ranges a grid waits to have granted again are granted, once all their pages are pinned: the leases over them hold again where
nothing else of them is revoked. -/
def regrantGrid (g : Grid) : Grid := markLeases { g with lost := g.regrant.foldl cutSpans g.lost, regrant := [] }

/-- A re-grant that waits for its pages goes on: pages that can be pinned are, the others are posted as lease requests (R366); with
the last the range is granted again, and the teams of a grid of which nothing is revoked any more are restored (R368). -/
def regrantStep (s : State) (part seq : Nat) : State :=
  let s1 := leaseStep s part seq
  match gridOf s1 part seq with
  | none => s1
  | some g =>
    if g.regrant.isEmpty || !pagesPinned s1 part g then s1
    else
      let s2 := modGrid s1 part seq regrantGrid
      match gridOf s2 part seq with
      | some h =>
        if h.revoked then s2
        else (((getPart s part).saved.filter fun q => q.team.grid == seq).map (·.team.index)).foldl
          (fun s i => restoreTeam s part seq i none) s2
      | none => s2

/-- Every page of a grid is pinned: its teams become placeable; or a re-grant that waits for room in the pin table goes on. A grid
whose lease is revoked meanwhile waits. R318, R366, R368. -/
def execGridLeasingComplete (part grid : Nat) (s : State) : Host.Outcome State Fault Refusal :=
  match gridOf s part grid with
  | none => .next s
  | some g =>
    if (getPart s part).stopped then .next s
    else if !g.regrant.isEmpty then .next (regrantStep s part grid)
    else if g.state ≠ .leasing ∨ g.revoked then .next s
    else if pagesPinned s part g then .next (modGrid s part grid fun q => { q with state := .placing })
    else .next (leaseStep s part grid)

/-- System software reports a lease request serviced: the page is walked again, and posted again while it still fails. R366. -/
def execLeaseServiced (part grid page : Nat) (s : State) : Host.Outcome State Fault Refusal :=
  let s1 := modGrid s part grid fun q => { q with leaseReqs := q.leaseReqs.filter (· != page) }
  match gridOf s1 part grid with
  | none => .next s
  | some g => .next (if g.regrant.isEmpty then (if g.revoked then s1 else leaseStep s1 part grid) else regrantStep s1 part grid)

/-- System software re-grants a range: the part of it that grids have lost is pinned again. R366, R368. (DEDUCED, log 36.) -/
def execRegrant (part pasid va len : Nat) (s : State) : Host.Outcome State Fault Refusal :=
  let v := getPart s part
  let r := pageSpan va len
  if v.stopped || !v.revs.isEmpty then .next s
  else
    let hit := fun (g : Grid) => g.pasid == pasid && g.revoked && g.state != .ended && g.state != .retired
    let ask := fun (g : Grid) => if hit g then
      { g with regrant := g.regrant ++ (g.lost.map (spanMeet r)).filter fun q => q.2 != 0 && !g.regrant.contains q } else g
    let s1 := modPart s part fun v => { v with grids := v.grids.map ask }
    .next ((v.grids.filter hit).foldl (fun s g => regrantStep s part g.seq) s1)

/-- System software ends the task a grid belongs to. R318, R368. -/
def execTaskEnd (part grid : Nat) (s : State) : Host.Outcome State Fault Refusal :=
  match gridOf s part grid with
  | none => .next s
  | some g => .next (endTask s part g.task)

end Sys2Proof.Machine
end

