-- ==== Sys2Proof/Machine/Mgmt.lean ====
section
/-! DEFINITION. The management interface: partitions (R374 - R377, R379, R386), the ways of routers (R250, R377), the fault queue
and the context area (R397 - R399, R402), grants (R422), FEATEN (R417), Noon (R328) and the registers whose write has no row of its
own. -/

namespace Sys2Proof.Machine

open Sys2Proof

/-! ## Partition registers (R374, R376) -/

def holdsGrid (v : Partition) : Bool := v.grids.any fun g => g.state != .retired

/-- The other partitions. -/
def others (s : State) (p : Nat) : List Partition := mvals (s.parts.filter fun q => q.1 != p)

def rectsMeet (a b : Partition) : Bool :=
  decide (cfgX0 a ≤ cfgX1 b) && decide (cfgX0 b ≤ cfgX1 a) && decide (cfgY0 a ≤ cfgY1 b) && decide (cfgY0 b ≤ cfgY1 a)

/-- The address ranges of a partition: windows and apertures, as base and size. -/
def windowsOf (v : Partition) : List (Nat × Nat) :=
  ((nearBase v, nearSize v) :: (farBase v, farSize v) :: (mvals v.aps).map fun r => (apBase r, apSize r)).filter fun q => q.2 != 0

def rangesMeet (a b : Nat × Nat) : Bool := decide (a.1 < b.1 + b.2) && decide (b.1 < a.1 + a.2)

/-- Whether some two of a list's ranges meet. -/
def anyMeet : List (Nat × Nat) → Bool
  | [] => false
  | a :: r => r.any (rangesMeet a) || anyMeet r

/-- Links that a partition's registers name. -/
def namedLinks (v : Partition) : Nat := (mvals v.aps).foldl (fun m r => Nat.lor m (fld r.toNat 32 32)) (lnkMask v)

/-- Whether the links of a list lead to one panel. -/
def onePanel : List Nat → Bool
  | [] => true
  | a :: l => l.all fun b => Config.linkPanel b == Config.linkPanel a

/-- The ERR code of R376 for a partition's registers with EN set, 0 for none. A partition that is still scrubbing counts with its
sites and windows as the scrub began (DEDUCED, log 42.) -/
def cfgErr (s : State) (p : Nat) (v : Partition) : Nat :=
  let os := others s p
  let on := (os.filter fun q => cfgEn q || q.scrub).map laid
  let slots := fld v.edge.toNat 8 8
  let apBad := (mvals v.aps).any fun r =>
    let sel := fld r.toNat 32 32
    (apSize r != 0 && sel == 0) || Nat.land sel (lnkMask v) != sel || !onePanel (apLinks r)
  if cfgX1 v < cfgX0 v + 1 ∨ cfgY1 v < cfgY0 v + 1 then 2
  else if on.any (rectsMeet v) then 1
  else if hpMask v == 0 || os.any (fun q => Nat.land (hpMask q) (hpMask v) != 0 || Nat.land (lnkMask q) (namedLinks v) != 0) then 3
  else if slots = 0 ∨ 32 < slots ∨ apBad ∨ anyMeet (windowsOf v) ∨
      on.any fun q => (windowsOf v).any fun a => (windowsOf q).any (rangesMeet a) then 5
  else 0

def setErr (s : State) (p code : Nat) : State := modPart s p fun v => { v with err := BitVec.ofNat 4 code }

/-- PARTSTAT (R376). -/
def partstat (v : Partition) : BitVec 32 :=
  BitVec.ofNat 32 (b2n v.active + b2n v.scrub * 2 + b2n (!v.keys.isEmpty) * 4 + v.err.toNat * 2 ^ 4)

/-- The measured registers of R384, but PCWAYS. -/
def sameMeasured (a b : Partition) : Bool :=
  a.cfg == b.cfg && a.far == b.far && a.edge == b.edge && (List.range 4).all fun k => mget 0 a.aps k == mget 0 b.aps k

/-- Partition registers take new values, or the write is refused and changes none (R374). A partition cannot be enabled while its own
scrub goes on. (DEDUCED, log 42.) -/
def tryWrite (s : State) (p : Nat) (gridFree : Bool) (f : Partition → Partition) : State :=
  let v := getPart s p
  let n := f v
  let code := if gridFree && holdsGrid v then 4 else if !cfgEn n then 0 else if v.scrub then 1 else cfgErr s p n
  if 64 ≤ p then s
  else if code ≠ 0 then setErr s p code
  else
    let s1 := setPart s p n
    if sameMeasured v n then s1 else measuredChange s1 p

/-! ## Enabling and disabling (R374, R377, R379) -/

def setWay (r : BitVec 64) (i p : Nat) : BitVec 64 := BitVec.ofNat 64 (setFld r.toNat (7 * i) 7 (p % 64 + 64))

/-- Every unused way of every router inside a partition's rectangle is given to it. -/
def giveWays (s : State) (p : Nat) : State :=
  let fill := fun (v : BitVec 64) => (List.range 8).foldl (fun w i => if bit w.toNat (7 * i + 6) then w else setWay w i p) v
  (rectSites (getPart s p)).foldl (fun s n =>
    modRouter (setPcways s n (fill (getRouter s n).pcways)) n fun r => { r with pcwaysNext := r.pcwaysNext.map fill }) s

/-- The slices that come to a partition with its rectangle start their selectors at 512 (R191). -/
def assignSlices (s : State) (old v : Partition) : State :=
  { s with slices := s.slices.map fun q =>
      if inRect v (msSite (q.1 / 8)) && !(old.active && inRect old (msSite (q.1 / 8))) then (q.1, { q.2 with psel := [] }) else q }

/-- A write to PARTCFG that leaves EN clear, or clears it and so starts a scrub (R379). A stopped partition is scrubbed whatever it
holds (R420). -/
def clearCfg (s : State) (part : Nat) (v : BitVec 64) : State :=
  let o := getPart s part
  if cfgEn o then
    if holdsGrid o && !o.stopped then setErr s part 4
    else measuredChange (modPart s part fun q =>
      { q with cfg := v, active := false, scrub := true, scrubCfg := q.cfg, scrubFar := q.far }) part
  else tryWrite s part true fun q => { q with cfg := v }

/-- PARTCFG written. With EN the partition is enabled when its registers are sound. R191, R374, R376, R377, R417.
(DEDUCED, log 42.) -/
def execPartitionEnable (part : Nat) (v : BitVec 64) (s : State) : Host.Outcome State Fault Refusal :=
  let w := v &&& 0x003FFFFF0007FFFF#64
  let old := getPart s part
  if !w.getLsbD 18 then .next (clearCfg s part w)
  else
    let s1 := tryWrite s part true fun q => { q with cfg := w, active := true }
    let v1 := getPart s1 part
    if v1.active && v1.cfg == w && !(old.active && old.cfg == w) then
      .next { giveWays (assignSlices s1 old v1) part with featLocked := true }
    else .next s1

/-- EN cleared: a scrub starts. R374, R379. -/
def execPartitionDisable (part : Nat) (s : State) : Host.Outcome State Fault Refusal :=
  .next (if cfgEn (getPart s part) then clearCfg s part ((getPart s part).cfg &&& ~~~(1#64 <<< 18)) else s)

/-- A core of a partition after its scrub. -/
def scrubCore (k : Core) : Core := { retired := k.retired, testing := k.testing, emul := k.emul }

/-- A router after a partition's scrub: its entries and requests are gone. -/
def scrubRouter (p : Nat) (r : Router) : Router :=
  { r with entries := r.entries.filter fun e => e.part != p, merges := r.merges.filter fun q => q.part != p }

/-- Every way that a partition owned becomes unused (R377). -/
def freeWays (s : State) (p : Nat) : State :=
  let free := fun (v : BitVec 64) =>
    (List.range 8).foldl (fun w i => if wayIn v i = some p then BitVec.ofNat 64 (setFld w.toNat (7 * i) 7 0) else w) v
  (mkeys s.routers).foldl (fun s n =>
    modRouter (setPcways s n (free (getRouter s n).pcways)) n fun r => { r with pcwaysNext := r.pcwaysNext.map free }) s

/-- A region after a partition's scrub: its power state and event counts are gone, and the region's own counts where no other
partition has a site in it (R378, R379). -/
def scrubRegion (s : State) (v : Partition) (p g : Nat) (r : Region) : Region :=
  { r with power := mdel r.power p, pwrevt := if hasRegion v g && (partsOver s g).all (· == p) then 0 else r.pwrevt }

/-- A partition after its scrub: its registers, and nothing else. -/
def scrubPart (v : Partition) : Partition :=
  { cfg := v.cfg, far := v.far, edge := v.edge, aps := v.aps, err := v.err, fqcfg := v.fqcfg, fqhead := v.fqhead,
    fqtail := v.fqtail, ctxarea := v.ctxarea, recSeq := v.recSeq, nextGrid := v.nextGrid, trc := v.trc, curfew := v.curfew,
    dbg := v.dbg, wps := v.wps }

/-- A line that a message carries back to storage. -/
def carried (m : Msg) : Option Line :=
  match m.kind with | .dataAck | .writeBack | .prune => m.data | _ => none

/-- The stores that outlived their tasks are completed (R197). -/
def landAons (s : State) (p : Nat) : State :=
  ((getPart s p).aons.flatMap (·.writes)).foldl (fun s w => { s with mem := writeBytes s.mem (memKey (getPart s p) w.1) w.2 }) s

/-- Every tree of a partition is cut: lines under way land, and dirty lines of the host and of other panels go back to them (R379). -/
def cutTrees (s : State) (p : Nat) : State :=
  let s1 := s.net.foldl (fun s m => match carried m with
    | some d => if m.part = p then storeLine s p m.line d else s
    | none => s) s
  let dirtyOf := fun (k : Core) => match k.team with
    | some t => if t.part = p then (k.l1.filter fun l => dirty l.state).map (·.line) else []
    | none => []
  landAons (((s1.cores.flatMap fun q => dirtyOf q.2).foldl addNew []).foldl (fun s l => collapseOne s p l) s1) p

/-- A scrub ends: everything R379 lists is cleared, the near DRAM and the LPDDR-6 of its sites hold zeros, and the partition's ways
are unused. (DEDUCED, log 42.) -/
def execScrubComplete (part : Nat) (s : State) : Host.Outcome State Fault Refusal :=
  let now := getPart s part
  if !now.scrub then .next s
  else
    let v := laid now
    let s0 := cutTrees (setPart s part { v with scrub := false }) part
    let own := fun (h : Nat) => inNear v h || inFar v h
    let ours := fun (a : Nat) => match memKeySite a with | some ms => inRect v (msSite ms) | none => false
    let s1 := { s0 with
      mem := s0.mem.filter fun c => !ours c.1,
      cores := s0.cores.map fun q => if inRect v (coreSite q.1) then (q.1, scrubCore q.2) else q,
      dies := s0.dies.map fun q => if q.1 < 256 ∧ inRect v (dieSite q.1) then (q.1, { q.2 with tlb := [] }) else q,
      slices := s0.slices.map fun q => if inRect v (msSite (q.1 / 8)) then (q.1, { badWays := q.2.badWays }) else q,
      routers := mmap (scrubRouter part) s0.routers,
      regions := s0.regions.map fun q => (q.1, scrubRegion s0 v part q.1 q.2),
      net := s0.net.filter fun m => m.part != part,
      anchors := s0.anchors.filter fun a => a.msg.part != part,
      outstanding := s0.outstanding.filter fun o => o.msg.part != part,
      dups := s0.dups.filter fun d => d.part != part,
      wpHits := s0.wpHits.filter fun h => h.part != part,
      proxies := s0.proxies.filter fun q => !own q.line,
      hostLines := s0.hostLines.filter fun q => q.1 % 64 != part,
      hostReqs := s0.hostReqs.filter fun q => q.1 % 64 != part,
      tiles := s0.tiles.filter fun q => (apOf v (2048 * q.1)).isNone,
      tileReqs := s0.tileReqs.filter fun q => (apOf v (2048 * q.1)).isNone,
      incs := s0.incs.filter fun i => i.part != part,
      semWaits := s0.semWaits.filter fun w => waitPart s0 w != part,
      msgs := s0.msgs.filter fun m => m.part != part,
      walks := s0.walks.filter fun w => w.part != part,
      parts := mput s0.parts part (scrubPart now) }
    .next (freeWays s1 part)

/-- PARTEDGE written. R374, R376. -/
def execPartedgeWrite (part : Nat) (v : BitVec 64) (s : State) : Host.Outcome State Fault Refusal :=
  .next (tryWrite s part true fun q => { q with edge := v &&& 0xFFFFFFFF0000FFFF#64 })

/-- A panel aperture register written. R374, R376. -/
def execPanapWrite (part k : Nat) (v : BitVec 64) (s : State) : Host.Outcome State Fault Refusal :=
  .next (if 4 ≤ k then s else tryWrite s part true fun q => { q with aps := mput q.aps k (v &&& 0xFFFFFFFF3FFFFFFF#64) })

/-- PARTFAR written; R374 does not name it among the registers a grid locks. R376. -/
def execPartfarWrite (part : Nat) (v : BitVec 64) (s : State) : Host.Outcome State Fault Refusal :=
  .next (tryWrite s part false fun q => { q with far := v &&& 0x3FFFFF#64 })

/-! ## Ways (R250, R377) -/

/-- Stable entries of a router cut in ascending set and way order. -/
def cutEntries (s : State) (site : Nat) (hit : Entry → Bool) : State :=
  let es := (getRouter s site).entries.filter fun e => e.state == .stable && hit e
  (es.foldl (fun l e => insertNat l (8 * e.set + e.way)) []).foldl (fun s k =>
    match es.find? fun e => 8 * e.set + e.way == k with | some e => beginCut s site e | none => s) s

/-- A write of PCVAL or PCWAYS begins: the entries it takes out of use are cut, and it takes effect when they are (R250, R377). -/
def startWrite (s : State) (site : Nat) (f : Router → Router) : State :=
  let s1 := modRouter s site f
  let r := getRouter s1 site
  settleRouter (cutEntries s1 site fun e => leaving s1 r site e.part e.set e.way) site

/-- PCWAYS of a router written: refused while a partition that a field names, before or after, holds a grid; a way that a partition
loses is cut first, and the write takes effect when its entries are gone. R374, R377, R386. (DEDUCED, log 43.) -/
def execPcwaysWrite (site : Nat) (v : BitVec 64) (s : State) : Host.Outcome State Fault Refusal :=
  let w := v &&& 0x00FFFFFFFFFFFFFF#64
  let r := getRouter s site
  let named := (namedBy w).foldl addNew ((namedBy (r.pcwaysNext.getD r.pcways)).foldl addNew (namedBy r.pcways))
  match named.filter fun p => holdsGrid (getPart s p) with
  | [] => if 512 ≤ site then .next s else .next (startWrite s site fun r => { r with pcwaysNext := some w })
  | ps => .next (ps.foldl (fun s p => setErr s p 4) s)

/-- PCVAL of a router written: entries in ways or sets that go out of use are cut, and the write then takes effect. R250.
(DEDUCED, log 43.) -/
def execPcvalWrite (site : Nat) (v : BitVec 32) (s : State) : Host.Outcome State Fault Refusal :=
  if 512 ≤ site then .next s
  else
    .next (startWrite s site fun r => { r with pcvalNext := some (v &&& 0x1FF#32) })

/-! ## Noon (R328) -/

/-- NBCTL written through the management interface: ARMERR is cleared by a 1; an ARM reads the image under NBPASID. -/
def execNbctlArm (part ctx : Nat) (v : BitVec 32) (s : State) : Host.Outcome State Fault Refusal :=
  let s0 := if v.getLsbD 3 then
      modPart s part fun q => { q with noon := mmod {} q.noon ctx fun n => { n with armErr := false } } else s
  let n := mget {} (getPart s part).noon ctx
  let a := n.addr.toNat
  if 4 ≤ ctx then .next s
  else if !v.getLsbD 0 then .next s0
  else if a % 64 ≠ 0 then .next (refuseArm s0 part ctx)
  else match unitRead s part n.pasid.toNat a 1024 with
    | none => .next (refuseArm s0 part ctx)
    | some image =>
      let away := (pagesOf a 1024).any fun k =>
        ((lookup s part n.pasid.toNat (if k = a / 4096 then a else 4096 * k)).bind (tierOf s part)) == some 3
      if away then .next (refuseArm s0 part ctx)
      else if unitQuiet s part n.pasid.toNat a 1024 then .next (armNoon (unitFill s0 part n.pasid.toNat a 1024) part ctx image)
      else .next s

/-! ## The fault queue and the context area (R397 - R399, R402) -/

/-- FQCFG written; a LOGN outside 6 to 16 refuses EN. R397. -/
def execFqcfgWrite (part : Nat) (v : BitVec 64) (s : State) : Host.Outcome State Fault Refusal :=
  let w := v &&& 0x000FFFFFFFFFF03F#64
  let n := fld w.toNat 1 5
  let ok := decide (6 ≤ n) && decide (n ≤ 16)
  .next (modPart s part fun q => { q with fqcfg := if ok then w else w &&& ~~~1#64 })

/-- FQHEAD written. R397, R399. -/
def execFqheadWrite (part : Nat) (v : BitVec 32) (s : State) : Host.Outcome State Fault Refusal :=
  .next (modPart s part fun q => { q with fqhead := v.extractLsb' 0 16 })

/-- The 64 bytes of a record (Table 20-2). -/
def recordBytes (r : Record) : List Byte :=
  toBytes 4 (r.code % 256 + b2n r.ends * 2 ^ 8 + b2n r.lane * 2 ^ 9 + b2n r.uni * 2 ^ 10 + b2n r.promo * 2 ^ 11 +
      r.slot % 4 * 2 ^ 12 + r.thread % 128 * 2 ^ 14) ++
    toBytes 4 r.aux.toNat ++ toBytes 8 r.dc.toNat ++
    toBytes 4 (r.core % 2 ^ 13 + r.group % 8 * 2 ^ 13 + r.region % 16 * 2 ^ 16) ++ toBytes 4 (r.team % 2 ^ 24) ++
    toBytes 4 r.grid ++ toBytes 4 r.pc.toNat ++ toBytes 8 r.addr.toNat ++ toBytes 12 r.mask.toNat ++ toBytes 4 r.desc.toNat ++
    toBytes 4 (r.pasid % 2 ^ 20 + r.part % 64 * 2 ^ 20) ++ toBytes 4 r.seq

/-- Records in a partition's ring, and how many it holds at most. -/
def ringUsed (v : Partition) : Nat := (v.fqtail - v.fqhead).toNat

/-- FULL of FQTAIL: the ring holds 2^LOGN - 1 records. A LOGN below 6 names no ring. -/
def ringFull (v : Partition) : Bool := let n := fld v.fqcfg.toNat 1 5; decide (6 ≤ n) && decide (2 ^ n - 1 ≤ ringUsed v)

/-- FQTAIL (R397). -/
def fqtailReg (v : Partition) : BitVec 32 := BitVec.ofNat 32 (v.fqtail.toNat + b2n (ringFull v) * 2 ^ 16)

/-- The oldest record is written to the ring, and TAIL advances once it is. While the ring is full it waits. R398, R399.
(DEDUCED, log 5; DEDUCED, log 43.) -/
def execFaultRecordWritten (part : Nat) (s : State) : Host.Outcome State Fault Refusal :=
  let v := getPart s part
  match v.records with
  | [] => .next s
  | r :: rest =>
    let at_ := fld v.fqcfg.toNat 12 40 * 4096 + 64 * (v.fqtail.toNat % 2 ^ fld v.fqcfg.toNat 1 5)
    if !bit v.fqcfg.toNat 0 || ringFull v || !lineQuiet s part (lineBase at_) then .next s
    else
      let s1 := writePhys s part at_ (recordBytes r)
      .next (modPart s1 part fun v => { v with records := rest, fqtail := v.fqtail + 1 })

/-- The 32 bytes of a trace record. (PRESUMED, log 31.) -/
def traceBytes (r : TraceRec) : List Byte :=
  toBytes 8 r.dc.toNat ++ toBytes 4 r.region ++ toBytes 4 r.event ++ toBytes 4 r.core ++ toBytes 4 r.a ++ toBytes 4 r.b ++ toBytes 4 0

/-- The oldest trace record is written to its partition's ring in the context area (R419). (PRESUMED, log 31.) -/
def writeTrace (part : Nat) (s : State) : Host.Outcome State Fault Refusal :=
  let v := getPart s part
  match v.trace with
  | [] => .next s
  | r :: rest =>
    let at_ := fld v.ctxarea.toNat 0 22 * GiB + (traceRing v).1 + 32 * v.trcNext
    if !lineQuiet s part (lineBase at_) then .next s
    else
      let s1 := writePhys s part at_ (traceBytes r)
      .next (modPart s1 part fun v => { v with trace := rest, trcNext := v.trcNext + 1 })

/-- CTXAREA written; an area outside the near window is refused. R397, R402. (DEDUCED, log 42.) -/
def execCtxareaWrite (part : Nat) (v : BitVec 64) (s : State) : Host.Outcome State Fault Refusal :=
  let w := v &&& 0xFFFFFFFF#64
  let base := fld w.toNat 0 22 * GiB
  let size := fld w.toNat 22 10 * GiB
  let q := getPart s part
  if size = 0 ∨ (nearBase q ≤ base ∧ base + size ≤ nearBase q + nearSize q) then
    .next (modPart s part fun q => { q with ctxarea := w })
  else .next (send s .refused)

/-! ## Grants of copy faults (R422) -/

def taskRuns (v : Partition) (task : Nat) : Bool :=
  v.grids.any fun g => g.task == task && g.depth == 0 && (g.state == .leasing || g.state == .placing || g.state == .running)

/-- CFGRANT: the sequence number last written, and STATUS. -/
def setGrant (s : State) (part : Nat) (v : BitVec 64) (status : Nat) : State :=
  modPart s part fun q => { q with grant := BitVec.ofNat 64 (v.toNat % 2 ^ 32 + status * 2 ^ 33) }

/-- Whether a page touches a byte range. -/
def pageTouches (page base len : Nat) : Bool := decide (page * 4096 < base + len) && decide (base < (page + 1) * 4096)

/-- A grant as it can be made now: the granule of a 0x30 record is walked, pinned and granted to the record's task (STATUS 0), has to
wait (1), or is refused (2, 3). R422. (DEDUCED, log 43.) -/
def tryGrant (s : State) (part seq : Nat) : State × Nat :=
  let q := getPart s part
  match q.parkRecs.find? fun r => r.seq == seq with
  | none => (s, 3)
  | some r =>
    let inSrc := pageTouches r.page r.srcLo r.srcLen
    let inDst := pageTouches r.page r.dstLo r.dstLen
    if !taskRuns q r.task || decide (64 ≤ (q.granted.filter fun g => g.task == r.task).length) then (s, 3)
    else match walkPage s part r.pasid (r.page * 4096) with
      | none => (s, 2)
      | some w =>
        if inDst && !w.w then (s, 2)
        else if !leafQuiet s part r.pasid r.page || ((pinOf q r.pasid r.page).isNone && decide (pinCapacity ≤ q.pins.length)) then (s, 1)
        else
          let g : Granted := { task := r.task, page := r.page, r := inSrc, w := inDst }
          (modPart (pinPage s part r.pasid r.page inDst) part fun q => { q with granted := q.granted ++ [g] }, 0)

/-- A grant goes as far as it can: STATUS tells how it stands, and one that has to wait is tried again. -/
def stepGrant (s : State) (part seq : Nat) : State :=
  let r := tryGrant s part seq
  modPart (setGrant r.1 part (getPart s part).grant r.2) part fun q => { q with granting := if r.2 = 1 then some seq else none }

/-- A grant that is under way goes on. -/
def grantGoesOn (part : Nat) (s : State) : Host.Outcome State Fault Refusal :=
  match (getPart s part).granting with
  | some seq => .next (if (getPart s part).stopped then s else stepGrant s part seq)
  | none => .next s

/-- CFGRANT written: SEQ is stored; with GO the granule of the record is granted, unless a grant is busy, when the write is ignored.
R422. (DEDUCED, log 43.) -/
def execCfgrantGo (part : Nat) (v : BitVec 64) (s : State) : Host.Outcome State Fault Refusal :=
  let q := getPart s part
  let s1 := setGrant s part v (fld q.grant.toNat 33 2)
  if !v.getLsbD 32 then .next s1
  else if q.granting.isSome then .next s
  else .next (stepGrant s1 part (v.toNat % 2 ^ 32))

/-! ## Features and the other registers (R412, R416, R417, R419 - R421) -/

/-- FEATEN written: bits that FEATCAP does not offer are stored as 0; locked while a partition has been enabled since the start.
R417. -/
def execFeatenWrite (v : BitVec 256) (s : State) : Host.Outcome State Fault Refusal :=
  .next (if s.featLocked then s else { s with featEn := v &&& s.featCap })

/-- A register whose write has no row of its own. R328, R351, R361, R376, R412, R416, R419 - R421. (PRESUMED, log 31.) -/
def execMgmtRegisterWrite (reg : MgmtReg) (v : BitVec 64) (s : State) : Host.Outcome State Fault Refusal :=
  let noon := fun (p k : Nat) (f : Noon → Noon) => if 4 ≤ k then s else modPart s p fun q => { q with noon := mmod {} q.noon k f }
  let wp := fun (p k : Nat) (f : Watchpoint → Watchpoint) => if 8 ≤ k then s else modPart s p fun q => { q with wps := mmod {} q.wps k f }
  let w := v.setWidth 32
  .next <| match reg with
    | .partstat p => modPart s p fun q => { q with err := q.err &&& ~~~(v.extractLsb' 4 4) }
    | .nbaddr p k => noon p k fun n => { n with addr := v.setWidth 57 }
    | .nbpasid p k => noon p k fun n => { n with pasid := v.setWidth 20 }
    | .pwrcfg g => modRegion s g fun r => { r with pwrcfg := w &&& 0x03FFFFFF#32 }
    | .thermcfg g => modRegion s g fun r => { r with thermcfg := w &&& 0x00007FFF#32 }
    | .pwrevt g => modRegion s g fun r =>
        { r with pwrevt := w.setWidth 24,
                 power := (partsOver s g).foldl (fun m p => mmod {} m p fun q =>
                   { q with evt := w.setWidth 24, stepViol := w.extractLsb' 24 8 }) r.power }
    | .merrcnt => { s with merr := { s.merr with trans := w } }
    | .startctl => { s with start := { s.start with warm := v.getLsbD 0, keep := v.getLsbD 1 } }
    | .trccfg p => modPart s p fun q => { q with trc := v, trcFull := false, trace := [], trcNext := 0 }
    | .curfew p => modPart s p fun q => { q with curfew := v }
    | .dbgctl p => modPart s p fun q => { q with dbg := v.getLsbD 0 }
    | .wpBase p n => wp p n fun q => { q with base := alignDown v.toNat 128 }
    | .wpLimit p n => wp p n fun q => { q with limit := alignDown v.toNat 128 }
    | .wpCtl p n => wp p n fun q => { q with read := v.getLsbD 0, write := v.getLsbD 1, stop := v.getLsbD 2 }
    | .pasidRoot n => if 2 ^ 20 ≤ n then s else { s with pasids := mput s.pasids n (fld v.toNat 12 40 * 4096) }

end Sys2Proof.Machine
end

