-- ==== Sys2Proof/Machine/Spdm.lean ====
section
/-! DEFINITION. The SPDM responder: negotiation, certificates, measurements and sessions (R383, R384), the signing key's leaf index
(R387), and the key commands of a secure session (R385, R386). -/

namespace Sys2Proof.Machine

open Sys2Proof

/-! ## Signing (R387) -/

/-- A signature made: the leaf index advances, and one more fuse is burned at each multiple of 2^30. With the index at 2^40
nothing is signed any more. -/
def signReply (s : State) (contents : List Byte) : State :=
  if 2 ^ 40 ≤ s.leaf then send s .unspecified
  else
    let next := s.leaf + 1
    send { s with leaf := next, leafFuses := if next % 2 ^ 30 = 0 then s.leafFuses + 1 else s.leafFuses }
      (.signed contents s.leaf (Config.signature s.leaf contents))

/-! ## Measurements (R384) -/

/-- A retired unit as the fuse state lists it: its class and number (log 13). (PRESUMED, log 13.) -/
def fuseBytes (u : UnitId) : List Byte :=
  match u with
  | .core n => 0 :: toBytes 4 n
  | .dcc n => 1 :: toBytes 4 n
  | .slice n => 2 :: toBytes 4 n
  | .sliceWay n way => 2 :: (toBytes 4 n ++ toBytes 4 way)
  | .dramRow site row => 3 :: (toBytes 4 site ++ toBytes 4 row)
  | .linkLane link lane => 4 :: (toBytes 4 link ++ toBytes 4 lane)
  | .pisteWay site way => 5 :: (toBytes 4 site ++ toBytes 4 way)
  | .router n => 6 :: toBytes 4 n

/-- The contents a measurement digests. (PRESUMED, log 13.) -/
def measured (s : State) (index : Nat) : Option (List Byte) :=
  let reg := fun (v : BitVec 64) => toBytes 8 v.toNat
  if index = 1 then some Config.bootRom
  else if index = 2 then some s.image.bytes
  else if index = 3 then some (toBytes 4 s.image.version.toNat ++ toBytes 4 s.minVersion.toNat)
  else if index = 4 then some (s.fuseRetired.flatMap fuseBytes ++ toBytes 4 64)
  else if 0x40 ≤ index ∧ index < 0x80 then
    let p := index - 0x40
    let v := getPart s p
    some (reg v.cfg ++ reg v.far ++ reg v.edge ++ (List.range 4).flatMap (fun k => reg (mget 0 v.aps k)) ++
      (s.routers.filter fun q => (namedBy q.2.pcways).contains p).flatMap fun q => reg q.2.pcways)
  else none

/-- DESIGN CHOICE, log 8; PRESUMED, log 13. -/
def digestOf (s : State) (index : Nat) : Option (List Byte) := (measured s index).map shake256

/-! ## Negotiation and reports (R383) -/

/-- GET_VERSION opens a connection on a host port. (DEDUCED, log 44.) -/
def execGetVersion (port : Nat) (s : State) : Host.Outcome State Fault Refusal :=
  if 8 ≤ port then .next s
  else
    let v := s.spdm
    .next (send { s with spdm := { v with version := addNew v.version port, caps := v.caps.filter (· != port),
                                          algs := v.algs.filter (· != port) } } (.spdmVersion 0x13))

/-- GET_CAPABILITIES follows the version. -/
def execGetCapabilities (port : Nat) (s : State) : Host.Outcome State Fault Refusal :=
  if s.spdm.version.contains port then
    .next (send { s with spdm := { s.spdm with caps := addNew s.spdm.caps port } } .spdmCapabilities)
  else .next (send s .refused)

/-- NEGOTIATE_ALGORITHMS: only the algorithms of R383 are accepted. -/
def execNegotiateAlgorithms (port : Nat) (offer : SpdmOffer) (s : State) : Host.Outcome State Fault Refusal :=
  let ok := offer.sha3_384 && offer.xmssmt && offer.secp384r1 && offer.aes256gcm && offer.dmtf
  if !s.spdm.caps.contains port then .next (send s .refused)
  else if ok then .next (send { s with spdm := { s.spdm with algs := addNew s.spdm.algs port } } (.spdmAlgorithms true))
  else .next (send s (.spdmAlgorithms false))

/-- A request that needs the negotiation behind it. (DEDUCED, log 44.) -/
def negotiated (s : State) (port : Nat) (f : State) : Host.Outcome State Fault Refusal :=
  if s.spdm.algs.contains port then .next f else .next (send s .refused)

/-- GET_DIGESTS: the digest of slot 0. -/
def execGetDigests (port : Nat) (s : State) : Host.Outcome State Fault Refusal :=
  negotiated s port (send s (.digests (sha3_384 Config.certificate)))

/-- GET_CERTIFICATE: there is one slot, 0. -/
def execGetCertificate (port slot : Nat) (s : State) : Host.Outcome State Fault Refusal :=
  negotiated s port (if slot = 0 then send s (.certificate Config.certificate) else send s .refused)

/-- CHALLENGE: a signature over the certificate's digest and the nonce. -/
def execChallenge (port : Nat) (nonce : List Byte) (s : State) : Host.Outcome State Fault Refusal :=
  negotiated s port (signReply s (sha3_384 Config.certificate ++ nonce))

/-- GET_MEASUREMENTS: one block, signed with the nonce when that is asked for. R384. -/
def execGetMeasurements (port index : Nat) (nonce : List Byte) (sign : Bool) (s : State) : Host.Outcome State Fault Refusal :=
  negotiated s port (match digestOf s index with
    | none => send s .refused
    | some d => if sign then signReply s (toBytes 1 index ++ d ++ nonce) else send s (.measurement index d))

/-! ## Sessions (R383) -/

/-- KEY_EXCHANGE: a session is opened, its reply signed; a 65th is answered Busy. (DEDUCED, log 44.) -/
def execKeyExchange (port : Nat) (share : List Byte) (s : State) : Host.Outcome State Fault Refusal :=
  negotiated s port (
    if 64 ≤ s.spdm.sessions.length then send s .busy
    else if 2 ^ 40 ≤ s.leaf then send s .unspecified
    else
      let v := s.spdm
      let s1 := { s with spdm := { v with nextId := v.nextId + 1, sessions := v.sessions ++
        [{ id := v.nextId, port := port, key := Config.sessionKey share (Config.keyShare share) }] } }
      send (signReply s1 (share ++ Config.keyShare share)) (.session v.nextId))

def sessionOf (s : State) (id : Nat) : Option Session := s.spdm.sessions.find? fun q => q.id == id

def dropSession (s : State) (id : Nat) : State :=
  { s with spdm := { s.spdm with sessions := s.spdm.sessions.filter fun q => q.id != id } }

def modSession (s : State) (id : Nat) (f : Session → Session) : State :=
  { s with spdm := { s.spdm with sessions := s.spdm.sessions.map fun q => if q.id = id then f q else q } }

/-- FINISH: the session is secure when the requester's proof is good, and gone otherwise. -/
def execFinishSession (session : Nat) (ok : Bool) (s : State) : Host.Outcome State Fault Refusal :=
  match sessionOf s session with
  | none => .next (send s .refused)
  | some q =>
    if q.secure then .next (send s .refused)
    else if ok then .next (send (modSession s session fun q => { q with secure := true }) .ack)
    else .next (send (dropSession s session) .refused)

/-- A request inside a secure session. -/
def inSession (s : State) (session : Nat) (f : Session → State) : Host.Outcome State Fault Refusal :=
  match sessionOf s session with
  | some q => if q.secure then .next (f q) else .next (send s .refused)
  | none => .next (send s .refused)

/-- HEARTBEAT. -/
def execHeartbeat (session : Nat) (s : State) : Host.Outcome State Fault Refusal := inSession s session fun _ => send s .ack

/-- KEY_UPDATE: the session goes on under a new AEAD key. -/
def execKeyUpdate (session : Nat) (s : State) : Host.Outcome State Fault Refusal :=
  inSession s session fun _ => send (modSession s session fun q => { q with key := Config.updatedKey q.key }) .ack

/-- END_SESSION: keys it has loaded stay (R386). -/
def execEndSession (session : Nat) (s : State) : Host.Outcome State Fault Refusal :=
  inSession s session fun _ => send (dropSession s session) .ack

/-! ## Key commands (R385, R386) -/

/-- BIND: the session is bound to an ACTIVE partition, and the reply carries its measurement. -/
def execBindSession (session part : Nat) (s : State) : Host.Outcome State Fault Refusal :=
  inSession s session fun q =>
    if !(getPart s part).active || decide (64 ≤ part) || q.bound.isSome then send s .refused
    else match digestOf s (0x40 + part) with
      | some d => send (modSession s session fun q => { q with bound := some part }) (.measurement (0x40 + part) d)
      | none => send s .refused

/-- The session's partition, when a slot number is in range. -/
def keySlotOf (q : Session) (slot : Nat) : Option Nat := if slot < 16 then q.bound else none

/-- KEYSET: the slot is loaded, unless it holds a key from another session. -/
def execKeyset (session slot : Nat) (key : BitVec 256) (s : State) : Host.Outcome State Fault Refusal :=
  inSession s session fun q =>
    match keySlotOf q slot with
    | none => send s .refused
    | some p =>
      let free := match mget? (getPart s p).keys slot with | some k => k.session == session | none => true
      if free then send (modPart s p fun v => { v with keys := mput v.keys slot { key := key, session := session } }) .ack
      else send s .refused

/-- KEYCLR: the slot is emptied if this session loaded it. -/
def execKeyclr (session slot : Nat) (s : State) : Host.Outcome State Fault Refusal :=
  inSession s session fun q =>
    match keySlotOf q slot with
    | none => send s .refused
    | some p => match mget? (getPart s p).keys slot with
      | some k => if k.session = session then send (modPart s p fun v => { v with keys := mdel v.keys slot }) .ack else send s .refused
      | none => send s .refused

end Sys2Proof.Machine
end

