-- ==== Sys2Proof/Machine/Dispatch.lean ====
section
/-! DEFINITION. One arm per instruction: a direct call of its meaning. -/

namespace Sys2Proof.Machine

open Sys2Proof

def exec (i : Instr) (s : State) : Host.Outcome State Fault Refusal :=
  match i with
  | .add x1 x2 x3 => Sys2Proof.Machine.execAdd x1 x2 x3 s
  | .sub x1 x2 x3 => Sys2Proof.Machine.execSub x1 x2 x3 s
  | .andR x1 x2 x3 => Sys2Proof.Machine.execAndR x1 x2 x3 s
  | .orR x1 x2 x3 => Sys2Proof.Machine.execOrR x1 x2 x3 s
  | .xorR x1 x2 x3 => Sys2Proof.Machine.execXorR x1 x2 x3 s
  | .andn x1 x2 x3 => Sys2Proof.Machine.execAndn x1 x2 x3 s
  | .shl x1 x2 x3 => Sys2Proof.Machine.execShl x1 x2 x3 s
  | .shrZ x1 x2 x3 => Sys2Proof.Machine.execShrZ x1 x2 x3 s
  | .shrS x1 x2 x3 => Sys2Proof.Machine.execShrS x1 x2 x3 s
  | .rotr x1 x2 x3 => Sys2Proof.Machine.execRotr x1 x2 x3 s
  | .slt x1 x2 x3 => Sys2Proof.Machine.execSlt x1 x2 x3 s
  | .sltu x1 x2 x3 => Sys2Proof.Machine.execSltu x1 x2 x3 s
  | .seq x1 x2 x3 => Sys2Proof.Machine.execSeq x1 x2 x3 s
  | .sne x1 x2 x3 => Sys2Proof.Machine.execSne x1 x2 x3 s
  | .minS x1 x2 x3 => Sys2Proof.Machine.execMinS x1 x2 x3 s
  | .minZ x1 x2 x3 => Sys2Proof.Machine.execMinZ x1 x2 x3 s
  | .maxS x1 x2 x3 => Sys2Proof.Machine.execMaxS x1 x2 x3 s
  | .maxZ x1 x2 x3 => Sys2Proof.Machine.execMaxZ x1 x2 x3 s
  | .mul x1 x2 x3 => Sys2Proof.Machine.execMul x1 x2 x3 s
  | .mulhS x1 x2 x3 => Sys2Proof.Machine.execMulhS x1 x2 x3 s
  | .mulhZ x1 x2 x3 => Sys2Proof.Machine.execMulhZ x1 x2 x3 s
  | .divS x1 x2 x3 => Sys2Proof.Machine.execDivS x1 x2 x3 s
  | .divZ x1 x2 x3 => Sys2Proof.Machine.execDivZ x1 x2 x3 s
  | .remS x1 x2 x3 => Sys2Proof.Machine.execRemS x1 x2 x3 s
  | .remZ x1 x2 x3 => Sys2Proof.Machine.execRemZ x1 x2 x3 s
  | .popc x1 x2 => Sys2Proof.Machine.execPopc x1 x2 s
  | .clz x1 x2 => Sys2Proof.Machine.execClz x1 x2 s
  | .brev x1 x2 => Sys2Proof.Machine.execBrev x1 x2 s
  | .sel x1 x2 x3 x4 => Sys2Proof.Machine.execSel x1 x2 x3 x4 s
  | .addi x1 x2 x3 => Sys2Proof.Machine.execAddi x1 x2 x3 s
  | .andi x1 x2 x3 => Sys2Proof.Machine.execAndi x1 x2 x3 s
  | .ori x1 x2 x3 => Sys2Proof.Machine.execOri x1 x2 x3 s
  | .xori x1 x2 x3 => Sys2Proof.Machine.execXori x1 x2 x3 s
  | .slti x1 x2 x3 => Sys2Proof.Machine.execSlti x1 x2 x3 s
  | .sltiu x1 x2 x3 => Sys2Proof.Machine.execSltiu x1 x2 x3 s
  | .shli x1 x2 x3 => Sys2Proof.Machine.execShli x1 x2 x3 s
  | .shriZ x1 x2 x3 => Sys2Proof.Machine.execShriZ x1 x2 x3 s
  | .shriS x1 x2 x3 => Sys2Proof.Machine.execShriS x1 x2 x3 s
  | .rotri x1 x2 x3 => Sys2Proof.Machine.execRotri x1 x2 x3 s
  | .li x1 x2 => Sys2Proof.Machine.execLi x1 x2 s
  | .liz x1 x2 => Sys2Proof.Machine.execLiz x1 x2 s
  | .lui x1 x2 => Sys2Proof.Machine.execLui x1 x2 s
  | .lih x1 x2 => Sys2Proof.Machine.execLih x1 x2 s
  | .bfeZ x1 x2 x3 x4 => Sys2Proof.Machine.execBfeZ x1 x2 x3 x4 s
  | .bfeS x1 x2 x3 x4 => Sys2Proof.Machine.execBfeS x1 x2 x3 x4 s
  | .bfi x1 x2 x3 x4 => Sys2Proof.Machine.execBfi x1 x2 x3 x4 s
  | .beqz x1 x2 => Sys2Proof.Machine.execBeqz x1 x2 s
  | .bnez x1 x2 => Sys2Proof.Machine.execBnez x1 x2 s
  | .bltz x1 x2 => Sys2Proof.Machine.execBltz x1 x2 s
  | .bgez x1 x2 => Sys2Proof.Machine.execBgez x1 x2 s
  | .br x1 => Sys2Proof.Machine.execBr x1 s
  | .call x1 x2 => Sys2Proof.Machine.execCall x1 x2 s
  | .jmpr x1 x2 x3 => Sys2Proof.Machine.execJmpr x1 x2 x3 s
  | .lgo x1 => Sys2Proof.Machine.execLgo x1 s
  | .ljoin => Sys2Proof.Machine.execLjoin s
  | .mskLive => Sys2Proof.Machine.execMskLive s
  | .mskN x1 => Sys2Proof.Machine.execMskN x1 s
  | .exitScalar => Sys2Proof.Machine.execExitScalar s
  | .yield => Sys2Proof.Machine.execYield s
  | .ldScalar x1 x2 x3 x4 x5 x6 x7 x8 => Sys2Proof.Machine.execLdScalar x1 x2 x3 x4 x5 x6 x7 x8 s
  | .stScalar x1 x2 x3 x4 x5 x6 x7 => Sys2Proof.Machine.execStScalar x1 x2 x3 x4 x5 x6 x7 s
  | .atomScalar x1 x2 x3 x4 x5 x6 => Sys2Proof.Machine.execAtomScalar x1 x2 x3 x4 x5 x6 s
  | .casScalar x1 x2 x3 x4 x5 x6 => Sys2Proof.Machine.execCasScalar x1 x2 x3 x4 x5 x6 s
  | .fence x1 x2 x3 => Sys2Proof.Machine.execFence x1 x2 x3 s
  | .waitCounts x1 x2 x3 x4 => Sys2Proof.Machine.execWaitCounts x1 x2 x3 x4 s
  | .waitln x1 x2 x3 => Sys2Proof.Machine.execWaitln x1 x2 x3 s
  | .waitlnV1 x1 x2 x3 => Sys2Proof.Machine.execWaitlnV1 x1 x2 x3 s
  | .pause x1 => Sys2Proof.Machine.execPause x1 s
  | .pauseV1v2 x1 => Sys2Proof.Machine.execPauseV1v2 x1 s
  | .cpy1d x1 x2 => Sys2Proof.Machine.execCpy1d x1 x2 s
  | .cpy1dFt x1 x2 => Sys2Proof.Machine.execCpy1dFt x1 x2 s
  | .cpy2d x1 x2 => Sys2Proof.Machine.execCpy2d x1 x2 s
  | .cpyGather x1 x2 => Sys2Proof.Machine.execCpyGather x1 x2 s
  | .cpySeal x1 x2 => Sys2Proof.Machine.execCpySeal x1 x2 s
  | .cpyAon x1 x2 => Sys2Proof.Machine.execCpyAon x1 x2 s
  | .cpyVer x1 x2 => Sys2Proof.Machine.execCpyVer x1 x2 s
  | .cpyReplay x1 x2 => Sys2Proof.Machine.execCpyReplay x1 x2 s
  | .collRadd x1 x2 x3 => Sys2Proof.Machine.execCollRadd x1 x2 x3 s
  | .collBcast x1 x2 => Sys2Proof.Machine.execCollBcast x1 x2 s
  | .collAgath x1 x2 => Sys2Proof.Machine.execCollAgath x1 x2 s
  | .send x1 x2 x3 x4 => Sys2Proof.Machine.execSend x1 x2 x3 x4 s
  | .recvpost x1 x2 x3 => Sys2Proof.Machine.execRecvpost x1 x2 x3 s
  | .recvtst x1 x2 => Sys2Proof.Machine.execRecvtst x1 x2 s
  | .locSelf x1 => Sys2Proof.Machine.execLocSelf x1 s
  | .locHome x1 x2 => Sys2Proof.Machine.execLocHome x1 x2 s
  | .locBand x1 x2 => Sys2Proof.Machine.execLocBand x1 x2 s
  | .mma x1 x2 x3 x4 x5 x6 x7 => Sys2Proof.Machine.execMma x1 x2 x3 x4 x5 x6 x7 s
  | .mlb x1 x2 x3 x4 x5 => Sys2Proof.Machine.execMlb x1 x2 x3 x4 x5 s
  | .mdrain x1 x2 x3 x4 x5 x6 x7 => Sys2Proof.Machine.execMdrain x1 x2 x3 x4 x5 x6 x7 s
  | .acccpySt x1 x2 x3 x4 x5 => Sys2Proof.Machine.execAcccpySt x1 x2 x3 x4 x5 s
  | .acccpyLd x1 x2 x3 x4 x5 => Sys2Proof.Machine.execAcccpyLd x1 x2 x3 x4 x5 s
  | .seminc x1 x2 x3 => Sys2Proof.Machine.execSeminc x1 x2 x3 s
  | .semwait x1 x2 x3 => Sys2Proof.Machine.execSemwait x1 x2 x3 s
  | .semtst x1 x2 x3 => Sys2Proof.Machine.execSemtst x1 x2 x3 s
  | .bararr x1 => Sys2Proof.Machine.execBararr x1 s
  | .barwait x1 x2 => Sys2Proof.Machine.execBarwait x1 x2 s
  | .launch x1 x2 => Sys2Proof.Machine.execLaunch x1 x2 s
  | .spawn x1 x2 => Sys2Proof.Machine.execSpawn x1 x2 s
  | .joinc => Sys2Proof.Machine.execJoinc s
  | .xacq x1 => Sys2Proof.Machine.execXacq x1 s
  | .xrel x1 => Sys2Proof.Machine.execXrel x1 s
  | .schussOff => Sys2Proof.Machine.execSchussOff s
  | .schussOn => Sys2Proof.Machine.execSchussOn s
  | .schussBud x1 => Sys2Proof.Machine.execSchussBud x1 s
  | .schussOffV2 => Sys2Proof.Machine.execSchussOffV2 s
  | .schussOnV2 => Sys2Proof.Machine.execSchussOnV2 s
  | .schussBudV2 x1 => Sys2Proof.Machine.execSchussBudV2 x1 s
  | .sysrd x1 x2 => Sys2Proof.Machine.execSysrd x1 x2 s
  | .syswr x1 x2 => Sys2Proof.Machine.execSyswr x1 x2 s
  | .trap x1 => Sys2Proof.Machine.execTrap x1 s
  | .tret => Sys2Proof.Machine.execTret s
  | .dclk x1 => Sys2Proof.Machine.execDclk x1 s
  | .brk x1 => Sys2Proof.Machine.execBrk x1 s
  | .nopScalar x1 x2 => Sys2Proof.Machine.execNopScalar x1 x2 s
  | .prefL1 x1 x2 => Sys2Proof.Machine.execPrefL1 x1 x2 s
  | .prefSl x1 x2 => Sys2Proof.Machine.execPrefSl x1 x2 s
  | .prefTr x1 x2 => Sys2Proof.Machine.execPrefTr x1 x2 s
  | .shintSkip x1 x2 => Sys2Proof.Machine.execShintSkip x1 x2 s
  | .nopLane x1 => Sys2Proof.Machine.execNopLane x1 s
  | .mov x1 => Sys2Proof.Machine.execMov x1 s
  | .tidx x1 => Sys2Proof.Machine.execTidx x1 s
  | .addI32 x1 => Sys2Proof.Machine.execAddI32 x1 s
  | .subI32 x1 => Sys2Proof.Machine.execSubI32 x1 s
  | .mulI32 x1 => Sys2Proof.Machine.execMulI32 x1 s
  | .mulhS32 x1 => Sys2Proof.Machine.execMulhS32 x1 s
  | .mulhZ32 x1 => Sys2Proof.Machine.execMulhZ32 x1 s
  | .minS32 x1 => Sys2Proof.Machine.execMinS32 x1 s
  | .minZ32 x1 => Sys2Proof.Machine.execMinZ32 x1 s
  | .maxS32 x1 => Sys2Proof.Machine.execMaxS32 x1 s
  | .maxZ32 x1 => Sys2Proof.Machine.execMaxZ32 x1 s
  | .absS32 x1 => Sys2Proof.Machine.execAbsS32 x1 s
  | .negS32 x1 => Sys2Proof.Machine.execNegS32 x1 s
  | .andB32 x1 => Sys2Proof.Machine.execAndB32 x1 s
  | .orB32 x1 => Sys2Proof.Machine.execOrB32 x1 s
  | .xorB32 x1 => Sys2Proof.Machine.execXorB32 x1 s
  | .andnB32 x1 => Sys2Proof.Machine.execAndnB32 x1 s
  | .notB32 x1 => Sys2Proof.Machine.execNotB32 x1 s
  | .shlB32 x1 => Sys2Proof.Machine.execShlB32 x1 s
  | .shrZ32 x1 => Sys2Proof.Machine.execShrZ32 x1 s
  | .shrS32 x1 => Sys2Proof.Machine.execShrS32 x1 s
  | .popcB32 x1 => Sys2Proof.Machine.execPopcB32 x1 s
  | .clzB32 x1 => Sys2Proof.Machine.execClzB32 x1 s
  | .brevB32 x1 => Sys2Proof.Machine.execBrevB32 x1 s
  | .cmpEqI32 x1 => Sys2Proof.Machine.execCmpEqI32 x1 s
  | .cmpNeI32 x1 => Sys2Proof.Machine.execCmpNeI32 x1 s
  | .cmpLtS32 x1 => Sys2Proof.Machine.execCmpLtS32 x1 s
  | .cmpLeS32 x1 => Sys2Proof.Machine.execCmpLeS32 x1 s
  | .cmpLtZ32 x1 => Sys2Proof.Machine.execCmpLtZ32 x1 s
  | .cmpLeZ32 x1 => Sys2Proof.Machine.execCmpLeZ32 x1 s
  | .addF32 x1 => Sys2Proof.Machine.execAddF32 x1 s
  | .subF32 x1 => Sys2Proof.Machine.execSubF32 x1 s
  | .mulF32 x1 => Sys2Proof.Machine.execMulF32 x1 s
  | .minF32 x1 => Sys2Proof.Machine.execMinF32 x1 s
  | .maxF32 x1 => Sys2Proof.Machine.execMaxF32 x1 s
  | .cmpEqF32 x1 => Sys2Proof.Machine.execCmpEqF32 x1 s
  | .cmpLtF32 x1 => Sys2Proof.Machine.execCmpLtF32 x1 s
  | .cmpLeF32 x1 => Sys2Proof.Machine.execCmpLeF32 x1 s
  | .addF16x2 x1 => Sys2Proof.Machine.execAddF16x2 x1 s
  | .subF16x2 x1 => Sys2Proof.Machine.execSubF16x2 x1 s
  | .mulF16x2 x1 => Sys2Proof.Machine.execMulF16x2 x1 s
  | .minF16x2 x1 => Sys2Proof.Machine.execMinF16x2 x1 s
  | .maxF16x2 x1 => Sys2Proof.Machine.execMaxF16x2 x1 s
  | .addBf16x2 x1 => Sys2Proof.Machine.execAddBf16x2 x1 s
  | .subBf16x2 x1 => Sys2Proof.Machine.execSubBf16x2 x1 s
  | .mulBf16x2 x1 => Sys2Proof.Machine.execMulBf16x2 x1 s
  | .minBf16x2 x1 => Sys2Proof.Machine.execMinBf16x2 x1 s
  | .maxBf16x2 x1 => Sys2Proof.Machine.execMaxBf16x2 x1 s
  | .classF32 x1 => Sys2Proof.Machine.execClassF32 x1 s
  | .rcpF32 x1 => Sys2Proof.Machine.execRcpF32 x1 s
  | .rsqF32 x1 => Sys2Proof.Machine.execRsqF32 x1 s
  | .sqrtF32 x1 => Sys2Proof.Machine.execSqrtF32 x1 s
  | .ex2F32 x1 => Sys2Proof.Machine.execEx2F32 x1 s
  | .lg2F32 x1 => Sys2Proof.Machine.execLg2F32 x1 s
  | .sinF32 x1 => Sys2Proof.Machine.execSinF32 x1 s
  | .cosF32 x1 => Sys2Proof.Machine.execCosF32 x1 s
  | .tanhF32 x1 => Sys2Proof.Machine.execTanhF32 x1 s
  | .cvtF32S32 x1 => Sys2Proof.Machine.execCvtF32S32 x1 s
  | .cvtS32F32 x1 => Sys2Proof.Machine.execCvtS32F32 x1 s
  | .cvtF32Z32 x1 => Sys2Proof.Machine.execCvtF32Z32 x1 s
  | .cvtZ32F32 x1 => Sys2Proof.Machine.execCvtZ32F32 x1 s
  | .cvtF16x2F32 x1 => Sys2Proof.Machine.execCvtF16x2F32 x1 s
  | .cvtBf16x2F32 x1 => Sys2Proof.Machine.execCvtBf16x2F32 x1 s
  | .pand x1 => Sys2Proof.Machine.execPand x1 s
  | .por x1 => Sys2Proof.Machine.execPor x1 s
  | .pxor x1 => Sys2Proof.Machine.execPxor x1 s
  | .pandn x1 => Sys2Proof.Machine.execPandn x1 s
  | .madI32 x1 => Sys2Proof.Machine.execMadI32 x1 s
  | .mulhMadS32 x1 => Sys2Proof.Machine.execMulhMadS32 x1 s
  | .fshRB32 x1 => Sys2Proof.Machine.execFshRB32 x1 s
  | .fshLB32 x1 => Sys2Proof.Machine.execFshLB32 x1 s
  | .bfeZ32 x1 => Sys2Proof.Machine.execBfeZ32 x1 s
  | .bfeS32 x1 => Sys2Proof.Machine.execBfeS32 x1 s
  | .bfiB32 x1 => Sys2Proof.Machine.execBfiB32 x1 s
  | .selB32 x1 => Sys2Proof.Machine.execSelB32 x1 s
  | .dot4S8 x1 => Sys2Proof.Machine.execDot4S8 x1 s
  | .dot4Z8 x1 => Sys2Proof.Machine.execDot4Z8 x1 s
  | .dot2S16 x1 => Sys2Proof.Machine.execDot2S16 x1 s
  | .dot2Z16 x1 => Sys2Proof.Machine.execDot2Z16 x1 s
  | .cmpI32 x1 => Sys2Proof.Machine.execCmpI32 x1 s
  | .fmaF32 x1 => Sys2Proof.Machine.execFmaF32 x1 s
  | .cmpF32 x1 => Sys2Proof.Machine.execCmpF32 x1 s
  | .rndF32 x1 => Sys2Proof.Machine.execRndF32 x1 s
  | .fmaF16x2 x1 => Sys2Proof.Machine.execFmaF16x2 x1 s
  | .fmaBf16x2 x1 => Sys2Proof.Machine.execFmaBf16x2 x1 s
  | .cmpF16x2 x1 => Sys2Proof.Machine.execCmpF16x2 x1 s
  | .cmpBf16x2 x1 => Sys2Proof.Machine.execCmpBf16x2 x1 s
  | .rndF16x2 x1 => Sys2Proof.Machine.execRndF16x2 x1 s
  | .rndBf16x2 x1 => Sys2Proof.Machine.execRndBf16x2 x1 s
  | .cvt x1 => Sys2Proof.Machine.execCvt x1 s
  | .qpack x1 => Sys2Proof.Machine.execQpack x1 s
  | .qpackScale x1 => Sys2Proof.Machine.execQpackScale x1 s
  | .qunpkF32 x1 => Sys2Proof.Machine.execQunpkF32 x1 s
  | .voteAny x1 => Sys2Proof.Machine.execVoteAny x1 s
  | .voteAll x1 => Sys2Proof.Machine.execVoteAll x1 s
  | .ballot x1 => Sys2Proof.Machine.execBallot x1 s
  | .firstThread x1 => Sys2Proof.Machine.execFirstThread x1 s
  | .smpl x1 => Sys2Proof.Machine.execSmpl x1 s
  | .randB32 x1 => Sys2Proof.Machine.execRandB32 x1 s
  | .randCoF32 x1 => Sys2Proof.Machine.execRandCoF32 x1 s
  | .randOcF32 x1 => Sys2Proof.Machine.execRandOcF32 x1 s
  | .randV1v2 x1 => Sys2Proof.Machine.execRandV1v2 x1 s
  | .ldLane x1 => Sys2Proof.Machine.execLdLane x1 s
  | .ldVer x1 => Sys2Proof.Machine.execLdVer x1 s
  | .stLane x1 => Sys2Proof.Machine.execStLane x1 s
  | .atomLane x1 => Sys2Proof.Machine.execAtomLane x1 s
  | .casLane x1 => Sys2Proof.Machine.execCasLane x1 s
  | .ll x1 => Sys2Proof.Machine.execLl x1 s
  | .sc x1 => Sys2Proof.Machine.execSc x1 s
  | .bra x1 => Sys2Proof.Machine.execBra x1 s
  | .brx x1 => Sys2Proof.Machine.execBrx x1 s
  | .lend x1 => Sys2Proof.Machine.execLend x1 s
  | .exitLane x1 => Sys2Proof.Machine.execExitLane x1 s
  | .prefL1Lane x1 => Sys2Proof.Machine.execPrefL1Lane x1 s
  | .prefSlLane x1 => Sys2Proof.Machine.execPrefSlLane x1 s
  | .prefTrLane x1 => Sys2Proof.Machine.execPrefTrLane x1 s
  | .shintSkipLane x1 => Sys2Proof.Machine.execShintSkipLane x1 s
  | .lanePairedWord x1 x2 => Sys2Proof.Machine.execLanePairedWord x1 x2 s
  | .issueSelect x1 x2 => Sys2Proof.Machine.execIssueSelect x1 x2 s
  | .grantWindow x1 => Sys2Proof.Machine.execGrantWindow x1 s
  | .issueBoost x1 x2 => Sys2Proof.Machine.execIssueBoost x1 x2 s
  | .pathSwitch x1 x2 => Sys2Proof.Machine.execPathSwitch x1 x2 s
  | .pauseExpiry x1 x2 => Sys2Proof.Machine.execPauseExpiry x1 x2 s
  | .waitlnTimeout x1 x2 => Sys2Proof.Machine.execWaitlnTimeout x1 x2 s
  | .loadValueReturn x1 x2 => Sys2Proof.Machine.execLoadValueReturn x1 x2 s
  | .loadJudgedLong x1 x2 => Sys2Proof.Machine.execLoadJudgedLong x1 x2 s
  | .schussEntry x1 x2 x3 => Sys2Proof.Machine.execSchussEntry x1 x2 x3 s
  | .schussBudgetExpiry x1 x2 => Sys2Proof.Machine.execSchussBudgetExpiry x1 x2 s
  | .asyncUncorrectableDelivery x1 x2 => Sys2Proof.Machine.execAsyncUncorrectableDelivery x1 x2 s
  | .spawnTimerExpiry x1 x2 => Sys2Proof.Machine.execSpawnTimerExpiry x1 x2 s
  | .spawnBinLaunch x1 x2 => Sys2Proof.Machine.execSpawnBinLaunch x1 x2 s
  | .teamPlacement x1 x2 x3 x4 => Sys2Proof.Machine.execTeamPlacement x1 x2 x3 x4 s
  | .teamRetirement x1 => Sys2Proof.Machine.execTeamRetirement x1 s
  | .gridLeasingComplete x1 x2 => Sys2Proof.Machine.execGridLeasingComplete x1 x2 s
  | .gridRetirement x1 x2 => Sys2Proof.Machine.execGridRetirement x1 x2 s
  | .matrixCommandStart x1 => Sys2Proof.Machine.execMatrixCommandStart x1 s
  | .matrixCommandComplete x1 x2 => Sys2Proof.Machine.execMatrixCommandComplete x1 x2 s
  | .copyComplete x1 x2 x3 => Sys2Proof.Machine.execCopyComplete x1 x2 x3 s
  | .faultRecordWritten x1 => Sys2Proof.Machine.execFaultRecordWritten x1 s
  | .collectiveMeet x1 x2 => Sys2Proof.Machine.execCollectiveMeet x1 x2 s
  | .messageArrival x1 => Sys2Proof.Machine.execMessageArrival x1 s
  | .messageRetry x1 => Sys2Proof.Machine.execMessageRetry x1 s
  | .messageDrop x1 => Sys2Proof.Machine.execMessageDrop x1 s
  | .semaphoreIncrement x1 => Sys2Proof.Machine.execSemaphoreIncrement x1 s
  | .semwaitListRetry x1 x2 => Sys2Proof.Machine.execSemwaitListRetry x1 x2 s
  | .noonRelease x1 x2 => Sys2Proof.Machine.execNoonRelease x1 x2 s
  | .routerHomeBoundRead x1 => Sys2Proof.Machine.execRouterHomeBoundRead x1 s
  | .routerSteeredRead x1 => Sys2Proof.Machine.execRouterSteeredRead x1 s
  | .routerReadReply x1 => Sys2Proof.Machine.execRouterReadReply x1 s
  | .routerWriteRequest x1 => Sys2Proof.Machine.execRouterWriteRequest x1 s
  | .routerUpgrade x1 => Sys2Proof.Machine.execRouterUpgrade x1 s
  | .routerInvalidation x1 => Sys2Proof.Machine.execRouterInvalidation x1 s
  | .routerCut x1 => Sys2Proof.Machine.execRouterCut x1 s
  | .routerAck x1 => Sys2Proof.Machine.execRouterAck x1 s
  | .routerDataAck x1 => Sys2Proof.Machine.execRouterDataAck x1 s
  | .routerPrune x1 => Sys2Proof.Machine.execRouterPrune x1 s
  | .routerGrant x1 => Sys2Proof.Machine.execRouterGrant x1 s
  | .anchorWriteBack x1 => Sys2Proof.Machine.execAnchorWriteBack x1 s
  | .anchorAtomic x1 => Sys2Proof.Machine.execAnchorAtomic x1 s
  | .l1SteeredRead x1 => Sys2Proof.Machine.execL1SteeredRead x1 s
  | .l1Invalidation x1 => Sys2Proof.Machine.execL1Invalidation x1 s
  | .requesterFill x1 => Sys2Proof.Machine.execRequesterFill x1 s
  | .writerGrant x1 => Sys2Proof.Machine.execWriterGrant x1 s
  | .endToEndRetransmission x1 => Sys2Proof.Machine.execEndToEndRetransmission x1 s
  | .hostCxlMemRead x1 x2 x3 => Sys2Proof.Machine.execHostCxlMemRead x1 x2 x3 s
  | .hostCxlMemWrite x1 x2 x3 => Sys2Proof.Machine.execHostCxlMemWrite x1 x2 x3 s
  | .hostSnoop x1 => Sys2Proof.Machine.execHostSnoop x1 s
  | .hostLineResponse x1 x2 => Sys2Proof.Machine.execHostLineResponse x1 x2 s
  | .remotePanelRequest x1 x2 x3 x4 => Sys2Proof.Machine.execRemotePanelRequest x1 x2 x3 x4 s
  | .remotePanelRecall x1 x2 => Sys2Proof.Machine.execRemotePanelRecall x1 x2 s
  | .remoteTileResponse x1 x2 x3 x4 => Sys2Proof.Machine.execRemoteTileResponse x1 x2 x3 x4 s
  | .translationWalkComplete x1 => Sys2Proof.Machine.execTranslationWalkComplete x1 s
  | .translationInvalidation x1 x2 x3 x4 => Sys2Proof.Machine.execTranslationInvalidation x1 x2 x3 x4 s
  | .shootdown x1 x2 x3 => Sys2Proof.Machine.execShootdown x1 x2 x3 s
  | .shootdownAck x1 x2 x3 => Sys2Proof.Machine.execShootdownAck x1 x2 x3 s
  | .migrate x1 x2 x3 x4 => Sys2Proof.Machine.execMigrate x1 x2 x3 x4 s
  | .migrationBackgroundPull x1 x2 => Sys2Proof.Machine.execMigrationBackgroundPull x1 x2 s
  | .revoke x1 x2 x3 x4 => Sys2Proof.Machine.execRevoke x1 x2 x3 x4 s
  | .regrant x1 x2 x3 x4 => Sys2Proof.Machine.execRegrant x1 x2 x3 x4 s
  | .leaseServiced x1 x2 x3 => Sys2Proof.Machine.execLeaseServiced x1 x2 x3 s
  | .leaseUnserviceable x1 x2 x3 => Sys2Proof.Machine.execLeaseUnserviceable x1 x2 x3 s
  | .mgmtLaunch x1 x2 x3 x4 => Sys2Proof.Machine.execMgmtLaunch x1 x2 x3 x4 s
  | .poolMove x1 x2 => Sys2Proof.Machine.execPoolMove x1 x2 s
  | .hopStopBegin x1 => Sys2Proof.Machine.execHopStopBegin x1 s
  | .hopStopEnd x1 => Sys2Proof.Machine.execHopStopEnd x1 s
  | .hopRetry x1 => Sys2Proof.Machine.execHopRetry x1 s
  | .stepBoundary x1 => Sys2Proof.Machine.execStepBoundary x1 s
  | .droopDetect x1 => Sys2Proof.Machine.execDroopDetect x1 s
  | .droopClear x1 => Sys2Proof.Machine.execDroopClear x1 s
  | .thermalSample x1 => Sys2Proof.Machine.execThermalSample x1 s
  | .preempt x1 x2 x3 => Sys2Proof.Machine.execPreempt x1 x2 x3 s
  | .preemptComplete x1 x2 x3 => Sys2Proof.Machine.execPreemptComplete x1 x2 x3 s
  | .restore x1 x2 x3 x4 => Sys2Proof.Machine.execRestore x1 x2 x3 x4 s
  | .selfTestStart x1 x2 x3 => Sys2Proof.Machine.execSelfTestStart x1 x2 x3 s
  | .selfTestComplete x1 x2 => Sys2Proof.Machine.execSelfTestComplete x1 x2 s
  | .linkCrcRetry x1 => Sys2Proof.Machine.execLinkCrcRetry x1 s
  | .dieReset x1 => Sys2Proof.Machine.execDieReset x1 s
  | .dieResetForce x1 => Sys2Proof.Machine.execDieResetForce x1 s
  | .deviceStart x1 => Sys2Proof.Machine.execDeviceStart x1 s
  | .partitionEnable x1 x2 => Sys2Proof.Machine.execPartitionEnable x1 x2 s
  | .partitionDisable x1 => Sys2Proof.Machine.execPartitionDisable x1 s
  | .scrubComplete x1 => Sys2Proof.Machine.execScrubComplete x1 s
  | .partedgeWrite x1 x2 => Sys2Proof.Machine.execPartedgeWrite x1 x2 s
  | .panapWrite x1 x2 x3 => Sys2Proof.Machine.execPanapWrite x1 x2 x3 s
  | .pcwaysWrite x1 x2 => Sys2Proof.Machine.execPcwaysWrite x1 x2 s
  | .pcvalWrite x1 x2 => Sys2Proof.Machine.execPcvalWrite x1 x2 s
  | .nbctlArm x1 x2 x3 => Sys2Proof.Machine.execNbctlArm x1 x2 x3 s
  | .fqcfgWrite x1 x2 => Sys2Proof.Machine.execFqcfgWrite x1 x2 s
  | .fqheadWrite x1 x2 => Sys2Proof.Machine.execFqheadWrite x1 x2 s
  | .cfgrantGo x1 x2 => Sys2Proof.Machine.execCfgrantGo x1 x2 s
  | .featenWrite x1 => Sys2Proof.Machine.execFeatenWrite x1 s
  | .curfewStop x1 => Sys2Proof.Machine.execCurfewStop x1 s
  | .watchpointReport x1 x2 x3 x4 x5 => Sys2Proof.Machine.execWatchpointReport x1 x2 x3 x4 x5 s
  | .mgmtRegisterWrite x1 x2 => Sys2Proof.Machine.execMgmtRegisterWrite x1 x2 s
  | .getVersion x1 => Sys2Proof.Machine.execGetVersion x1 s
  | .getCapabilities x1 => Sys2Proof.Machine.execGetCapabilities x1 s
  | .negotiateAlgorithms x1 x2 => Sys2Proof.Machine.execNegotiateAlgorithms x1 x2 s
  | .getDigests x1 => Sys2Proof.Machine.execGetDigests x1 s
  | .getCertificate x1 x2 => Sys2Proof.Machine.execGetCertificate x1 x2 s
  | .challenge x1 x2 => Sys2Proof.Machine.execChallenge x1 x2 s
  | .getMeasurements x1 x2 x3 x4 => Sys2Proof.Machine.execGetMeasurements x1 x2 x3 x4 s
  | .keyExchange x1 x2 => Sys2Proof.Machine.execKeyExchange x1 x2 s
  | .finishSession x1 x2 => Sys2Proof.Machine.execFinishSession x1 x2 s
  | .heartbeat x1 => Sys2Proof.Machine.execHeartbeat x1 s
  | .keyUpdate x1 => Sys2Proof.Machine.execKeyUpdate x1 s
  | .endSession x1 => Sys2Proof.Machine.execEndSession x1 s
  | .bindSession x1 x2 => Sys2Proof.Machine.execBindSession x1 x2 s
  | .keyset x1 x2 x3 => Sys2Proof.Machine.execKeyset x1 x2 x3 s
  | .keyclr x1 x2 => Sys2Proof.Machine.execKeyclr x1 x2 s
  | .illegalInstruction x1 x2 => Sys2Proof.Machine.execIllegalInstruction x1 x2 s
  | .unassignedLaneHint x1 x2 => Sys2Proof.Machine.execUnassignedLaneHint x1 x2 s
  | .taskEnd x1 x2 => Sys2Proof.Machine.execTaskEnd x1 x2 s
  | .copyAccessFault x1 x2 => Sys2Proof.Machine.execCopyAccessFault x1 x2 s
  | .partfarWrite x1 x2 => Sys2Proof.Machine.execPartfarWrite x1 x2 s
  | .ctxareaWrite x1 x2 => Sys2Proof.Machine.execCtxareaWrite x1 x2 s

end Sys2Proof.Machine
end

