-- ==== Sys2Proof/Machine/Sched.lean ====
section
/-! DEFINITION. Turns: a stream issues its next word, and what moves when the agenda is empty (log 1). -/

namespace Sys2Proof.Machine

open Sys2Proof

/-! ## Issuing a word -/

/-- Whether the lane stream of a group went on: its word did not wait. -/
def laneMoved (s : State) (x : Ctx) : Bool :=
  match groupOf s x.core x.gi with
  | some g => g.lane.lpc != x.g.lane.lpc || g.lane.running != x.g.lane.running || g.lane.stack != x.g.lane.stack
  | none => false

/-- Whether the window's grants do not cover a lane word that went on (R341). -/
def rationed (s t : State) (x : Ctx) (i : Instr) : Bool :=
  x.lane && laneMoved t x && decide ((getCore s x.core).winLeft < grantsNeeded x i)

/-- What issuing an instruction adds to its meaning: the bank reads of a lane word are charged (R341), a scalar instruction takes its
scheduler's cycle (R334), and words it replaced leave the list of uncorrectable ones (R411). -/
def afterIssue (s : State) (x : Ctx) (i : Instr) : State :=
  let s1 := if !x.lane then modCore s x.core fun k => { k with scalarBusy := s.now + coreDiv s x.core }
    else if laneMoved s x then chargeLane s x i else s
  mendAfter s1 x i

/-- Whether a stream's scheduler has no cycle for it now: another scalar instruction of the core has this one, or a lane word holds the
lane scheduler or gathers its reads (R66, R334, R341). -/
def schedulerHeld (s : State) (core group : Nat) (lane : Bool) : Bool :=
  let k := getCore s core
  if lane then decide (s.now < k.laneBusy) || (match gathering s core (readyGroups s core true) with | some g => g != group | none => false)
  else decide (s.now < k.scalarBusy)

/-- Whether a word fails the decode checks of R76, as it finds itself when its group has a handler: they come before every other check.
LGO, LJOIN and TRET are illegal by the mode alone (R395, R396). -/
def decodeFaulted (s : State) (x : Ctx) (i : Instr) : Bool :=
  match i with
  | .lgo _ | .ljoin => x.g.trap.h
  | .tret => !x.g.trap.h
  | _ =>
    let s1 := putG s x { x.g with episode := none, trap := { x.g.trap with tvec := 4, h := false } }
    match exec i s1 with
    | .next t => (match groupOf t x.core x.gi with
      | some g => g.trap.h && decide (1 ≤ g.trap.tcause.toNat % 256) && decide (g.trap.tcause.toNat % 256 ≤ 3)
      | none => false)
    | _ => false

/-- An instruction issued by a stream. One that reads a listed uncorrectable word raises its fault and does nothing (R411), unless it
fails a decode check first (R76). A lane
word that would go on but has not gathered its reads gathers what the window still grants and is issued again (R341, R342). -/
def runInstr (s : State) (x : Ctx) (i : Instr) : Host.Outcome State Fault Refusal :=
  if readsBad x i && !decodeFaulted s x i then .next (raise s x (badFault x i (laneBad x (laneUse i))))
  else match exec i s with
    | .next t => .next (if rationed s t x i then gatherLane s x else afterIssue t x i)
    | o => o

/-- A stream issues: the word is fetched with its grid's version, decoded and executed. A stream that may not issue does
nothing. `bad`: the word is met with an uncorrectable error in what it reads, in every thread it reads for, or in its fetch (R411).
(DESIGN CHOICE, log 1; DEDUCED, log 35.) -/
def issue (s : State) (core group : Nat) (lane bad : Bool) : Host.Outcome State Fault Refusal :=
  let s1 := { s with cur := { core := core, group := group, lane := lane } }
  match issuable s1 with
  | none => .next s
  | some x =>
    if fetchMoving s1 x || schedulerHeld s core group lane then .next s
    else match fetchWord s1 x with
      | .fault f => .next (raise s1 x (if bad then { code := 0x12 } else f))
      | .illegal slot => .next (raise s1 x (if bad then { code := 0x12 } else { code := 0x01, slot := slot }))
      | .instr i => if bad && !isPref i && !decodeFaulted s1 x i then .next (raise s1 x (badFault x i (laneReads x (laneUse i)).2)) else runInstr s1 x i

/-! ## What moves when the agenda is empty -/

abbrev Move := State → Host.Outcome State Fault Refusal

/-- The step that handles message i where it stands. -/
def netMove (s : State) (i : Nat) : Move :=
  match s.net[i]? with
  | none => fun s => .next s
  | some m =>
    match m.loc, m.kind with
    | .router .., .homeRead => execRouterHomeBoundRead i
    | .router .., .steered => execRouterSteeredRead i
    | .router .., .reply => execRouterReadReply i
    | .router .., .writeReq | .router .., .opReq => execRouterWriteRequest i
    | .router .., .upgrade => execRouterUpgrade i
    | .router .., .inval => execRouterInvalidation i
    | .router .., .cut => execRouterCut i
    | .router .., .ack => execRouterAck i
    | .router .., .dataAck => execRouterDataAck i
    | .router .., .prune => execRouterPrune i
    | .router .., .grant | .router .., .opResp | .router .., .written => execRouterGrant i
    | .router .., .writeBack => execAnchorWriteBack i
    | .site _, .steered => execL1SteeredRead i
    | .site _, .inval | .site _, .cut => execL1Invalidation i
    | .site _, .reply => execRequesterFill i
    | .site _, .grant | .site _, .opResp | .site _, .written => execWriterGrant i
    | .site _, _ => fun s => .next s

/-- The steps of one core that may be due. -/
def coreMoves (c : Nat) (k : Core) : List Move :=
  (k.ops.map fun o => execLoadValueReturn c o.id) ++ (k.ops.map fun o => execLoadJudgedLong c o.id) ++
  (match k.team with
  | none => []
  | some t =>
    [execMatrixCommandStart c, execMatrixCommandComplete c 4, execGrantWindow c] ++
    (t.copies.flatMap fun q => [execCopyComplete c q.id 4, execCopyAccessFault c q.id]) ++
    ((mkeys t.bins).flatMap fun b => [execSpawnTimerExpiry c b, execSpawnBinLaunch c b]) ++
    ((mkeys t.groups).flatMap fun g =>
      [execPauseExpiry c g, execWaitlnTimeout c g, execPathSwitch c g, execSchussBudgetExpiry c g, execSchussEntry c g false,
       execSchussEntry c g true, execIssueBoost c g, execSemwaitListRetry c g]) ++
    (t.asyncErr.map fun q => execAsyncUncorrectableDelivery c q.group) ++
    [execTeamRetirement c, execPreemptComplete t.part t.grid t.index])

/-- The core a waiting grid's next team goes to: the lowest that fits. -/
def placeChoice (s : State) (part : Nat) (g : Grid) : Nat :=
  (((compDies (getPart s part)).flatMap dieCores).find? fun c => placeFits s part g c).getD 8192

/-- The steps of one partition that may be due. -/
def partMoves (s : State) (p : Nat) (v : Partition) : List Move :=
  [execFaultRecordWritten p, writeTrace p, grantGoesOn p, execCurfewStop p, execScrubComplete p] ++
  (v.saved.filterMap fun q => q.heldFor.bind fun u => if s.testing.contains u then none else some (execSelfTestComplete u .passed)) ++
  (v.grids.flatMap fun g => match g.state with
    | .leasing => [execGridLeasingComplete p g.seq]
    | .placing => [execTeamPlacement p g.seq g.nextTeam (placeChoice s p g), execGridRetirement p g.seq]
    | .running | .ended => [execGridRetirement p g.seq]
    | .retired => []) ++
  ((mkeys v.noon).map fun k => execNoonRelease p k) ++
  (v.shots.flatMap fun h => (h.toVisit.map fun c => execShootdown p h.id c) ++ (h.toAck.map fun q => execShootdownAck p h.id q.1)) ++
  ((List.range v.migs.length).map fun m => execMigrationBackgroundPull p m)

/-- The keys of the sites that are under reset, or are to be. -/
def resetKeys (s : State) : List Nat :=
  s.testing.foldl (fun l u => match u with | .router site => addNew l (siteKey site) | _ => l)
    ((s.dies.filter fun q => q.2.asked || q.2.reset.isSome).map (·.1))

/-- Everything under way that may move, in the order in which it is tried. (DESIGN CHOICE, log 7.) -/
def movesDue (s : State) : List Move :=
  ((List.range s.net.length).map (netMove s)) ++ (s.anchors.map fun a => execAnchorAtomic a.line) ++
  ((List.range s.incs.length).map execSemaphoreIncrement) ++
  (s.cores.flatMap fun q => coreMoves q.1 q.2) ++
  ((List.range s.msgs.length).flatMap fun i => [execMessageArrival i, execMessageRetry i, execMessageDrop i]) ++
  (s.cores.flatMap fun q => match q.2.team with | some t => t.colls.map fun c => execCollectiveMeet t.part c.id | none => []) ++
  ((List.range s.walks.length).map execTranslationWalkComplete) ++
  (s.parts.flatMap fun q => partMoves s q.1 q.2) ++
  ((List.range s.outstanding.length).map execEndToEndRetransmission) ++
  ((mkeys s.regions).map execStepBoundary) ++
  (s.wpHits.map fun h => execWatchpointReport h.part h.wp h.write h.cls h.region) ++
  ((resetKeys s).flatMap fun k => [resetGoesOn k, execDieResetForce k]) ++
  (s.dies.flatMap fun q => match q.2.hop with
    | some _ => [execHopStopBegin q.1, execHopStopEnd q.1, execHopRetry q.1]
    | none => [])

/-- The first of some steps that changes the state. -/
def firstMove (s : State) (l : List Move) : Option State :=
  l.findSome? fun f => match f s with
    | .next t => if t = s then none else some t
    | _ => none

/-- The schedulers of the cores that hold teams take turns. (DESIGN CHOICE, log 7.) -/
def selectNext (s : State) : Host.Outcome State Fault Refusal :=
  let cs := mkeys (s.cores.filter fun q => q.2.team.isSome)
  let n := s.cursor % (2 * cs.length)
  match cs[n / 2]? with
  | some c => execIssueSelect c (n % 2 == 1) { s with cursor := s.cursor + 1 }
  | none => .next s

/-- A turn with an empty agenda: four link cycles pass; then the first thing under way that can move does, and with none a
scheduler selects. (DESIGN CHOICE, log 4; DESIGN CHOICE, log 7.) -/
def autoTurn (s : State) : Host.Outcome State Fault Refusal :=
  let s1 := { s with now := s.now + 4 }
  match firstMove s1 (movesDue s1) with
  | some t => .next t
  | none => selectNext s1

end Sys2Proof.Machine
end

