-- ==== Sys2Proof/Machine/Step.lean ====
section
/-! DEFINITION. One step of the machine, and the placing of a word where the next step fetches it. -/

namespace Sys2Proof.Machine

open Sys2Proof

/-- One step: the next turn of the agenda takes place (log 1). A word that is issued is fetched, decoded and given to `exec`;
a step of the hardware or of the outside world is given to `exec` as it stands. (DESIGN CHOICE, log 1; DESIGN CHOICE, log 9.) -/
def step (s : State) : Host.Outcome State Fault Refusal :=
  match s.agenda with
  | [] => autoTurn s
  | t :: rest =>
    let s1 := { s with agenda := rest, now := s.now + t.dt }
    match t.who with
    | .event e => exec e s1
    | .issue c g lane bad => issue s1 c g lane bad

/-- The header of a kernel of one page whose scalar and lane sections both start at byte 64. -/
def probeHeader (version : Nat) : Header where
  version := version
  baseDemand := 64
  windowDemand := 0
  scalarOff := 64
  laneOff := 64
  constOff := 2048
  dataOff := 2048
  scalarSize := 4
  laneSize := 4
  dataSize := 0

/-- The group of the placed word: a launched group (R37), its lane stream running when the word is a lane word.
(DESIGN CHOICE, log 12.) -/
def probeGroup (lane : Bool) : Group where
  live := allThreads
  sregs := [(61, 0xFFFFFFFF#32), (62, 0xFFFFFFFF#32), (63, 0xFFFFFFFF#32)]
  spc := 0
  lane := { running := lane, started := lane, view := [(61, 0xFFFFFFFF#32), (62, 0xFFFFFFFF#32), (63, 0xFFFFFFFF#32)] }
  schussOn := false
  budget := 0
  age := 0

/-- The running grid of the placed word (DESIGN CHOICE, log 12). -/
def probeGrid (version : Nat) : Grid where
  seq := 0
  depth := 0
  parent := none
  task := 0
  pasid := 0
  image := 0
  hdr := probeHeader version
  entry := 0
  teams := 1
  groups := 1
  base := 64
  l1 := 0
  tiles := 8
  cls := .nominal
  prio := 0
  regions := 0xFFFF#16
  pair := false
  schuss := false
  budget := 0
  key := 0
  lpb := 0
  parentSem := none
  statusAt := none
  leases := []
  state := .running
  nextTeam := 1
  pinned := [0]

/-- Its one team, on core 0 (DESIGN CHOICE, log 12). -/
def probeTeam (lane : Bool) : Team where
  part := 0
  grid := 0
  index := 0
  base := 64
  l1 := 0
  tilesN := 8
  groups := [(0, probeGroup lane)]

/-- `s` with an instruction stored where the next step fetches: a grid of one team of one group on core 0, as a launch leaves
it, whose kernel of the version that assigns the word holds it at sPC 0 (a scalar word) or lPC 0 (a lane word), and a turn in
which that stream issues (log 12). (DEDUCED, log 10; DESIGN CHOICE, log 12.) -/
def State.withFetchWord (s : State) (nbits w : Nat) : State :=
  let lane := decide (32 < nbits)
  { s with
    agenda := [{ dt := 0, who := .issue 0 0 lane false }],
    mem := writeLE s.mem (memKey {} 64) (if lane then 12 else 4) w,
    dies := mput s.dies 0 {},
    cores := mput s.cores 0 { team := some (probeTeam lane) },
    parts := mput s.parts 0
      { grids := [probeGrid (tableVersion nbits w)], nextGrid := 1,
        pins := [{ pasid := 0, page := 0, frame := 0, w := false, refs := 1 }] } }

end Sys2Proof.Machine
end

