-- ==== Sys2Proof/Safety.lean ====
section
/-! DEFINITION. The terms in which claims are stated: what a safe run is, the invariant of memory, and what it means that an
instruction changes no more than it should. -/

namespace Sys2Proof

open Sys2Proof.Machine

/-- The invariant of the machine: memory keeps its canonical form, so that equal memories are equal data. -/
def Inv (s : State) : Prop := Memory.wf s.mem = true

/-- A safe step: it gives a next state. -/
def SafeStep (s : State) : Prop := ∃ t, step s = .next t

/-- Every byte of memory reads as before. -/
def SameMemory (s t : State) : Prop := ∀ a, readByte t.mem a = readByte s.mem a

/-- Every byte of memory outside `n` bytes from `a` reads as before. -/
def SameMemoryOutside (s t : State) (a n : Nat) : Prop := ∀ b, b < a ∨ a + n ≤ b → readByte t.mem b = readByte s.mem b

/-- Two states that differ at most in one group of one core. -/
def OnlyGroup (s t : State) (c gi : Nat) : Prop := ∃ g, t = setGroup s c gi g

/-- A group's registers and status but its scalar registers: predicates, vector registers, windows, the lane stream, the
floating-point status, the trap registers, the skip flag, the Schuss controls, reservations, arrivals and fences. -/
def SameButScalars (g h : Group) : Prop :=
  h.live = g.live ∧ h.preds = g.preds ∧ h.vregs = g.vregs ∧ h.windows = g.windows ∧ h.lane = g.lane ∧ h.fps = g.fps ∧
    h.trap = g.trap ∧ h.skip = g.skip ∧ h.schussOn = g.schussOn ∧ h.budget = g.budget ∧ h.resv = g.resv ∧
    h.arrived = g.arrived ∧ h.acquiring = g.acquiring ∧ h.fenceAt = g.fenceAt ∧ h.fences = g.fences ∧
    h.heard = g.heard ∧ h.born = g.born

/-- Every scalar register but those listed reads as before. -/
def SameScalars (g h : Group) (but : List Nat) : Prop := ∀ n, n ∉ but → rdS h n = rdS g n

/-- What a lane word leaves alone besides its destinations: the scalar stream and its registers, the trap registers, windows and
the Schuss controls. -/
def SameScalarStream (g h : Group) : Prop :=
  h.live = g.live ∧ h.sregs = g.sregs ∧ h.spc = g.spc ∧ h.windows = g.windows ∧ h.fps = g.fps ∧ h.trap = g.trap ∧
    h.schussOn = g.schussOn ∧ h.budget = g.budget ∧ h.arrived = g.arrived ∧ h.acquiring = g.acquiring ∧
    h.fenceAt = g.fenceAt ∧ h.fences = g.fences ∧ h.heard = g.heard ∧ h.born = g.born

end Sys2Proof
end

