-- ==== Sys2Proof/WellFormed.lean ====
section
/-! DEFINITION. Which instructions are well formed: the encoding rules a word must keep beyond its major opcode, form and
fixed bits (R57, R63, R67, R72 and the families' own rules). A word that is not well formed raises the illegal-instruction or
the illegal-pairing fault when it issues (R76). Steps without an encoding have no such rule. -/

namespace Sys2Proof

/-- The encoding rules of each instruction, in encoding version 3 (R54: the versions differ in which words they
assign). -/
def Instr.wf : Instr → Bool
  | .bfeZ _ _ w p => Machine.bitFieldOk w p
  | .bfeS _ _ w p => Machine.bitFieldOk w p
  | .bfi _ _ w p => Machine.bitFieldOk w p
  | .call a _ => Machine.linkOk a
  | .jmpr d _ _ => Machine.linkOk d
  | .mskN n => decide (n.toNat ≤ 96)
  | .ldScalar d a w x l _ c _ => Machine.ldOk d a w x l c
  | .stScalar d a w l _ c _ => Machine.stOk d a w l c
  | .atomScalar _ a _ c _ _ => Machine.atomOk a c
  | .casScalar d a b c _ w => Machine.casOk d a b c w
  | .fence t c m => Machine.fenceOk t c m
  | .waitln _ a _ => Machine.pairReg a
  | .waitlnV1 _ a _ => Machine.pairReg a
  | .cpy1d d _ => Machine.pairOrZero d
  | .cpy1dFt d _ => Machine.pairOrZero d
  | .cpy2d d _ => Machine.pairOrZero d
  | .cpyGather d _ => Machine.pairOrZero d
  | .cpySeal d _ => Machine.pairOrZero d
  | .cpyAon d _ => Machine.pairOrZero d
  | .cpyVer d _ => Machine.pairOrZero d
  | .cpyReplay d _ => Machine.pairOrZero d
  | .collRadd d _ t => Machine.pairOrZero d && decide (t.toNat ≤ 3)
  | .collBcast d _ => Machine.pairOrZero d
  | .collAgath d _ => Machine.pairOrZero d
  | .send d _ _ _ => Machine.pairOrZero d
  | .recvpost d _ _ => Machine.pairOrZero d
  | .recvtst d _ => Machine.pairReg d
  | .locHome _ a => Machine.pairReg a
  | .mma d a _ k _ _ _ => Machine.matOk d a true && k != 7
  | .mlb d a _ l _ => Machine.matOk d a (l == 0)
  | .mdrain d a _ _ _ _ _ => Machine.matOk d a false
  | .acccpySt d a _ _ _ => Machine.matOk d a false
  | .acccpyLd d a _ _ _ => Machine.matOk d a false
  | .seminc _ a c => Machine.semOk a c
  | .semwait _ a c => Machine.semOk a c
  | .semtst _ a c => Machine.semOk a c
  | .bararr b => Machine.barOk b
  | .barwait _ b => Machine.barOk b
  | .launch _ a => Machine.pairReg a
  | .sysrd d n => Machine.sysOk d n
  | .syswr d n => Machine.sysOk d n
  | .dclk d => Machine.pairOrZero d
  | .nopLane w => Machine.aluLegal .nopLane w
  | .mov w => Machine.aluLegal .mov w
  | .tidx w => Machine.aluLegal .tidx w
  | .addI32 w => Machine.aluLegal .addI32 w
  | .subI32 w => Machine.aluLegal .subI32 w
  | .mulI32 w => Machine.aluLegal .mulI32 w
  | .mulhS32 w => Machine.aluLegal .mulhS32 w
  | .mulhZ32 w => Machine.aluLegal .mulhZ32 w
  | .minS32 w => Machine.aluLegal .minS32 w
  | .minZ32 w => Machine.aluLegal .minZ32 w
  | .maxS32 w => Machine.aluLegal .maxS32 w
  | .maxZ32 w => Machine.aluLegal .maxZ32 w
  | .absS32 w => Machine.aluLegal .absS32 w
  | .negS32 w => Machine.aluLegal .negS32 w
  | .andB32 w => Machine.aluLegal .andB32 w
  | .orB32 w => Machine.aluLegal .orB32 w
  | .xorB32 w => Machine.aluLegal .xorB32 w
  | .andnB32 w => Machine.aluLegal .andnB32 w
  | .notB32 w => Machine.aluLegal .notB32 w
  | .shlB32 w => Machine.aluLegal .shlB32 w
  | .shrZ32 w => Machine.aluLegal .shrZ32 w
  | .shrS32 w => Machine.aluLegal .shrS32 w
  | .popcB32 w => Machine.aluLegal .popcB32 w
  | .clzB32 w => Machine.aluLegal .clzB32 w
  | .brevB32 w => Machine.aluLegal .brevB32 w
  | .cmpEqI32 w => Machine.aluLegal .cmpEqI32 w
  | .cmpNeI32 w => Machine.aluLegal .cmpNeI32 w
  | .cmpLtS32 w => Machine.aluLegal .cmpLtS32 w
  | .cmpLeS32 w => Machine.aluLegal .cmpLeS32 w
  | .cmpLtZ32 w => Machine.aluLegal .cmpLtZ32 w
  | .cmpLeZ32 w => Machine.aluLegal .cmpLeZ32 w
  | .addF32 w => Machine.aluLegal .addF32 w
  | .subF32 w => Machine.aluLegal .subF32 w
  | .mulF32 w => Machine.aluLegal .mulF32 w
  | .minF32 w => Machine.aluLegal .minF32 w
  | .maxF32 w => Machine.aluLegal .maxF32 w
  | .cmpEqF32 w => Machine.aluLegal .cmpEqF32 w
  | .cmpLtF32 w => Machine.aluLegal .cmpLtF32 w
  | .cmpLeF32 w => Machine.aluLegal .cmpLeF32 w
  | .addF16x2 w => Machine.aluLegal .addF16x2 w
  | .subF16x2 w => Machine.aluLegal .subF16x2 w
  | .mulF16x2 w => Machine.aluLegal .mulF16x2 w
  | .minF16x2 w => Machine.aluLegal .minF16x2 w
  | .maxF16x2 w => Machine.aluLegal .maxF16x2 w
  | .addBf16x2 w => Machine.aluLegal .addBf16x2 w
  | .subBf16x2 w => Machine.aluLegal .subBf16x2 w
  | .mulBf16x2 w => Machine.aluLegal .mulBf16x2 w
  | .minBf16x2 w => Machine.aluLegal .minBf16x2 w
  | .maxBf16x2 w => Machine.aluLegal .maxBf16x2 w
  | .classF32 w => Machine.aluLegal .classF32 w
  | .rcpF32 w => Machine.aluLegal .rcpF32 w
  | .rsqF32 w => Machine.aluLegal .rsqF32 w
  | .sqrtF32 w => Machine.aluLegal .sqrtF32 w
  | .ex2F32 w => Machine.aluLegal .ex2F32 w
  | .lg2F32 w => Machine.aluLegal .lg2F32 w
  | .sinF32 w => Machine.aluLegal .sinF32 w
  | .cosF32 w => Machine.aluLegal .cosF32 w
  | .tanhF32 w => Machine.aluLegal .tanhF32 w
  | .cvtF32S32 w => Machine.aluLegal .cvtF32S32 w
  | .cvtS32F32 w => Machine.aluLegal .cvtS32F32 w
  | .cvtF32Z32 w => Machine.aluLegal .cvtF32Z32 w
  | .cvtZ32F32 w => Machine.aluLegal .cvtZ32F32 w
  | .cvtF16x2F32 w => Machine.aluLegal .cvtF16x2F32 w
  | .cvtBf16x2F32 w => Machine.aluLegal .cvtBf16x2F32 w
  | .pand w => Machine.aluLegal .pand w
  | .por w => Machine.aluLegal .por w
  | .pxor w => Machine.aluLegal .pxor w
  | .pandn w => Machine.aluLegal .pandn w
  | .madI32 w => Machine.aluLegal .madI32 w
  | .mulhMadS32 w => Machine.aluLegal .mulhMadS32 w
  | .fshRB32 w => Machine.aluLegal .fshRB32 w && Machine.modIs w 0 1 0
  | .fshLB32 w => Machine.aluLegal .fshLB32 w && Machine.modIs w 0 1 1
  | .bfeZ32 w => Machine.aluLegal .bfeZ32 w
  | .bfeS32 w => Machine.aluLegal .bfeS32 w
  | .bfiB32 w => Machine.aluLegal .bfiB32 w
  | .selB32 w => Machine.aluLegal .selB32 w
  | .dot4S8 w => Machine.aluLegal .dot4S8 w
  | .dot4Z8 w => Machine.aluLegal .dot4Z8 w
  | .dot2S16 w => Machine.aluLegal .dot2S16 w
  | .dot2Z16 w => Machine.aluLegal .dot2Z16 w
  | .cmpI32 w => Machine.aluLegal .cmpI32 w
  | .fmaF32 w => Machine.aluLegal .fmaF32 w
  | .cmpF32 w => Machine.aluLegal .cmpF32 w
  | .rndF32 w => Machine.aluLegal .rndF32 w
  | .fmaF16x2 w => Machine.aluLegal .fmaF16x2 w
  | .fmaBf16x2 w => Machine.aluLegal .fmaBf16x2 w
  | .cmpF16x2 w => Machine.aluLegal .cmpF16x2 w
  | .cmpBf16x2 w => Machine.aluLegal .cmpBf16x2 w
  | .rndF16x2 w => Machine.aluLegal .rndF16x2 w
  | .rndBf16x2 w => Machine.aluLegal .rndBf16x2 w
  | .cvt w => Machine.aluLegal .cvt w
  | .qpack w => Machine.aluLegal .qpack w
  | .qpackScale w => Machine.aluLegal .qpackScale w && Machine.modIs w 8 4 8
  | .qunpkF32 w => Machine.aluLegal .qunpkF32 w
  | .voteAny w => Machine.aluLegal .voteAny w
  | .voteAll w => Machine.aluLegal .voteAll w
  | .ballot w => Machine.aluLegal .ballot w
  | .firstThread w => Machine.aluLegal .firstThread w
  | .smpl w => Machine.aluLegal .smpl w
  | .randB32 w => Machine.aluLegal .randB32 w && Machine.modIs w 0 2 0
  | .randCoF32 w => Machine.aluLegal .randCoF32 w && Machine.modIs w 0 2 1
  | .randOcF32 w => Machine.aluLegal .randOcF32 w && Machine.modIs w 0 2 2
  | .randV1v2 w => Machine.aluLegal .randV1v2 w
  | .ldLane w => Machine.memLegal .ld w && Machine.modIs w 10 1 0
  | .ldVer w => Machine.memLegal .ldVer w && Machine.modIs w 10 1 1
  | .stLane w => Machine.memLegal .st w
  | .atomLane w => Machine.memLegal .atom w
  | .casLane w => Machine.memLegal .cas w
  | .ll w => Machine.memLegal .ll w
  | .sc w => Machine.memLegal .sc w
  | .bra w => Machine.ctlLegal .bra w
  | .brx w => Machine.ctlLegal .brx w
  | .lend w => Machine.ctlLegal .lend w
  | .exitLane w => Machine.ctlLegal .exit w
  | .lanePairedWord a b => Machine.pairedOk 3 a b
  | .unassignedLaneHint op _ => Machine.hintOpOk op
  | .add .. | .sub .. | .andR .. | .orR .. | .xorR .. | .andn .. | .shl .. | .shrZ .. | .shrS .. | .rotr .. | .slt ..
  | .sltu .. | .seq .. | .sne .. | .minS .. | .minZ .. | .maxS .. | .maxZ .. | .mul .. | .mulhS .. | .mulhZ ..
  | .divS .. | .divZ .. | .remS .. | .remZ .. | .popc .. | .clz .. | .brev .. | .sel .. | .addi .. | .andi ..
  | .ori .. | .xori .. | .slti .. | .sltiu .. | .shli .. | .shriZ .. | .shriS .. | .rotri .. | .li .. | .liz ..
  | .lui .. | .lih .. | .beqz .. | .bnez .. | .bltz .. | .bgez .. | .br .. | .lgo .. | .ljoin | .mskLive
  | .exitScalar | .yield | .waitCounts .. | .pause .. | .pauseV1v2 .. | .locSelf .. | .locBand .. | .spawn ..
  | .joinc | .xacq .. | .xrel .. | .schussOff | .schussOn | .schussBud .. | .schussOffV2 | .schussOnV2
  | .schussBudV2 .. | .trap .. | .tret | .brk .. | .nopScalar .. | .prefL1 .. | .prefSl .. | .prefTr ..
  | .shintSkip .. | .prefL1Lane .. | .prefSlLane .. | .prefTrLane .. | .shintSkipLane .. | .issueSelect ..
  | .grantWindow .. | .issueBoost .. | .pathSwitch .. | .pauseExpiry .. | .waitlnTimeout .. | .loadValueReturn ..
  | .loadJudgedLong .. | .schussEntry .. | .schussBudgetExpiry .. | .asyncUncorrectableDelivery ..
  | .spawnTimerExpiry .. | .spawnBinLaunch .. | .teamPlacement .. | .teamRetirement .. | .gridLeasingComplete ..
  | .gridRetirement .. | .matrixCommandStart .. | .matrixCommandComplete .. | .copyComplete ..
  | .faultRecordWritten .. | .collectiveMeet .. | .messageArrival .. | .messageRetry .. | .messageDrop ..
  | .semaphoreIncrement .. | .semwaitListRetry .. | .noonRelease .. | .routerHomeBoundRead .. | .routerSteeredRead ..
  | .routerReadReply .. | .routerWriteRequest .. | .routerUpgrade .. | .routerInvalidation .. | .routerCut ..
  | .routerAck .. | .routerDataAck .. | .routerPrune .. | .routerGrant .. | .anchorWriteBack .. | .anchorAtomic ..
  | .l1SteeredRead .. | .l1Invalidation .. | .requesterFill .. | .writerGrant .. | .endToEndRetransmission ..
  | .hostCxlMemRead .. | .hostCxlMemWrite .. | .hostSnoop .. | .hostLineResponse .. | .remotePanelRequest ..
  | .remotePanelRecall .. | .remoteTileResponse .. | .translationWalkComplete .. | .translationInvalidation ..
  | .shootdown .. | .shootdownAck .. | .migrate .. | .migrationBackgroundPull .. | .revoke .. | .regrant ..
  | .leaseServiced .. | .leaseUnserviceable .. | .mgmtLaunch .. | .poolMove .. | .hopStopBegin .. | .hopStopEnd ..
  | .hopRetry .. | .stepBoundary .. | .droopDetect .. | .droopClear .. | .thermalSample .. | .preempt ..
  | .preemptComplete .. | .restore .. | .selfTestStart .. | .selfTestComplete .. | .linkCrcRetry .. | .dieReset ..
  | .dieResetForce .. | .deviceStart .. | .partitionEnable .. | .partitionDisable .. | .scrubComplete ..
  | .partedgeWrite .. | .panapWrite .. | .pcwaysWrite .. | .pcvalWrite .. | .nbctlArm .. | .fqcfgWrite ..
  | .fqheadWrite .. | .cfgrantGo .. | .featenWrite .. | .curfewStop .. | .watchpointReport .. | .mgmtRegisterWrite ..
  | .getVersion .. | .getCapabilities .. | .negotiateAlgorithms .. | .getDigests .. | .getCertificate ..
  | .challenge .. | .getMeasurements .. | .keyExchange .. | .finishSession .. | .heartbeat .. | .keyUpdate ..
  | .endSession .. | .bindSession .. | .keyset .. | .keyclr .. | .illegalInstruction ..
  | .taskEnd .. | .copyAccessFault .. | .partfarWrite .. | .ctxareaWrite .. => true

end Sys2Proof
end

