-- ==== Sys2Proof/Certificates/Slice0/Obligations.lean ====
section
/-! DEFINITION. The statements put to the provers. Each says what an instruction or a step of the machine does, in the terms of the
spec's numbered rules; helpers stand in the namespace Sys2Proof.Claims. -/

namespace Sys2Proof.Claims
end Sys2Proof.Claims

open Sys2Proof Sys2Proof.Machine Sys2Proof.Claims

/-! ## The scalar ALU (R104 - R110) -/

namespace Sys2Proof.Claims

/-- The operations of Table 5-1 with two sources, and the value each makes of sa = `x` and sb = `y` (R105, R106). -/
def aluTable (d a b : BitVec 6) (x y : Word) : List (Instr × Word) :=
  [(.add d a b, BitVec.ofNat 32 (x.toNat + y.toNat)),
   (.sub d a b, BitVec.ofInt 32 ((x.toNat : Int) - y.toNat)),
   (.andR d a b, x &&& y),
   (.orR d a b, x ||| y),
   (.xorR d a b, x ^^^ y),
   (.andn d a b, x &&& ~~~y),
   (.rotr d a b, x.rotateRight (y.toNat % 32)),
   (.slt d a b, if x.toInt < y.toInt then 1 else 0),
   (.sltu d a b, if x.toNat < y.toNat then 1 else 0),
   (.seq d a b, if x = y then 1 else 0),
   (.sne d a b, if x = y then 0 else 1),
   (.minS d a b, BitVec.ofInt 32 (min x.toInt y.toInt)),
   (.minZ d a b, BitVec.ofNat 32 (min x.toNat y.toNat)),
   (.maxS d a b, BitVec.ofInt 32 (max x.toInt y.toInt)),
   (.maxZ d a b, BitVec.ofNat 32 (max x.toNat y.toNat)),
   (.mul d a b, BitVec.ofNat 32 (x.toNat * y.toNat)),
   (.mulhS d a b, BitVec.ofInt 32 (x.toInt * y.toInt / 2 ^ 32)),
   (.mulhZ d a b, BitVec.ofNat 32 (x.toNat * y.toNat / 2 ^ 32))]

/-- Its shifts, divisions and remainders, defined for every operand (R106). -/
def shiftTable (d a b : BitVec 6) (x y : Word) : List (Instr × Word) :=
  [(.shl d a b, if 32 ≤ y.toNat then 0 else BitVec.ofNat 32 (x.toNat * 2 ^ y.toNat)),
   (.shrZ d a b, if 32 ≤ y.toNat then 0 else BitVec.ofNat 32 (x.toNat / 2 ^ y.toNat)),
   (.shrS d a b, if 32 ≤ y.toNat then (if x.msb then 0xFFFFFFFF#32 else 0) else BitVec.ofInt 32 (x.toInt / 2 ^ y.toNat)),
   (.divZ d a b, if y = 0 then 0xFFFFFFFF#32 else BitVec.ofNat 32 (x.toNat / y.toNat)),
   (.remZ d a b, if y = 0 then x else BitVec.ofNat 32 (x.toNat % y.toNat)),
   (.divS d a b, if y = 0 then (if x.toInt < 0 then 1 else 0xFFFFFFFF#32) else BitVec.ofInt 32 (x.toInt.tdiv y.toInt)),
   (.remS d a b, if y = 0 then x else BitVec.ofInt 32 (x.toInt.tmod y.toInt))]

/-- Its operations with one source (R105). -/
def unaryTable (d a : BitVec 6) (x : Word) : List (Instr × Word) :=
  [(.popc d a, BitVec.ofNat 32 ((List.range 32).countP fun i => x.getLsbD i)),
   (.clz d a, BitVec.ofNat 32 (((List.range 32).find? fun k => x.getLsbD (31 - k)).getD 32)),
   (.brev d a, x.reverse)]

/-- The forms with the sign-extended immediate `i` (R107). -/
def immTable (d a : BitVec 6) (i : BitVec 14) (x : Word) : List (Instr × Word) :=
  [(.addi d a i, BitVec.ofInt 32 (x.toInt + i.toInt)),
   (.andi d a i, x &&& BitVec.ofInt 32 i.toInt),
   (.ori d a i, x ||| BitVec.ofInt 32 i.toInt),
   (.xori d a i, x ^^^ BitVec.ofInt 32 i.toInt),
   (.slti d a i, if x.toInt < i.toInt then 1 else 0),
   (.sltiu d a i, if x.toNat < (BitVec.ofInt 32 i.toInt).toNat then 1 else 0)]

/-- The shifts by an immediate amount (R108). -/
def shiTable (d a : BitVec 6) (n : BitVec 5) (x : Word) : List (Instr × Word) :=
  [(.shli d a n, BitVec.ofNat 32 (x.toNat * 2 ^ n.toNat)),
   (.shriZ d a n, BitVec.ofNat 32 (x.toNat / 2 ^ n.toNat)),
   (.shriS d a n, BitVec.ofInt 32 (x.toInt / 2 ^ n.toNat)),
   (.rotri d a n, x.rotateRight n.toNat)]

/-- The loads of an immediate; `old` is sd (R109). -/
def liTable (d : BitVec 6) (i : BitVec 16) (old : Word) : List (Instr × Word) :=
  [(.li d i, BitVec.ofInt 32 i.toInt),
   (.liz d i, BitVec.ofNat 32 i.toNat),
   (.lui d i, BitVec.ofNat 32 (i.toNat * 2 ^ 16)),
   (.lih d i, BitVec.ofNat 32 (i.toNat * 2 ^ 16 + old.toNat % 2 ^ 16))]

/-- The extracts of a field of width `w` at position `p` (R110). -/
def bfeTable (d a w : BitVec 6) (p : BitVec 5) (x : Word) : List (Instr × Word) :=
  [(.bfeZ d a w p, (x.extractLsb' p.toNat w.toNat).setWidth 32),
   (.bfeS d a w p, (x.extractLsb' p.toNat w.toNat).signExtend 32)]

/-- The insert: bits p to p + w - 1 of sd become the low bits of sa (R110). -/
def bfiValue (w : BitVec 6) (p : BitVec 5) (old x : Word) : Word :=
  let hole : Word := (BitVec.allOnes w.toNat).setWidth 32 <<< p.toNat
  (old &&& ~~~hole) ||| ((x <<< p.toNat) &&& hole)

def fieldOk (w : BitVec 6) (p : BitVec 5) : Prop := 1 ≤ w.toNat ∧ p.toNat + w.toNat ≤ 32

/-- The scalar stream of `x` executes `i`: `d` receives `v` (nothing when it is s0, and `v` ANDed with the live mask when it is
one of s61 to s63), every other scalar register reads as before, and the stream goes on at the next word. -/
def ScalarWrites (s : State) (x : Ctx) (i : Instr) (d : Nat) (v : Word) : Prop :=
  ∃ t g, exec i s = .next t ∧ groupOf t x.core x.gi = some g ∧ g.spc = x.g.spc + 4 ∧
    rdS g d = (if d = 0 then 0 else if 61 ≤ d then v &&& x.g.live.extractLsb' (32 * (d - 61)) 32 else v) ∧
    SameScalars x.g g [d]

/-- The instruction may complete: no outstanding load covers a register it names; and if it writes the mask, no register it
reads is invalid in a Schuss episode (R104, R338). -/
def AluFree (s : State) (x : Ctx) (src : List Nat) (d : Nat) : Prop :=
  waitsS s x (d :: src) = false ∧ (61 ≤ d → ∀ r ∈ src, invS x r = false)

end Sys2Proof.Claims

/-- Every operation of Table 5-1 completes with the table's value. -/
def Sys2Proof.Claims.ScalarAluValues : Prop :=
  ∀ s x (d a b c : BitVec 6), ctx? s = some x →
    (AluFree s x [a.toNat, b.toNat] d.toNat →
      ∀ p ∈ aluTable d a b (rdS x.g a.toNat) (rdS x.g b.toNat) ++ shiftTable d a b (rdS x.g a.toNat) (rdS x.g b.toNat),
        ScalarWrites s x p.1 d.toNat p.2) ∧
    (AluFree s x [a.toNat] d.toNat → ∀ p ∈ unaryTable d a (rdS x.g a.toNat), ScalarWrites s x p.1 d.toNat p.2) ∧
    (AluFree s x [a.toNat, b.toNat, c.toNat] d.toNat →
      ScalarWrites s x (.sel d a b c) d.toNat (if rdS x.g c.toNat = 0 then rdS x.g b.toNat else rdS x.g a.toNat))

/-- Every immediate form completes with the value of R107 to R109. -/
def Sys2Proof.Claims.ScalarImmediateResult : Prop :=
  ∀ s x (d a : BitVec 6) (i : BitVec 14) (n : BitVec 5) (j : BitVec 16), ctx? s = some x →
    (AluFree s x [a.toNat] d.toNat →
      ∀ p ∈ immTable d a i (rdS x.g a.toNat) ++ shiTable d a n (rdS x.g a.toNat), ScalarWrites s x p.1 d.toNat p.2) ∧
    (AluFree s x [d.toNat] d.toNat → ∀ p ∈ liTable d j (rdS x.g d.toNat), ScalarWrites s x p.1 d.toNat p.2)

/-- Every bit-field form with a legal field completes with the value of R110; with an illegal one it takes the illegal-instruction
fault. -/
def Sys2Proof.Claims.ScalarBitFieldResult : Prop :=
  ∀ s x (d a w : BitVec 6) (p : BitVec 5), ctx? s = some x →
    (fieldOk w p → AluFree s x [a.toNat] d.toNat → ∀ q ∈ bfeTable d a w p (rdS x.g a.toNat), ScalarWrites s x q.1 d.toNat q.2) ∧
    (fieldOk w p → AluFree s x [a.toNat, d.toNat] d.toNat →
      ScalarWrites s x (.bfi d a w p) d.toNat (bfiValue w p (rdS x.g d.toNat) (rdS x.g a.toNat))) ∧
    (¬ fieldOk w p → ∀ q ∈ [Instr.bfeZ d a w p, .bfeS d a w p, .bfi d a w p], exec q s = .next (raise s x { code := 0x01 }))

/-- Division and remainder fit together for every divisor but 0, signed and unsigned (R106). -/
def Sys2Proof.Claims.ScalarDivisionIdentity : Prop :=
  ∀ a b : Word, b ≠ 0 → a = b * divUnsigned a b + remUnsigned a b ∧ a = b * divSigned a b + remSigned a b

/-- What a scalar ALU instruction leaves alone, in every next state it gives: it completes or waits, changing at most its group,
in that at most its destination among the registers, and no byte of memory; or it ends the stream's Schuss episode (R338). -/
def Sys2Proof.Claims.ScalarAluFrame : Prop :=
  ∀ s x t (d a b c w : BitVec 6) (p : BitVec 5) (i : BitVec 14) (j : BitVec 16) (v : Word), ctx? s = some x →
    (fieldOk w p) →
    ∀ q ∈ aluTable d a b v v ++ shiftTable d a b v v ++ unaryTable d a v ++ immTable d a i v ++ shiTable d a p v ++
        liTable d j v ++ bfeTable d a w p v ++ [(.sel d a b c, v), (.bfi d a w p, v)],
      exec q.1 s = .next t →
      (inEpisode x = true ∧ t = stopEpisode s x) ∨
      (SameMemory s t ∧ ∃ g, t = setGroup s x.core x.gi g ∧ SameScalars x.g g [d.toNat] ∧ SameButScalars x.g g)

/-- An instruction of Table 5-1, of any form, that names a register an outstanding load covers blocks its group and changes no
register (R104). -/
def Sys2Proof.Claims.ScalarInterlock : Prop :=
  ∀ s x (d a b c w : BitVec 6) (p : BitVec 5) (i : BitVec 14) (j : BitVec 16) (v : Word), ctx? s = some x → fieldOk w p →
    let alone := fun (l : List (Instr × Word)) (regs : List Nat) => waitsS s x regs = true → ∀ q ∈ l,
      ∃ t g, exec q.1 s = .next t ∧ groupOf t x.core x.gi = some g ∧ g.state = .blocked ∧ g.wait = .operand ∧
        g.spc = x.g.spc ∧ SameScalars x.g g [] ∧ SameButScalars x.g g ∧ SameMemory s t
    alone (aluTable d a b v v ++ shiftTable d a b v v) [d.toNat, a.toNat, b.toNat] ∧
    alone (unaryTable d a v ++ immTable d a i v ++ shiTable d a p v ++ bfeTable d a w p v ++ [(.bfi d a w p, v)]) [d.toNat, a.toNat] ∧
    alone [(.sel d a b c, v)] [d.toNat, a.toNat, b.toNat, c.toNat] ∧
    alone (liTable d j v) [d.toNat]

/-! ## Scalar control and the lane stream (R28, R292 - R294, R333) -/

namespace Sys2Proof.Claims

/-- The scalar stream of `x` goes on at `pc`; its registers but those listed, everything else of its group, every other group and
every byte of memory stay as they are. -/
def Goes (s : State) (x : Ctx) (i : Instr) (pc : Word) (but : List Nat) : Prop :=
  ∃ t g, exec i s = .next t ∧ t = setGroup s x.core x.gi g ∧ groupOf t x.core x.gi = some g ∧ g.spc = pc ∧
    SameScalars x.g g but ∧ SameButScalars x.g g ∧ SameMemory s t

/-- The same, and register `link` receives PC + 4, unless it is s0. -/
def Links (s : State) (x : Ctx) (i : Instr) (link : Nat) (pc : Word) : Prop :=
  ∃ t g, exec i s = .next t ∧ t = setGroup s x.core x.gi g ∧ groupOf t x.core x.gi = some g ∧ g.spc = pc ∧
    rdS g link = (if link = 0 then 0 else x.g.spc + 4) ∧ SameScalars x.g g [link] ∧ SameButScalars x.g g ∧ SameMemory s t

/-- The conditional branches of Table 13-1 and when each is taken, sa being `v`. -/
def branchTable (a : BitVec 6) (o : BitVec 20) (v : Word) : List (Instr × Bool) :=
  [(.beqz a o, decide (v.toNat = 0)), (.bnez a o, decide (v.toNat ≠ 0)), (.bltz a o, decide (v.toInt < 0)),
   (.bgez a o, decide (0 ≤ v.toInt))]

/-- A branch's own PC plus 4 times the signed offset (R292). -/
def branchTo (g : Group) (o : BitVec 20) : Word := g.spc + BitVec.ofInt 32 (4 * o.toInt)

/-- Word `k` of a mask, as s61 to s63 hold it (R25). -/
def wordOf (m : Mask) (k : Nat) : Word := m.extractLsb' (32 * k) 32

/-- The copy-back of group `g0` has been made in `g`: the registers its lane stream wrote, the mask and the flags (R28, R132). -/
def CopiedBack (g0 g : Group) : Prop :=
  g.fps = g0.fps ||| g0.lane.fps ∧
    (∀ n, 0 < n → n < 61 → rdS g n = if g0.lane.written.contains n then rdV g0 n else rdS g0 n) ∧
    (∀ k, k < 3 → rdS g (61 + k) = rdV g0 (61 + k) &&& wordOf g0.live k)

/-- A lane stream of `g` has started at lane word `pc` with the view a copy of its scalar registers; with an empty mask it has ended
at once (R28, R294). -/
def LaneStarted (g : Group) (pc : Nat) : Prop :=
  g.lane.started = true ∧ (maskOfS g = 0 → g.lane.running = false) ∧
    (maskOfS g ≠ 0 → g.lane.running = true ∧ g.lane.lpc = pc ∧ g.lane.stack = [] ∧ g.lane.rpc = none ∧ ∀ n, rdV g n = rdS g n)

end Sys2Proof.Claims

/-- The scalar branches: a branch that is taken goes to its target, one that is not goes on at PC + 4; `br` and `call` are always
taken (R292). Under Schuss a test of an invalid register falls through (R301). -/
def Obligations.BranchResult : Prop :=
  ∀ s x (a : BitVec 6) (o : BitVec 20), ctx? s = some x →
    (waitsS s x [a.toNat] = false → ∀ p ∈ branchTable a o (rdS x.g a.toNat),
      Goes s x p.1 (if p.2 = true ∧ invS x a.toNat = false then branchTo x.g o else x.g.spc + 4) []) ∧
    Goes s x (.br o) (branchTo x.g o) [] ∧
    (a.toNat ≤ 60 → waitsS s x [a.toNat] = false → Links s x (.call a o) a.toNat (branchTo x.g o)) ∧
    (60 < a.toNat → exec (.call a o) s = .next (raise s x { code := 0x01 }))

/-- JMPR goes to sa plus its immediate, sa being read before the link is written (R293). -/
def Obligations.JumpRegisterResult : Prop :=
  ∀ s x (d a : BitVec 6) (i : BitVec 14), ctx? s = some x →
    (d.toNat ≤ 60 → waitsS s x [a.toNat, d.toNat] = false → invS x a.toNat = false →
      Links s x (.jmpr d a i) d.toNat (rdS x.g a.toNat + BitVec.ofInt 32 i.toInt)) ∧
    (60 < d.toNat → exec (.jmpr d a i) s = .next (raise s x { code := 0x01 }))

/-- LGO starts the lane stream at its word with a fresh view of the scalar registers; with an empty mask the lane stream ends at
once. A stream that ran before, ended and was not joined has its copy-back made first. LJOIN copies back: the registers the lane
stream wrote, the mask and the floating-point flags, once no load into one of them is outstanding. With no stream started LJOIN
does nothing (R28, R29, R132, R294). The model's own choices and readings it rests on: log 52 (DESIGN CHOICE). -/
def Obligations.LaneStreamResult : Prop :=
  ∀ s x (o : BitVec 20), ctx? s = some x → x.g.trap.h = false → inEpisode x = false → x.g.lane.running = false →
    (scalarLoads s x = false → x.g.lane.started = false →
      ∃ t g, exec (.lgo o) s = .next t ∧ t = setGroup s x.core x.gi g ∧ g.spc = x.g.spc + 4 ∧ SameScalars x.g g [] ∧
        g.fps = x.g.fps ∧ LaneStarted g o.toNat) ∧
    (scalarLoads s x = false → x.g.lane.started = true → viewLoads s x = false →
      ∃ t g, exec (.lgo o) s = .next t ∧ t = setGroup s x.core x.gi g ∧ g.spc = x.g.spc + 4 ∧ CopiedBack x.g g ∧
        LaneStarted g o.toNat) ∧
    (x.g.lane.started = false → Goes s x .ljoin (x.g.spc + 4) []) ∧
    (x.g.lane.started = true → viewLoads s x = false → waitsS s x (joinRegs x.g) = false →
      ∃ t g, exec .ljoin s = .next t ∧ t = setGroup s x.core x.gi g ∧ g.spc = x.g.spc + 4 ∧ g.lane.started = false ∧
        CopiedBack x.g g)

/-- MSK.LIVE and MSK.N write the mask whole, each word ANDed with the live mask; MSK.N above 96 is illegal (R25, R294). -/
def Obligations.MaskResult : Prop :=
  ∀ s x (n : BitVec 16), ctx? s = some x → waitsS s x [61, 62, 63] = false →
    (∃ t g, exec .mskLive s = .next t ∧ t = setGroup s x.core x.gi g ∧ g.spc = x.g.spc + 4 ∧
      (∀ k, k < 3 → rdS g (61 + k) = wordOf x.g.live k) ∧ SameScalars x.g g [61, 62, 63]) ∧
    (n.toNat ≤ 96 → ∃ t g, exec (.mskN n) s = .next t ∧ t = setGroup s x.core x.gi g ∧ g.spc = x.g.spc + 4 ∧
      (∀ k, k < 3 → rdS g (61 + k) = wordOf (BitVec.ofNat 96 (2 ^ n.toNat - 1)) k &&& wordOf x.g.live k) ∧
      SameScalars x.g g [61, 62, 63]) ∧
    (96 < n.toNat → exec (.mskN n) s = .next (raise s x { code := 0x01 }))

/-- EXIT, once the lane stream has ended and no operation of the group is outstanding: the group's slot is freed while the team
has another group (its windows go back and it counts as arrived: `freeSlot`); the team's last group stays as Exiting and the
team drains. YIELD goes on and makes the group the youngest (R29, R39, R294, R333). The model's own choices and readings it
rests on: log 23 (DEDUCED). -/
def Obligations.ExitAndYieldResult : Prop :=
  ∀ s x, ctx? s = some x → inEpisode x = false →
    ((x.g.lane.running = false ∨ x.g.lane.suspended = true) →
      ((getCore s x.core).ops.any fun o => o.group == x.gi) = false →
      ((x.team.groups.any fun q => q.1 != x.gi) = true →
        exec .exitScalar s = .next (freeSlot s x.core x.gi) ∧
        (x.team.xacq = [] → ∃ tm, teamOf (freeSlot s x.core x.gi) x.core = some tm ∧ tm.state = x.team.state ∧
          mkeys tm.groups = (mkeys x.team.groups).erase x.gi)) ∧
      ((x.team.groups.any fun q => q.1 != x.gi) = false → x.team.xacq = [] →
        ∃ t tm g, exec .exitScalar s = .next t ∧ teamOf t x.core = some tm ∧ tm.state = .draining ∧
          groupOf t x.core x.gi = some g ∧ g.state = .exiting ∧ g.windows = 0)) ∧
    (∃ t g, exec .yield s = .next t ∧ t = setGroup s x.core x.gi g ∧ g.spc = x.g.spc + 4 ∧ g.age = s.now ∧
      SameScalars x.g g [] ∧ SameButScalars x.g g)

/-! ## Scalar memory, fences and waits (R251 - R259, R266 - R269) -/

namespace Sys2Proof.Claims

/-- The acting scalar stream may make a memory access: it is in no Schuss episode, and no outstanding load covers a register the
word names, nor is an acquire outstanding (R209, R256). -/
def MemFree (s : State) (x : Ctx) (regs : List Nat) : Prop :=
  inEpisode x = false ∧ acqPending x = false ∧ waitsS s x regs = false

/-- A local range of the acting team that passes R252: aligned, inside usable scratch and outside the copy scoreboard. -/
def LocalOk (x : Ctx) (a n : Nat) : Prop := a % n = 0 ∧ a + n ≤ localLimit x.team ∧ boardHit x.team a n = false

/-- A global access of n bytes that passes R252: aligned, leased, and translated to a page that is not broken. -/
def GlobalOk (s : State) (x : Ctx) (a n : Nat) (wr : Bool) : Prop :=
  a % n = 0 ∧ leaseOk x.grid a n wr = true ∧
    ∀ pg ∈ pagesOf a n, ∃ h, translate s x.team.part x.grid.pasid (if pg = a / 4096 then a else pg * 4096) = .ok h

/-- The local address of a word: register plus offset modulo 2^32; the global one: the pair's 57 bits plus offset modulo 2^57
(R251). -/
def localAt (g : Group) (a : BitVec 6) (off : Int) : Nat := (((rdS g a.toNat).toNat + off) % 2 ^ 32).toNat
def globalAt (g : Group) (a : BitVec 6) (off : Int) : Nat :=
  ((((rdS g a.toNat).toNat + (rdS g (a.toNat + 1)).toNat % 2 ^ 25 * 2 ^ 32 : Nat) + off) % 2 ^ 57).toNat

/-- What register n holds after it is written with v (R25, R31). -/
def written (g : Group) (n : Nat) (v : Word) : Word :=
  if n = 0 then 0 else if 61 ≤ n then v &&& wordOf g.live (n - 61) else v

/-- A load of fewer than 32 bits extended (R255). -/
def loaded (size : Nat) (sx : BitVec 1) (v : Nat) : Word :=
  if sx = 1 then BitVec.ofInt 32 (if v < 2 ^ (8 * size - 1) then (v : Int) else v - 2 ^ (8 * size)) else BitVec.ofNat 32 v

/-- A pair of 64 bits, s0 standing for zero; the order an atomic acts with, `.prom` being acqrel (R254, R258). -/
def pairOr0 (g : Group) (r : BitVec 6) : Nat :=
  if r = 0 then 0 else (rdS g r.toNat).toNat + (rdS g (r.toNat + 1)).toNat * 2 ^ 32
def rmwOrder (c : BitVec 3) (q : BitVec 2) : Nat := if c = 6 then 3 else q.toNat

/-- Table 11-1: the new value of a word. -/
def atomTable (old b : Word) : List (BitVec 3 × Word) :=
  [(0, BitVec.ofNat 32 (old.toNat + b.toNat)), (1, BitVec.ofInt 32 (min old.toInt b.toInt)),
   (2, BitVec.ofInt 32 (max old.toInt b.toInt)), (3, old &&& b), (4, old ||| b), (5, old ^^^ b), (6, b),
   (7, rne32 (addV .rne (f32 old) (f32 b)).1)]

/-- The acting scalar word completes with an operation on the L path whose accesses are those listed: the group goes on at the
next word with its registers as they were, and the operation is issued (`issueOp`: R256, R209). -/
def Issues (s : State) (x : Ctx) (i : Instr) (g : Group) (o : PendOp) (as_ : List Access) : Prop :=
  exec i s = .next (issueOp (scalarDone s x g) x o as_) ∧ SameScalars x.g g [] ∧ g.spc = x.g.spc

end Sys2Proof.Claims

/-- A local load whose checks pass writes its destination with the scratch bytes at its address, extended; the rest of the group
and every byte of memory stay, but that after an acquire what the group does on other paths comes behind its core's earlier writes
(`heard`: R209, R214, R251, R255). -/
def Sys2Proof.Claims.LocalLoadResult : Prop :=
  ∀ s x (d a : BitVec 6) (w : BitVec 2) (sx q : BitVec 1) (c : BitVec 3) (f : BitVec 6), ctx? s = some x →
    ldOk d a w sx 1 c = true →
    MemFree s x ([a.toNat] ++ regsFrom d (if w = 3 then 2 else 1)) →
    LocalOk x (localAt x.g a (f.toInt * 2 ^ w.toNat)) (2 ^ w.toNat) →
    let v := scratchRead x.team (localAt x.g a (f.toInt * 2 ^ w.toNat)) (2 ^ w.toNat)
    ∃ t g, exec (.ldScalar d a w sx 1 q c f) s = .next t ∧ t = setGroup s x.core x.gi g ∧ groupOf t x.core x.gi = some g ∧
      g.spc = x.g.spc + 4 ∧ SameMemory s t ∧ SameButScalars { x.g with heard := g.heard } g ∧
      g.heard = (if q = 1 then max x.g.heard s.fresh else x.g.heard) ∧
      (w ≠ 3 → rdS g d.toNat = written x.g d.toNat (loaded (2 ^ w.toNat) sx v) ∧ SameScalars x.g g [d.toNat]) ∧
      (w = 3 → (d ≠ 0 → rdS g d.toNat = BitVec.ofNat 32 v ∧ rdS g (d.toNat + 1) = BitVec.ofNat 32 (v / 2 ^ 32)) ∧
        (d = 0 → SameScalars x.g g []) ∧ SameScalars x.g g [d.toNat, d.toNat + 1])

/-- A local store whose checks pass writes its register's low bytes to scratch and nothing else: no register, no byte of memory
and no scratch byte outside its own (R251, R255). A local release waits for nothing: its scope is the team (R209). -/
def Sys2Proof.Claims.LocalStoreResult : Prop :=
  ∀ s x (d a : BitVec 6) (w : BitVec 2) (q : BitVec 1) (c : BitVec 3) (f : BitVec 6), ctx? s = some x →
    stOk d a w 1 c = true →
    MemFree s x ([a.toNat] ++ regsFrom d (if w = 3 then 2 else 1)) →
    LocalOk x (localAt x.g a (f.toInt * 2 ^ w.toNat)) (2 ^ w.toNat) →
    let at_ := localAt x.g a (f.toInt * 2 ^ w.toNat)
    let v := if w = 3 ∧ d ≠ 0 then (rdS x.g d.toNat).toNat + (rdS x.g (d.toNat + 1)).toNat * 2 ^ 32 else (rdS x.g d.toNat).toNat
    ∃ t tm g, exec (.stScalar d a w 1 q c f) s = .next t ∧ teamOf t x.core = some tm ∧ groupOf t x.core x.gi = some g ∧
      tm.scratch = writeLE x.team.scratch at_ (2 ^ w.toNat) v ∧
      (∀ b, b < at_ ∨ at_ + 2 ^ w.toNat ≤ b → readByte tm.scratch b = readByte x.team.scratch b) ∧
      g.spc = x.g.spc + 4 ∧ SameScalars x.g g [] ∧ g.preds = x.g.preds ∧ g.vregs = x.g.vregs ∧ g.fps = x.g.fps ∧
      g.trap = x.g.trap ∧ SameMemory s t

/-- A local atomic returns the old word to its destination and leaves the new value of Table 11-1 in scratch; a local CAS of 32 or
64 bits returns the old value and writes sd when the old value is sb (R257 - R259). -/
def Sys2Proof.Claims.LocalAtomicResult : Prop :=
  ∀ s x (d a b : BitVec 6) (q : BitVec 2), ctx? s = some x →
    let at_ := localAt x.g a 0
    (MemFree s x [a.toNat, b.toNat, d.toNat] → LocalOk x at_ 4 →
      let old := BitVec.ofNat 32 (scratchRead x.team at_ 4)
      (∀ p ∈ atomTable old (rdS x.g b.toNat), ∃ t tm g, exec (.atomScalar d a b 7 q p.1) s = .next t ∧
        teamOf t x.core = some tm ∧ groupOf t x.core x.gi = some g ∧ g.spc = x.g.spc + 4 ∧
        rdS g d.toNat = written x.g d.toNat old ∧ SameScalars x.g g [d.toNat] ∧ SameMemory s t ∧
        tm.scratch = writeLE x.team.scratch at_ 4 p.2.toNat) ∧
      (∃ t tm g, exec (.casScalar d a b 7 q 0) s = .next t ∧
        teamOf t x.core = some tm ∧ groupOf t x.core x.gi = some g ∧ g.spc = x.g.spc + 4 ∧
        rdS g d.toNat = written x.g d.toNat old ∧ SameScalars x.g g [d.toNat] ∧ SameMemory s t ∧
        tm.scratch = if old = rdS x.g b.toNat then writeLE x.team.scratch at_ 4 (rdS x.g d.toNat).toNat
          else x.team.scratch)) ∧
    (casOk d a b 7 1 = true → MemFree s x ([a.toNat] ++ regsFrom b 2 ++ regsFrom d 2) → LocalOk x at_ 8 →
      let old := scratchRead x.team at_ 8
      ∃ t tm g, exec (.casScalar d a b 7 q 1) s = .next t ∧
        teamOf t x.core = some tm ∧ groupOf t x.core x.gi = some g ∧ g.spc = x.g.spc + 4 ∧
        (d ≠ 0 → rdS g d.toNat = BitVec.ofNat 32 old ∧ rdS g (d.toNat + 1) = BitVec.ofNat 32 (old / 2 ^ 32)) ∧
        (d = 0 → SameScalars x.g g []) ∧ SameScalars x.g g [d.toNat, d.toNat + 1] ∧ SameMemory s t ∧
        tm.scratch = if old = pairOr0 x.g b then writeLE x.team.scratch at_ 8 (pairOr0 x.g d) else x.team.scratch)

/-- A global load, store, atomic or CAS whose checks pass issues its operation: its kind, its destination, its order and scope,
and its accesses' address, size and data, as R251 to R258 give them. A load judged long at issue is marked so (R336). -/
def Sys2Proof.Claims.GlobalAccessIssues : Prop :=
  ∀ s x (d a b : BitVec 6) (w : BitVec 2) (sx q : BitVec 1) (c : BitVec 3) (f : BitVec 6), ctx? s = some x →
    let n := if w = 3 then 2 else 1
    let at_ := globalAt x.g a (f.toInt * 2 ^ w.toNat)
    let op : OpKind → Dest → Nat → Bool → Nat → PendOp := fun k dst size sext order =>
      { id := 0, group := x.gi, lane := false, kind := k, dest := dst, width := size, sext := sext, threads := 1, uni := false,
        attr := { order := order, scope := c.toNat }, issued := s.now, pc := x.g.spc.toNat }
    (ldOk d a w sx 0 c = true → MemFree s x ([a.toNat, a.toNat + 1] ++ regsFrom d n) → GlobalOk s x at_ (2 ^ w.toNat) false →
      Issues s x (.ldScalar d a w sx 0 q c f) x.g
        { op .ld (.sregs d.toNat n) (2 ^ w.toNat) (sx == 1) q.toNat with long := judgedLong s x at_ (hpaOf s x at_) }
        (mkAccesses s x .ld 0 at_ (2 ^ w.toNat) 0 0 0 false)) ∧
    (stOk d a w 0 c = true → MemFree s x ([a.toNat, a.toNat + 1] ++ regsFrom d n) → GlobalOk s x at_ (2 ^ w.toNat) true →
      (wideRelease (2 * q.toNat) c.toNat = true → releaseWaits s x = false) →
      Issues s x (.stScalar d a w 0 q c f) (setFence x x.g none) (op .st .none (2 ^ w.toNat) false (2 * q.toNat))
        (mkAccesses s x .st 0 at_ (2 ^ w.toNat)
          (if w = 3 ∧ d ≠ 0 then (rdS x.g d.toNat).toNat + (rdS x.g (d.toNat + 1)).toNat * 2 ^ 32 else (rdS x.g d.toNat).toNat)
          0 0 false)) ∧
    (∀ (r : BitVec 2) (o : BitVec 3), pairReg a = true → c ≠ 7 → MemFree s x ([a.toNat, a.toNat + 1, b.toNat] ++ regsFrom d 1) →
      GlobalOk s x (globalAt x.g a 0) 4 true → (wideRelease (rmwOrder c r) c.toNat = true → releaseWaits s x = false) →
      Issues s x (.atomScalar d a b c r o) (setFence x x.g none) (op .atom (.sregs d.toNat 1) 4 false (rmwOrder c r))
        (mkAccesses s x .atom 0 (globalAt x.g a 0) 4 (rdS x.g b.toNat).toNat 0 o.toNat (c == 6))) ∧
    (∀ (r : BitVec 2) (z : BitVec 1), casOk d a b c z = true → c ≠ 7 →
      let m := if z = 1 then 2 else 1
      MemFree s x ([a.toNat, a.toNat + 1] ++ regsFrom b m ++ regsFrom d m) → GlobalOk s x (globalAt x.g a 0) (4 * m) true →
      (wideRelease (rmwOrder c r) c.toNat = true → releaseWaits s x = false) →
      Issues s x (.casScalar d a b c r z) (setFence x x.g none) (op .cas (.sregs d.toNat m) (4 * m) false (rmwOrder c r))
        (mkAccesses s x .cas 0 (globalAt x.g a 0) (4 * m) (if z = 1 then pairOr0 x.g d else (rdS x.g d.toNat).toNat)
          (if z = 1 then pairOr0 x.g b else (rdS x.g b.toNat).toNat) 0 (c == 6)))

/-- A misaligned access takes the misaligned-access fault 0x05, before any other check of R252, and an access outside the leases
the out-of-lease fault 0x20; both name the address. -/
def Sys2Proof.Claims.AccessFaults : Prop :=
  ∀ s x (d a : BitVec 6) (w : BitVec 2) (sx l q : BitVec 1) (c : BitVec 3) (f : BitVec 6), ctx? s = some x →
    let at_ := if l = 1 then localAt x.g a (f.toInt * 2 ^ w.toNat) else globalAt x.g a (f.toInt * 2 ^ w.toNat)
    let regs := (if l = 1 then [a.toNat] else [a.toNat, a.toNat + 1]) ++ regsFrom d (if w = 3 then 2 else 1)
    MemFree s x regs →
    (ldOk d a w sx l c = true → at_ % 2 ^ w.toNat ≠ 0 →
      exec (.ldScalar d a w sx l q c f) s = .next (raise s x { code := 0x05, addr := at_ })) ∧
    (stOk d a w l c = true → at_ % 2 ^ w.toNat ≠ 0 →
      exec (.stScalar d a w l q c f) s = .next (raise s x { code := 0x05, addr := at_ })) ∧
    (ldOk d a w sx l c = true → l = 0 → at_ % 2 ^ w.toNat = 0 → leaseOk x.grid at_ (2 ^ w.toNat) false = false →
      exec (.ldScalar d a w sx l q c f) s = .next (raise s x { code := 0x20, addr := at_ })) ∧
    (stOk d a w l c = true → l = 0 → at_ % 2 ^ w.toNat = 0 → leaseOk x.grid at_ (2 ^ w.toNat) true = false →
      exec (.stScalar d a w l q c f) s = .next (raise s x { code := 0x20, addr := at_ }))

/-- FENCE completes once the operations it names have made their accesses and, for one with an acquire half, the group's earlier
loads have returned, each of which then acts as an acquire; a release half at die scope or wider waits for what its group has
acquired too (`hearWaits`); WAIT once the group's four counts are at or below their limits, 15 being
no limit; a PAUSE whose time has come completes, and one that begins blocks its group for max(n, 1) cycles of its core; in both
versions' encodings (R211, R214, R266, R267, R269). -/
def Sys2Proof.Claims.FenceWaitPauseResult : Prop :=
  ∀ s x (t4 l st cp tl : BitVec 4) (c : BitVec 3) (n : BitVec 16), ctx? s = some x → inEpisode x = false →
    (fenceOk t4 c l = true → pathBusy s x l = false → (t4 ≠ 1 → readsBusy s x = false) →
      (t4 ≠ 0 → 2 ≤ c.toNat → hearWaits s x = false) →
      (l.getLsbD 0 = true → fenceBusy s x t4.toNat c.toNat (l.extractLsb' 1 3 != 0) = false) →
      ∃ t g, exec (.fence t4 c l) s = .next t ∧ t = setGroup s x.core x.gi g ∧ g.spc = x.g.spc + 4 ∧ SameScalars x.g g [] ∧
        SameMemory s t) ∧
    ((l = 15 ∨ countOps (getCore s x.core) x.gi false ≤ l.toNat) → (st = 15 ∨ countOps (getCore s x.core) x.gi true ≤ st.toNat) →
      (cp = 15 ∨ countCopies s x.team x.gi ≤ cp.toNat) → (tl = 15 ∨ countTile s x.team x.gi ≤ tl.toNat) →
      Goes s x (.waitCounts tl cp st l) (x.g.spc + 4) []) ∧
    (∀ i ∈ [Instr.pause n, .pauseV1v2 n],
      (∀ u, x.g.wait = .pause u → u ≤ s.now → Goes s x i (x.g.spc + 4) []) ∧
      ((∀ u, x.g.wait ≠ .pause u) → ∃ t g, exec i s = .next t ∧ t = setGroup s x.core x.gi g ∧ g.state = .blocked ∧
        g.wait = .pause (s.now + max n.toNat 1 * coreDiv s x.core) ∧ g.spc = x.g.spc ∧ SameScalars x.g g []))

/-- WAITLN on a line the core holds: with another value than the expected one it completes at once; with the expected one, and a
watch entry free, its watch is armed and the group blocks (R268). -/
def Sys2Proof.Claims.WaitlnResult : Prop :=
  ∀ s x (d a : BitVec 6) (i : BitVec 14) (l : L1Line), ctx? s = some x → pairReg a = true →
    MemFree s x [a.toNat, a.toNat + 1, d.toNat] → x.g.state ≠ .blocked →
    let at_ := globalAt x.g a (i.toInt * 4)
    let h := hpaOf s x at_
    let k := getCore s x.core
    GlobalOk s x at_ 4 false → pageMoving (getPart s x.team.part) x.grid.pasid (at_ / 4096) = false →
    missFor k (lineBase h) = none → headAcc k (lineBase h) = none → l1Find k (lineBase h) = some l →
    ∀ j ∈ [Instr.waitln d a i, .waitlnV1 d a i],
      (BitVec.ofNat 32 (lineField l.data (h % 128) 4) ≠ rdS x.g d.toNat → Goes s x j (x.g.spc + 4) []) ∧
      (BitVec.ofNat 32 (lineField l.data (h % 128) 4) = rdS x.g d.toNat → k.watches.length < 8 →
        ∃ t g, exec j s = .next t ∧ groupOf t x.core x.gi = some g ∧ g.state = .blocked ∧
          g.wait = .waitln (lineBase h) s.now ∧ g.spc = x.g.spc ∧ armedWatch (getCore t x.core) (lineBase h) = true ∧
          SameMemory s t)

/-- What is written to memory is read back, every other byte stays, and the canonical form is kept (R2). The model's own choices
and readings it rests on: log 2 (DESIGN CHOICE). -/
def Obligations.MemoryReadBack : Prop :=
  ∀ (m : List Host.Cell) (a n v : Nat), Memory.wf m = true →
    readLE (writeLE m a n v) a n = v % 2 ^ (8 * n) ∧
    (∀ b, b < a ∨ a + n ≤ b → readByte (writeLE m a n v) b = readByte m b) ∧ Memory.wf (writeLE m a n v) = true

/-! ## Asynchronous commands: copies, collectives, messages, matrix commands (spec/07, spec/11) -/

namespace Sys2Proof.Claims

/-- The eight copies with their kinds (R270). -/
def copyTable (d a : BitVec 6) : List (Instr × CopyKind × Bool) :=
  [(.cpy1d d a, .d1, false), (.cpy1dFt d a, .d1, true), (.cpy2d d a, .d2, false), (.cpyGather d a, .gather, false),
   (.cpySeal d a, .seal, false), (.cpyAon d a, .aon, false), (.cpyVer d a, .ver, false), (.cpyReplay d a, .replay, false)]

/-- The checks of R271 pass for the descriptor at `sa`: alignment and fields, the semaphore's alignment, the local ranges, the
B-store range, the key slot and the leases. -/
def CopyChecks (s : State) (x : Ctx) (k : CopyKind) (ft : Bool) (sa : Nat) (sem : Option Nat) : Prop :=
  let e := readDesc x.team sa
  let ix := readIndex x.team k e
  sa % 64 = 0 ∧ sa < 2 ^ 18 ∧ descBad k ft e ix = false ∧ (∀ a, sem = some a → a % 8 = 0) ∧
    (∀ r ∈ descLocal k ft sa e ix, r.1 + r.2 ≤ localLimit x.team) ∧ (fDstB e.flags = true → e.dst + dstExtent k e ≤ 2 ^ 21) ∧
    (k = .seal → (mget? (getPart s x.team.part).keys (fSlot e.flags)).isSome) ∧
    (∀ r ∈ descGlobal k ft e ++ semRange sem, leaseOk x.grid r.1 r.2.1 r.2.2 = true)

/-- The acting scalar stream may issue an asynchronous command: as for a memory access, and every write of its core that was issued
before its group last acquired, or executed a fence, has been made (R209, R214). -/
def CmdFree (s : State) (x : Ctx) (regs : List Nat) : Prop := MemFree s x regs ∧ hearWaits s x = false

/-- A command that names no semaphore (s0) or one at an aligned, leased address (R158). -/
def SemOk (x : Ctx) (sem : Option Nat) : Prop := ∀ a, sem = some a → a % 8 = 0 ∧ leaseOk x.grid a 4 true = true

/-- The group goes on behind its scalar word, with the registers it had. -/
def GoesOn (t : State) (x : Ctx) : Prop :=
  ∃ g, groupOf t x.core x.gi = some g ∧ g.spc = x.g.spc + 4 ∧ SameScalars x.g g [] ∧ g.preds = x.g.preds ∧ g.vregs = x.g.vregs ∧
    g.fps = x.g.fps ∧ g.trap = x.g.trap

/-- A matrix command stands at the end of its team's queue, and the issuing group goes on (R161). A first `.pair` command makes the
two teams partners (R155). -/
def Queues (s : State) (x : Ctx) (i : Instr) (c : MatCmd) : Prop :=
  ∃ t tm, exec i s = .next t ∧ teamOf t x.core = some tm ∧ tm.queue = x.team.queue ++ [c] ∧ GoesOn t x ∧ SameMemory s t ∧
    (c.pair = true → x.team.partner = none → tm.partner = (teamOf s (pairOf x.core)).map (·.index))

/-- What every matrix command asks before the checks of R160: the issuer leads its team, is in no episode and has its operands; the
tile is claimed; the queue has room; the semaphore is in order; and a `.pair` command finds its partner (R155, R157 - R161). -/
def MatFree (s : State) (x : Ctx) (tile : Option Nat) (regs : List Nat) (sem : Option Nat) (pair : BitVec 1) : Prop :=
  CmdFree s x regs ∧ leaderOf x.team = some x.gi ∧ x.team.queue.length < 8 ∧ (∀ t, tile = some t → t < x.team.tilesN) ∧
    SemOk x sem ∧ (pair = 1 → pairReady s x tile = true)

/-- The command a matrix instruction puts in the queue. -/
def matCmd (s : State) (x : Ctx) (k : MatKind) (pair : BitVec 1) (tile : BitVec 3) (z int loc emul : Bool) (sem : Option Nat) (addr : Nat)
    (shape : Word) (block : List Byte) : MatCmd :=
  { kind := k, pair := pair == 1, tile := tile.toNat, z := z, int := int, loc := loc, sem := sem, group := x.gi, pc := x.g.spc,
    addr := addr, shape := shape, block := block, emul := emul, after := s.fresh }

/-- Local ranges inside usable scratch. -/
def InScratch (x : Ctx) (l : List (Nat × Nat)) : Prop := ∀ r ∈ l, r.1 + r.2 ≤ localLimit x.team

end Sys2Proof.Claims

/-- Every kind of copy whose checks pass, and which reads nothing at issue that an earlier copy of its group is still to write,
is in flight with its descriptor's fields as read at issue, and its group goes on (R205, R270 - R276). `cpy.seal` needs its
feature (R418). The model's own choices and readings it rests on: logs 22, 25, 27 (DEDUCED); log 52 (DESIGN CHOICE). -/
def Obligations.CopyIssues : Prop :=
  ∀ s x (d a : BitVec 6), ctx? s = some x → d.toNat % 2 = 0 → CmdFree s x (semRegs d ++ [a.toNat]) →
    x.team.copies.length < 32 →
    let sa := (rdS x.g a.toNat).toNat
    let e := readDesc x.team sa
    ∀ q ∈ copyTable d a, (q.2.1 = .seal → s.featEn.getLsbD 5 = true) → descBusy x q.2.1 sa e = false →
      CopyChecks s x q.2.1 q.2.2 sa (semOf x d) →
      (fDstLocal e.flags = true → (x.team.copies.filter fun c => c.entry.isSome).length < 16) →
      ∃ t tm c, exec q.1 s = .next t ∧ teamOf t x.core = some tm ∧ tm.copies = x.team.copies ++ [c] ∧
        c.id = s.fresh ∧ c.kind = q.2.1 ∧ c.desc = sa ∧ c.src = e.src ∧ c.dst = e.dst ∧ c.len = e.len ∧ c.n = e.n ∧
        c.sstride = e.sstride ∧ c.dstride = e.dstride ∧ c.aux = e.aux ∧ c.sem = semOf x d ∧ c.group = x.gi ∧ c.pc = x.g.spc ∧
        c.units = 0 ∧ GoesOn t x ∧ SameMemory s t

/-- A collective whose descriptor passes its checks, and whose mask image can be read, stands as the team's newest contribution,
over the cores the image names (R279, R280). The model's own choices and readings it rests on: logs 5, 22, 27 (DEDUCED); log 52
(DESIGN CHOICE). -/
def Obligations.CollectiveIssues : Prop :=
  ∀ s x (d a : BitVec 6) (ty : BitVec 3), ctx? s = some x → d.toNat % 2 = 0 → CmdFree s x (semRegs d ++ [a.toNat]) →
    x.team.colls.length < 4 →
    let sa := (rdS x.g a.toNat).toNat
    let w := fun (o n : Nat) => scratchRead x.team (sa + o) n
    sa % 32 = 0 → sa < 2 ^ 18 → SemOk x (semOf x d) → InScratch x [(sa, 32), (w 0x08 4, w 0x10 4)] →
    w 0 8 < 2 ^ 57 → w 0 8 % 64 = 0 → w 0x08 4 % 16 = 0 → w 0x0C 4 % 16 = 0 → w 0x10 4 % 16 = 0 → 16 ≤ w 0x10 4 →
    w 0x10 4 ≤ 65536 → w 0x14 4 < 8192 → w 0x1C 4 = 0 → leaseOk x.grid (w 0 8) 1024 false = true →
    reachOf s x.team.part x.grid.pasid (w 0 8) 1024 = .ready →
    let r := readV s x.team.part x.grid.pasid 1 (coreRegion x.core) (w 0 8) 1024
    (maskCores r.2).contains x.core = true →
    let c : CollOp → Nat → Coll := fun op type =>
      { id := w 0x18 4, op := op, type := type, cores := maskCores r.2, core := x.core, team := x.team.index, grid := x.grid.seq,
        buf := w 0x08 4, out := w 0x0C 4, len := w 0x10 4, root := w 0x14 4, desc := sa, sem := semOf x d, group := x.gi,
        pc := x.g.spc, after := s.fresh }
    let stands : Coll → State := fun c => modTeam (scalarDone r.1 x x.g) x.core fun t => { t with colls := t.colls ++ [c] }
    (ty.toNat ≤ 3 → w 0x0C 4 = 0 → w 0x14 4 = 0 → exec (.collRadd d a ty) s = .next (stands (c .radd ty.toNat))) ∧
    (w 0x0C 4 = 0 → (maskCores r.2).contains (w 0x14 4) = true → exec (.collBcast d a) s = .next (stands (c .bcast 0))) ∧
    (w 0x14 4 = 0 → w 0x0C 4 + w 0x10 4 * (maskCores r.2).length ≤ localLimit x.team →
      exec (.collAgath d a) s = .next (stands (c .agath 0)))

/-- SEND puts its message, with the payload's bytes as they stand, on its way to a core of the partition; RECVPOST posts a
receive, or takes the oldest queued message that matches; RECVTST reads that message's header without removing it (R283, R284,
R286, R288). The model's own choices and readings it rests on: logs 22, 27 (DEDUCED); log 52 (DESIGN CHOICE). -/
def Obligations.MessageInstructions : Prop :=
  ∀ s x (d a b : BitVec 6) (l : BitVec 8), ctx? s = some x →
    let sa := (rdS x.g a.toNat).toNat
    let sb := (rdS x.g b.toNat).toNat
    let found := x.team.qmsgs.find? fun q => msgMatch sb q.src q.tag
    (d.toNat % 2 = 0 → CmdFree s x (semRegs d ++ [a.toNat, b.toNat]) → sa % 16 = 0 →
      (sa < 2 ^ 18 → SemOk x (semOf x d) → sa + (l.toNat + 1) ≤ localLimit x.team → sb / 2 ^ 13 % 8 = 0 →
        partOfCore s (sb % 2 ^ 13) = some x.team.part → payloadBusy x sa (l.toNat + 1) = false →
        releaseWaits s x = false →
        ∃ t m, exec (.send d a b l) s = .next t ∧ t.msgs = s.msgs ++ [m] ∧ m.src = x.core ∧ m.dst = sb % 2 ^ 13 ∧
          m.tag = sb / 2 ^ 16 % 2 ^ 16 ∧ m.payload = readBytes x.team.scratch sa (l.toNat + 1) ∧ m.sem = semOf x d ∧
          m.task = x.grid.task ∧ m.group = x.gi ∧ GoesOn t x ∧ SameMemory s t) ∧
      (sa < 2 ^ 18 → (∀ v, semOf x d = some v → v % 8 = 0) → sa + 272 ≤ localLimit x.team → x.team.recvs.length < 16 →
        (found = none → ∃ t tm, exec (.recvpost d a b) s = .next t ∧ teamOf t x.core = some tm ∧
          tm.recvs = x.team.recvs ++
            [{ sem := semOf x d, buf := sa, pat := rdS x.g b.toNat, group := x.gi, pc := x.g.spc, after := s.fresh }] ∧
          GoesOn t x ∧ SameMemory s t) ∧
        (∀ q, found = some q → (∀ v, semOf x d = some v → ∃ h, translate s x.team.part x.grid.pasid v = .ok h) →
          ∃ t tm, exec (.recvpost d a b) s = .next t ∧ teamOf t x.core = some tm ∧
          tm.recvs = x.team.recvs ∧ tm.qmsgs = x.team.qmsgs.erase q ∧
          tm.scratch = writeBytes x.team.scratch sa
            (msgHeader q.src q.len q.tag ++ readBytes x.team.scratch (queueAddr x.team q.slot + 16) q.len) ∧
          GoesOn t x ∧ SameMemory s t))) ∧
    (pairReg d = true → CmdFree s x [d.toNat, d.toNat + 1, b.toNat] →
      ∃ t g, exec (.recvtst d b) s = .next t ∧ t = setGroup s x.core x.gi g ∧ g.spc = x.g.spc + 4 ∧
        SameScalars x.g g [d.toNat, d.toNat + 1] ∧
        (found = none → rdS g d.toNat = 0xFFFFFFFF#32 ∧ rdS g (d.toNat + 1) = 0) ∧
        (∀ q, found = some q → rdS g d.toNat = BitVec.ofNat 32 (q.src + (q.len - 1) * 2 ^ 13 + q.slot * 2 ^ 21) ∧
          rdS g (d.toNat + 1) = BitVec.ofNat 32 q.tag))

/-- MMA, MLB and ACCCPY commands whose checks pass are queued with the operands read at issue (R157 - R163, R168, R171, R172). -/
def Sys2Proof.Claims.MatrixCommandsQueue : Prop :=
  ∀ s x (d a b : BitVec 6) (k : BitVec 3) (z p l : BitVec 1) (t : BitVec 3), ctx? s = some x →
    let sem := semOf x d
    let sa := (rdS x.g a.toNat).toNat
    let sb := (rdS x.g b.toNat).toNat
    (let blk := (rdS x.g (a.toNat + 1)).toNat
     let bytes := readBytes x.team.scratch blk 32
     let f := fmtBlock bytes
     let kk := mmaKc sb * min (matChunk f.fa) (matChunk f.fb)
     matOk d a true = true → k ≠ 7 →
     MatFree s x (some t.toNat) (semRegs d ++ [a.toNat, a.toNat + 1, b.toNat]) sem p →
     sa < 2 ^ 18 → sa % 16 = 0 → blk < 2 ^ 18 → blk % 32 = 0 → sb / 2 ^ 15 % 2 = 0 → sb / 2 ^ 31 % 2 = 0 → mmaBoff sb % 32 = 0 →
     fmtBad bytes k.toNat (s.featEn.getLsbD 4) = false → f.stride % 16 = 0 →
     (f.fa = 7 → f.strideA % 16 = 0 ∧ kk % blockLen f.la = 0) → (f.fb = 7 → kk % blockLen f.lb = 0) →
     InScratch x ([(sa, (mmaM sb - 1) * f.stride + matBytes f.fa kk), (blk, 32)] ++
       (if f.fa = 7 then [(f.scaleA, (mmaM sb - 1) * f.strideA + kk / blockLen f.la)] else [])) →
     mmaBoff sb + matBytes f.fb kk ≤ 32768 → (f.fb = 7 → f.scaleB + kk / blockLen f.lb ≤ 32768) →
     Queues s x (.mma d a b k z p t)
       (matCmd s x .mma p t (z == 1) (decide (f.fa < 2)) false (matEmulated f.fa f.fb) sem sa (rdS x.g b.toNat) bytes)) ∧
    (let src := if l = 1 then sa else pairAddr x.g a.toNat
     let cols := (List.range (if p = 1 then 128 else 64)).map fun j => (src + j * mlbStride sb, mlbLen sb)
     matOk d a (l == 0) = true →
     MatFree s x none (semRegs d ++ (if l = 1 then [a.toNat] else [a.toNat, a.toNat + 1]) ++ [b.toNat]) sem p →
     (l = 1 → sa < 2 ^ 18 ∧ InScratch x cols) → src % 32 = 0 → mlbBoff sb + mlbLen sb ≤ 32768 →
     (l = 0 → ∀ r ∈ cols, leaseOk x.grid r.1 r.2 false = true) →
     Queues s x (.mlb d a b l p) (matCmd s x .mlb p 0 false false (l == 1) false sem src (rdS x.g b.toNat) [])) ∧
    (matOk d a false = true → MatFree s x (some t.toNat) (semRegs d ++ [a.toNat, b.toNat]) sem p →
     let width := if p = 1 then 512 else 256
     sa < 2 ^ 18 → sa % 16 = 0 → sb / 2 ^ 30 = 0 → accStride sb % 16 = 0 → width ≤ accStride sb →
     rowFirst sb + rowCount sb ≤ 64 → InScratch x [(sa, (rowCount sb - 1) * accStride sb + width)] →
     Queues s x (.acccpySt d a b p t) (matCmd s x .acccpySt p t false false true false sem sa (rdS x.g b.toNat) []) ∧
     Queues s x (.acccpyLd d a b p t) (matCmd s x .acccpyLd p t false false true false sem sa (rdS x.g b.toNat) []))

/-- An MDRAIN whose checks pass, to scratch or to leased global memory, with or without a residual, is queued with its block as read
at issue (R173 - R176). -/
def Sys2Proof.Claims.MatrixDrainQueues : Prop :=
  ∀ s x (d a b : BitVec 6) (z i p : BitVec 1) (t : BitVec 3), ctx? s = some x →
    let sem := semOf x d
    let blk := (rdS x.g a.toNat).toNat
    let sb := (rdS x.g b.toNat).toNat
    let bytes := readBytes x.team.scratch blk 64
    let r := drainOf sb bytes
    let cols := if p = 1 then 128 else 64
    let far : Nat → Bool → Prop := fun v isLocal => v < if isLocal then 2 ^ 18 else 2 ^ 57
    let outs := ((List.range r.rows).map fun k => (r.out + k * r.outStride, outRow r cols)) ++
      (if r.fmt = 12 then (List.range r.rows).map fun k => (r.scaleAt + k * scaleRow r cols, scaleRow r cols) else [])
    let ress := if r.res = 0 then [] else (List.range r.rows).map fun k => (r.resAt + k * r.resStride, resRow r cols)
    matOk d a false = true → MatFree s x (some t.toNat) (semRegs d ++ [a.toNat, b.toNat]) sem p →
    blk < 2 ^ 18 → blk % 64 = 0 → sb / 2 ^ 25 = 0 → r.first + r.rows ≤ 64 →
    (drainSize r.fmt).isSome → sb / 2 ^ 21 % 4 ≠ 3 → (r.fmt ≠ 12 → sb / 2 ^ 21 % 16 = 0) →
    far r.out r.outLocal → r.out % (if r.fmt = 12 then 16 else r.size) = 0 → r.outStride % (if r.fmt = 12 then 16 else r.size) = 0 →
    (if r.res = 0 then r.resAt = 0 else far r.resAt r.resLocal ∧ r.resAt % residualSize r.res = 0 ∧ r.resStride % residualSize r.res = 0) →
    (if r.fmt = 12 then far r.scaleAt r.outLocal ∧ r.scaleAt % 16 = 0 else r.scaleAt = 0) →
    InScratch x ([(blk, 64)] ++ (if r.outLocal then outs else []) ++ (if r.resLocal then ress else [])) →
    (r.outLocal = false → ∀ q ∈ outs, leaseOk x.grid q.1 q.2 true = true) →
    (r.resLocal = false → ∀ q ∈ ress, leaseOk x.grid q.1 q.2 false = true) →
    Queues s x (.mdrain d a b z i p t) (matCmd s x .mdrain p t (z == 1) (i == 1) false false sem blk (rdS x.g b.toNat) bytes)

/-- A matrix command from a group that does not lead its team takes the fault 0x08, and one on a tile the launch did not claim the
fault 0x03; neither is queued (R157, R162). MLB names no tile. -/
def Sys2Proof.Claims.MatrixIssuerFaults : Prop :=
  ∀ s x (d a b : BitVec 6) (k : BitVec 3) (z i p l : BitVec 1) (t : BitVec 3), ctx? s = some x →
    let rows := [Instr.mdrain d a b z i p t, .acccpySt d a b p t, .acccpyLd d a b p t]
    let faults := fun (j : Instr) (code : Nat) => exec j s = .next (raise s x { code := code })
    (x.team.tilesN ≤ t.toNat →
      (matOk d a false = true → ∀ j ∈ rows, faults j 0x03) ∧ (matOk d a true = true → k ≠ 7 → faults (.mma d a b k z p t) 0x03)) ∧
    (leaderOf x.team ≠ some x.gi →
      (t.toNat < x.team.tilesN → matOk d a false = true → CmdFree s x (semRegs d ++ [a.toNat, b.toNat]) → ∀ j ∈ rows, faults j 0x08) ∧
      (t.toNat < x.team.tilesN → matOk d a true = true → k ≠ 7 → CmdFree s x (semRegs d ++ [a.toNat, a.toNat + 1, b.toNat]) →
        faults (.mma d a b k z p t) 0x08) ∧
      (matOk d a (l == 0) = true →
        CmdFree s x (semRegs d ++ (if l = 1 then [a.toNat] else [a.toNat, a.toNat + 1]) ++ [b.toNat]) → faults (.mlb d a b l p) 0x08))

/-! ## Semaphores, barriers, grids, windows and system registers (spec/13, spec/14, spec/20) -/

namespace Sys2Proof.Claims

/-- The acting scalar word completes with the value `v` in register d; nothing but the group changes, and in it no other register.
-/
def Answers (s : State) (x : Ctx) (i : Instr) (d : Nat) (v : Word) : Prop :=
  ∃ t g, exec i s = .next t ∧ t = setGroup s x.core x.gi g ∧ groupOf t x.core x.gi = some g ∧ g.spc = x.g.spc + 4 ∧
    rdS g d = written x.g d v ∧ SameScalars x.g g [d]

/-- The acting scalar word waits: its group is blocked at it for the reason `w`, with every register as it was. -/
def Blocks (s : State) (x : Ctx) (i : Instr) (w : Wait) : Prop :=
  ∃ t g, exec i s = .next t ∧ groupOf t x.core x.gi = some g ∧ g.state = .blocked ∧ g.wait = w ∧ g.spc = x.g.spc ∧
    SameScalars x.g g [] ∧ SameButScalars x.g g

end Sys2Proof.Claims

/-- SEMINC sends its increment to the word's anchor; SEMTST issues an acquire load of the count; SEMWAIT on a quiet word takes its
target from a count that reaches it, its group having acquired (`hear`), and else stands in the pending waits with its group
blocked (R212, R214, R322 - R324). -/
def Sys2Proof.Claims.SemaphoreInstructions : Prop :=
  ∀ s x (d a : BitVec 6) (c : BitVec 3), ctx? s = some x → semOk a c = true → MemFree s x [a.toNat, a.toNat + 1, d.toNat] →
    let va := globalAt x.g a 0
    let h := hpaOf s x va
    let p := x.team.part
    va % 8 = 0 →
    (GlobalOk s x va 4 true → (2 ≤ c.toNat → releaseWaits s x = false) →
      ∃ t, exec (.seminc d a c) s = .next t ∧
        t.incs = s.incs ++ [{
          id := s.fresh, part := p, pasid := x.grid.pasid, va := va, hpa := h, by_ := rdS x.g d.toNat, core := some x.core,
          grid := x.grid.seq, team := some x.team.index, op := some (x.core, s.fresh) }] ∧ SameMemory s t ∧
        ∃ g, groupOf t x.core x.gi = some g ∧ g.spc = x.g.spc + 4 ∧ SameScalars x.g g [] ∧ s.fresh ∈ g.acquiring) ∧
    (GlobalOk s x va 4 false → Issues s x (.semtst d a c) x.g
      { id := 0, group := x.gi, lane := false, kind := .ld, dest := .sregs d.toNat 1, width := 4, sext := false, threads := 1,
        uni := false, attr := { order := 1, scope := c.toNat }, issued := s.now, pc := x.g.spc.toNat, sem := true }
      (mkAccesses s x .ld 0 va 4 0 0 0 false)) ∧
    (GlobalOk s x va 4 true → (s.semWaits.any fun w => w.core == x.core && w.group == x.gi) = false →
      pageMoving (getPart s p) x.grid.pasid (va / 4096) = false → lineQuiet s p (lineBase h) = true →
      headAcc (getCore s x.core) (lineBase h) = none →
      let s0 := pullLine s p (lineBase h)
      let count := semCount s0 p h
      let target := rdS x.g d.toNat
      (target.toNat ≤ count → target ≠ 0 →
        exec (.semwait d a c) s = .next (scalarDone (semPut s0 p (coreRegion x.core) h (count - target.toNat)) x
          (hear s.fresh x.g))) ∧
      (target = 0 → exec (.semwait d a c) s = .next (scalarDone s0 x (hear s.fresh x.g))) ∧
      (count < target.toNat → exec (.semwait d a c) s = .next (scalarWait
        { s0 with semWaits := s0.semWaits ++
            [{ hpa := h, target := target, core := x.core, group := x.gi, listed := semRoom s p h, tried := s.now }] }
        x (.sem (lineBase h)))))

/-- BARARR records the group's arrival and may release the barrier; BARWAIT blocks while the arrival stands and then receives the
generation. That a generation of a Noon context is under way from its first BARARR on is the model's reading, log 30. A context a
core may not use raises 0x0F. A barrier every group has reached releases: its generation counts up and no arrival at it is left; any
other stays as it is (R213, R325 - R327). -/
def Sys2Proof.Claims.BarrierInstructions : Prop :=
  (∀ s x (d : BitVec 6) (b : BitVec 5), ctx? s = some x → barOk b = true → MemFree s x [] →
    (barFault s x b.toNat = true → exec (.bararr b) s = .next (raise s x { code := 0x0F })) ∧
    (barFault s x b.toNat = false → x.g.arrived.contains b.toNat = false → releaseWaits s x = false →
      let arrived := scalarDone s x { setFence x x.g none with arrived := insertNat x.g.arrived b.toNat }
      exec (.bararr b) s = .next (if b.toNat < 16 then modTeam arrived x.core fun t => releaseBar t b.toNat else
        noonArrive (modPart arrived x.team.part fun v => { v with
          noon := mmod {} v.noon (b.toNat - 16) fun n => { n with begun := true } }) x.core)) ∧
    (barFault s x b.toNat = false → x.g.arrived.contains b.toNat = true →
      Blocks s x (.bararr b) (.bar b.toNat) ∧ (waitsS s x [d.toNat] = false → Blocks s x (.barwait d b) (.bar b.toNat))) ∧
    (barFault s x b.toNat = false → x.g.arrived.contains b.toNat = false → waitsS s x [d.toNat] = false →
      Answers s x (.barwait d b) d.toNat
        (if b.toNat < 16 then (mget {} x.team.bars b.toNat).gen else (mget {} (getPart s x.team.part).noon (b.toNat - 16)).gen))) ∧
  (∀ (t : Team) (b : Nat),
    ((∃ g ∈ mvals t.groups, b ∈ g.arrived) → (∀ g ∈ mvals t.groups, b ∈ g.arrived ∨ g.state = .exiting) →
      (mget {} (releaseBar t b).bars b).gen = (mget {} t.bars b).gen + 1 ∧
      (∀ g ∈ mvals (releaseBar t b).groups, b ∉ g.arrived ∧ g.wait ≠ .bar b) ∧ (releaseBar t b).scratch = t.scratch) ∧
    ((∃ g ∈ mvals t.groups, b ∉ g.arrived ∧ g.state ≠ .exiting) → releaseBar t b = t))

/-- LAUNCH: the status of the first check of Table 14-2 that fails goes to sd; with none, the child grid exists, one level
deeper, of the same task, and counts among the team's children. It asks that the grid limit is not reached, that no earlier
access is outstanding, and that the lines it reads are quiet. What it walks to read its block gets its A bits, and lines of a
page in migration are pulled (`launchFill`, R362, R371); where no table stands and no page migrates no byte of memory changes
(R315 - R317). The model's own choices and readings it rests on: logs 5, 29 (DEDUCED). -/
def Obligations.LaunchResult : Prop :=
  ∀ s x (d a : BitVec 6), ctx? s = some x → pairReg a = true → MemFree s x [d.toNat, a.toNat, a.toNat + 1] →
    let p := x.team.part
    let lpb := globalAt x.g a 0
    let q := lpbOf ((unitRead s p x.grid.pasid lpb 128).getD [])
    let list := (unitRead s p x.grid.pasid q.list (16 * q.count)).getD []
    let status := (launchRead s p x.grid.pasid (some x.grid) q list).1
    gridLimit (getPart s p) = false → releaseWaits s x = false →
    (leaderOf x.team ≠ some x.gi → Answers s x (.launch d a) d.toNat 0x09) ∧
    (leaderOf x.team = some x.gi → 10 ≤ x.grid.depth → Answers s x (.launch d a) d.toNat 0x08) ∧
    (leaderOf x.team = some x.gi → x.grid.depth < 10 →
      (lpb % 128 ≠ 0 → Answers s x (.launch d a) d.toNat 0x06) ∧
      (lpb % 128 = 0 → globalFault s x lpb 128 false = none → launchQuiet s p x.grid.pasid lpb q = true →
        (q.count ≠ 0 → q.list % 16 = 0 ∧ globalFault s x q.list (16 * q.count) false = none) →
        (status ≠ 0 → ∃ t g, exec (.launch d a) s = .next t ∧ t = setGroup (launchFill s p x.grid.pasid lpb q) x.core x.gi g ∧
          groupOf t x.core x.gi = some g ∧ g.spc = x.g.spc + 4 ∧ rdS g d.toNat = written x.g d.toNat (BitVec.ofNat 32 status) ∧
          SameScalars x.g g [d.toNat]) ∧
        (status = 0 → ∃ t tm g, exec (.launch d a) s = .next t ∧ teamOf t x.core = some tm ∧
          tm.children = x.team.children ++ [(getPart s p).nextGrid] ∧ groupOf t x.core x.gi = some g ∧ rdS g d.toNat = 0 ∧
          SameScalars x.g g [d.toNat] ∧ g.spc = x.g.spc + 4 ∧ (getPart t p).nextGrid = (getPart s p).nextGrid + 1 ∧
          ∃ r ∈ (getPart t p).grids, r.seq = (getPart s p).nextGrid ∧ r.depth = x.grid.depth + 1 ∧ r.task = x.grid.task ∧
            r.parent = some (x.grid.seq, x.team.index) ∧ r.teams = q.shape % 2 ^ 24 + 1 ∧ r.groups = q.groups ∧ r.region = coreRegion x.core ∧
              (s.pasids = [] → (getPart s p).migs = [] → SameMemory s t))))

/-- SPAWN places its thread in a bin; a key that is no scalar instruction of the kernel raises 0x04; without a bin it waits. JOINC
goes on once every child grid that its team had launched before it has retired, its parent's semaphore incremented, or ended (R40,
R318, R321, R330). -/
def Obligations.SpawnAndJoinResult : Prop :=
  ∀ s x (a b : BitVec 6), ctx? s = some x → MemFree s x [a.toNat, b.toNat] →
    let key := rdS x.g a.toNat
    ((key.toNat % 4 ≠ 0 ∨ 4 * x.grid.hdr.scalarSize ≤ key.toNat) → exec (.spawn a b) s = .next (raise s x { code := 0x04 })) ∧
    (key.toNat % 4 = 0 → key.toNat < 4 * x.grid.hdr.scalarSize →
      (∀ n, binFor x.team key = some n → ∃ t tm q, exec (.spawn a b) s = .next t ∧ teamOf t x.core = some tm ∧
        mget? tm.bins n = some q ∧ GoesOn t x ∧ SameMemory s t ∧
        (∀ o, mget? x.team.bins n = some o → q = { o with args := o.args ++ [rdS x.g b.toNat] }) ∧
        (mget? x.team.bins n = none → q.key = key ∧ q.args = [rdS x.g b.toNat] ∧ q.since = s.now)) ∧
      (binFor x.team key = none → Blocks s x (.spawn a b) (.spawn key (rdS x.g b.toNat)))) ∧
    (let gone := fun (c : Nat) => (∀ i ∈ s.incs, i.retires = true → i.part = x.team.part → i.grid ≠ c) ∧
       ∀ g, gridOf s x.team.part c = some g → g.state = .retired ∨ g.state = .ended
     let kids := match x.g.wait with | .joinc l => l | _ => x.team.children
     ((∀ c ∈ kids, gone c) → Goes s x .joinc (x.g.spc + 4) []) ∧
     ((∃ c ∈ kids, ¬ gone c) → Blocks s x .joinc (.joinc kids)))

/-- XACQ asks for the windows it names and does not hold, and its team's requests are served; XREL gives windows back at once
and serves the requests that wait. A served request that fits gives the group its windows, whose registers read 0 (R34, R332).
The model's own choices and readings it rests on: log 30 (DEDUCED). -/
def Obligations.WindowInstructions : Prop :=
  (∀ s x (w : BitVec 4), ctx? s = some x → MemFree s x [] →
    let want := w &&& ~~~x.g.windows
    let back := w &&& x.g.windows
    (want = 0 → Goes s x (.xacq w) (x.g.spc + 4) []) ∧
    (want ≠ 0 → mget? x.team.xacq x.gi = none →
      exec (.xacq w) s =
        .next (serveWindows (modTeam (scalarWait s x .xacq) x.core fun t => { t with xacq := mput t.xacq x.gi want }) x.core)) ∧
    (windowLoads s x back = false → ∃ g, exec (.xrel w) s = .next (serveWindows (scalarDone s x g) x.core) ∧
      g.windows = x.g.windows &&& ~~~w ∧ SameScalars x.g g [] ∧ g.preds = x.g.preds ∧ g.fps = x.g.fps ∧
      ∀ n, rdRow g n = if 192 ≤ n ∧ bit back.toNat ((n - 192) / 32) = true then [] else rdRow x.g n)) ∧
  (∀ (t : Team) (now i : Nat) (m : BitVec 4) (g : Group), t.xacq = [(i, m)] → mget? t.groups i = some g →
    popMask (m &&& ~~~g.windows) ≤ freeBlocks t →
    ∃ h, mget? (grantWindows 8 now t).groups i = some h ∧ h.windows = g.windows ||| m ∧ h.state = .ready ∧ h.spc = g.spc + 4 ∧
      (∀ n, 192 ≤ n → bit (m &&& ~~~g.windows).toNat ((n - 192) / 32) = true → rdRow h n = []) ∧ (grantWindows 8 now t).xacq = [])

/-- The Schuss controls set the group's enable and budget, in both versions' encodings; with the feature off they are no-ops
(R340, R418). The hints of the scalar stream go on, `shint.skip` arming the skip flag; a prefetch on an address outside the
leases does nothing (R73 - R75). LOC gives where the core is, how far a region is and where an address is at home, in an episode
too, of memory of another panel or of the host its tier with every other field all ones; that LOC.BAND of the core's own region
is 1 is the model's choice, log 47 (R21 - R23). The model's own choices and readings it rests on: log 24 (DEDUCED); log 47
(DESIGN CHOICE). -/
def Obligations.HintAndLocalityResult : Prop :=
  ∀ s x (d a : BitVec 6) (n : BitVec 16) (i : BitVec 14), ctx? s = some x →
    (MemFree s x [] → s.featEn.getLsbD 3 = true → ∀ q ∈ [(Instr.schussOn, true, x.g.budget), (.schussOnV2, true, x.g.budget),
        (.schussOff, false, x.g.budget), (.schussOffV2, false, x.g.budget), (.schussBud n, x.g.schussOn, n),
        (.schussBudV2 n, x.g.schussOn, n)],
      ∃ t g, exec q.1 s = .next t ∧ t = setGroup s x.core x.gi g ∧ g.schussOn = q.2.1 ∧ g.budget = q.2.2 ∧
        g.spc = x.g.spc + 4 ∧ SameScalars x.g g []) ∧
    (MemFree s x [] → s.featEn.getLsbD 3 = false →
      ∀ q ∈ [Instr.schussOn, .schussOnV2, .schussOff, .schussOffV2, .schussBud n, .schussBudV2 n], Goes s x q (x.g.spc + 4) []) ∧
    Goes s x (.nopScalar a i) (x.g.spc + 4) [] ∧
    (inEpisode x = false → ∃ t g, exec (.shintSkip a i) s = .next t ∧ t = setGroup s x.core x.gi g ∧ g.skip = true ∧
      g.spc = x.g.spc + 4 ∧ SameScalars x.g g []) ∧
    (∀ q ∈ [Instr.prefL1 a i, .prefSl a i, .prefTr a i],
      (pairReg a = false → Goes s x q (x.g.spc + 4) []) ∧
      (pairReg a = true → waitsS s x [a.toNat, a.toNat + 1] = false →
        (∃ t, exec q s = .next t ∧ GoesOn t x ∧ SameMemory s t) ∧
        (leaseOk x.grid (globalAt x.g a i.toInt) 1 false = false → Goes s x q (x.g.spc + 4) []))) ∧
    (waitsS s x [d.toNat] = false →
      Answers s x (.locSelf d) d.toNat (BitVec.ofNat 32
        ((match (getDie s (x.core / 32)).cls with | .economy => 0 | .nominal => 1 | .sprint => 2) * 2 ^ 17 +
          coreRegion x.core * 2 ^ 13 + x.core))) ∧
    (waitsS s x [d.toNat, a.toNat] = false →
      let g := coreRegion x.core
      let r := (rdS x.g a.toNat).toNat
      Answers s x (.locBand d a) d.toNat
        (if 15 < r then 0xFFFFFFFF#32
         else
           let hops := (g % 4 - r % 4 + (r % 4 - g % 4)) + (g / 4 - r / 4 + (r / 4 - g / 4))
           BitVec.ofNat 32 (hops * 4 + min (hops + 1) 3))) ∧
    (pairReg a = true → waitsS s x [d.toNat, a.toNat, a.toNat + 1] = false →
      let adr := globalAt x.g a 0
      xlatAtHand s x adr = true →
        ∃ t g, exec (.locHome d a) s = .next t ∧ groupOf t x.core x.gi = some g ∧ g.spc = x.g.spc + 4 ∧
          SameScalars x.g g [d.toNat] ∧ SameMemory s t ∧
          ((leaseOk x.grid adr 1 false = false ∨ (∀ h, translate s x.team.part x.grid.pasid adr ≠ .ok h)) →
            rdS g d.toNat = written x.g d.toNat 0xFFFFFFFF#32) ∧
          (∀ h ms o tier, leaseOk x.grid adr 1 false = true → translate s x.team.part x.grid.pasid adr = .ok h →
            tierOf s x.team.part h = some tier → memHome (getPart s x.team.part) h = some (ms, o) →
            rdS g d.toNat = written x.g d.toNat (BitVec.ofNat 32
              (bandTo x.core (msSite ms) * 2 ^ 14 + tier * 2 ^ 12 + regionOfSite (msSite ms) * 2 ^ 8 + ms))) ∧
          (∀ h tier, leaseOk x.grid adr 1 false = true → translate s x.team.part x.grid.pasid adr = .ok h →
            tierOf s x.team.part h = some tier → 2 ≤ tier →
            rdS g d.toNat = written x.g d.toNat (BitVec.ofNat 32 (3 * 2 ^ 14 + tier * 2 ^ 12 + 0xFFF))))

namespace Sys2Proof.Claims

/-- A field at bit `p`. -/
def bitsAt (p v : Nat) : Nat := v * 2 ^ p
def flag (p : Nat) (b : Bool) : Nat := if b then 2 ^ p else 0

/-- Whether a command that has not completed names tile `n` on the acting core: one of its own team, or a `.pair` command of the
partner that leads it (R156, R177). -/
def tileBusy (s : State) (x : Ctx) (n : Nat) : Bool :=
  let names := fun (q : MatCmd) => q.kind != .mlb && q.tile % 8 == n
  x.team.queue.any names || (x.core % 2 == 1 && x.team.partner.isSome && match teamOf s (x.core - 1) with
    | some t => t.grid == x.team.grid && t.part == x.team.part && t.queue.any fun q => q.pair && names q
    | none => false)

/-- The hottest engine of a set (R351). -/
def hotBits (h : HotReg) : Nat := h.core % 2 ^ 13 + bitsAt 16 h.temp.toNat + flag 31 h.valid

/-- Region boundaries between two regions, which form a grid of 4 by 4 (R5, R22). -/
def hopsTo (g r : Nat) : Nat := (g % 4 - r % 4 + (r % 4 - g % 4)) + (g / 4 - r / 4 + (r / 4 - g / 4))

/-- The registers of region g as a team of the partition reads them: 0 where it has no site there (R349, R351). -/
def regionTable (s : State) (x : Ctx) (g : Nat) : List (Nat × Nat) :=
  let r := getRegion s g
  let p := mget {} r.power x.team.part
  let l := [(0x200 + g, r.pwrcfg.toNat), (0x210 + g, r.thermcfg.toNat),
    (0x220 + g, p.rate % 2 ^ 7 + flag 7 r.droop + flag 8 r.therm + flag 9 p.bound + bitsAt 10 (p.iest % 2 ^ 12)),
    (0x230 + g, p.evt.toNat + bitsAt 24 p.stepViol.toNat), (0x240 + g, hotBits p.hot),
    (0x250 + g, ((mget 0 s.dcBase g).toNat + s.now / 4) % 2 ^ 64), (0x260 + g, (mget 0 s.dcOff g).toNat)]
  if hasRegion (getPart s x.team.part) g then l else l.map fun q => (q.1, 0)

/-- The registers of Noon context k (R328). -/
def noonTable (s : State) (x : Ctx) (k : Nat) : List (Nat × Nat) :=
  let v := mget {} (getPart s x.team.part).noon k
  [(0x100 + k, v.addr.toNat), (0x104 + k, flag 1 v.armed + flag 2 (!v.saved.isEmpty) + flag 3 v.armErr), (0x108 + k, v.gen.toNat)]

/-- What every system register reads as (Table 20-5, R130, R177, R328, R331, R335, R351, R393, R412). -/
def sysTable (s : State) (x : Ctx) : List (Nat × Nat) :=
  let k := getCore s x.core
  [(0x001, x.team.ovf.toNat + bitsAt 8 (sumOf ((List.range 8).map fun n => flag n (tileBusy s x n))) + flag 16 (slaved s x.core)),
   (0x003, sumOf ((List.range 16).map fun h => bitsAt (2 * h) (min (hopsTo (coreRegion x.core) h + 1) 3))),
   (0x004, hotBits (getPart s x.team.part).hotid)] ++
  (List.range 4).flatMap (noonTable s x) ++ (List.range 16).flatMap (regionTable s x) ++
  ((List.range 9).flatMap fun i => [(0x300 + i, (mget 0 k.scalarSched.elig i).toNat), (0x310 + i, (mget 0 k.laneSched.elig i).toNat)]) ++
  ((List.range 16).flatMap fun r => [(0x320 + r, (mget 0 k.scalarSched.stall r).toNat), (0x330 + r, (mget 0 k.laneSched.stall r).toNat)]) ++
  [(0x000, x.g.fps.toNat), (0x002, (getCore s x.core).spwcfg.toNat), (0x005, (getCore s x.core).emul.toNat),
   (0x010, x.g.trap.tvec.toNat),
   (0x011, (if x.g.trap.h then 1 else 0) + (if x.g.lane.suspended then 2 else 0)), (0x012, x.g.trap.tepc.toNat),
   (0x013, x.g.trap.tlpc.toNat), (0x014, x.g.trap.tcause.toNat), (0x015, x.g.trap.taddr.toNat),
   (0x016, (wordOf x.g.trap.tmask 0).toNat), (0x017, (wordOf x.g.trap.tmask 1).toNat), (0x018, (wordOf x.g.trap.tmask 2).toNat)]

/-- Registers that a program cannot change (R404): at every depth, and of those that a deeper grid may not write at all. -/
def readOnlySys (n : Nat) : Bool := [3, 4, 5, 0x11, 0x14, 0x15, 0x16, 0x17, 0x18].contains n || 0x250 ≤ n
def readOnlyTop (n : Nat) : Bool := n / 4 == 0x42 || n / 16 == 0x22 || n / 16 == 0x24

/-- A write of a Noon register leaves its context k as `v` and the others as they were; the group goes on. -/
def NoonBecomes (s t : State) (x : Ctx) (k : Nat) (v : Noon) : Prop :=
  GoesOn t x ∧ ∀ j, mget {} (getPart t x.team.part).noon j = if j = k then v else mget {} (getPart s x.team.part).noon j

/-- A write of a power register changes its region alone, to `r`; the group goes on. -/
def RegionBecomes (s t : State) (x : Ctx) (g : Nat) (r : Region) : Prop :=
  GoesOn t x ∧ SameMemory s t ∧ ∀ j, getRegion t j = if j = g then r else getRegion s j

/-- What a SYSWR to register n does to the contexts of Noon, from a grid at depth 0 and w being the low word written (R328, R352).
NBCTL clears ARMERR, and arms with the image once the stream's earlier accesses, the core's writes to the image and those its group
has acquired are made and every line of it is quiet: no arrival may be pending and no core outside the partition be named. The mask
is that of the image without retired cores, where no team of the partition is Saved, or stands on or was moved off a retired core
(of those, log 33). -/
def NoonWrites (s : State) (x : Ctx) (d : BitVec 6) (n : BitVec 12) : Prop :=
  let i := Instr.syswr d n
  let p := x.team.part
  let w := rdS x.g d.toNat
  ∀ k, k < 4 →
    let old := mget {} (getPart s p).noon k
    let cleared : Noon := if w.getLsbD 3 then { old with armErr := false } else old
    let s0 := if w.getLsbD 3 then modPart s p fun q => { q with noon := mput q.noon k cleared } else s
    let a := cleared.addr.toNat
    (n.toNat = 0x100 + k → ∃ t, exec i s = .next t ∧ SameMemory s t ∧
      NoonBecomes s t x k { old with addr := BitVec.ofNat 57 (pairOr0 x.g d) }) ∧
    (n.toNat = 0x104 + k →
      (w.getLsbD 0 = false → ∃ t, exec i s = .next t ∧ SameMemory s t ∧ NoonBecomes s t x k cleared) ∧
      (w.getLsbD 0 = true → a % 64 ≠ 0 → ∃ t, exec i s = .next t ∧ SameMemory s t ∧
        NoonBecomes s t x k { cleared with armErr := true }) ∧
      (w.getLsbD 0 = true → a % 64 = 0 →
        (∀ code, globalFault s x a 1024 false = some code → exec i s = .next (raise s x { code := code, addr := a })) ∧
        (globalFault s x a 1024 false = none → acqPending x = false →
          ((getCore s x.core).ops.any fun o => o.group == x.gi && (!x.g.lane.started || !o.lane)) = false →
          hearWaits s x = false → bytesOwed s x a 1024 = false → reachOf s p x.grid.pasid a 1024 = .ready →
          let named := maskCores (readV s0 p x.grid.pasid 0 (coreRegion x.core) a 1024).2
          let mask := named.filter fun c => !(getCore s c).retired
          let bad := noonPending s p k || mask.any fun c => !inRect (getPart s p) (coreSite c)
          ∃ t, exec i s = .next t ∧ (bad = true → NoonBecomes s t x k { cleared with armErr := true }) ∧
            (bad = false → ∃ v, NoonBecomes s t x k v ∧ v.armed = true ∧ v.gen = 0 ∧ v.arrived = [] ∧
              v.addr = cleared.addr ∧ v.armErr = cleared.armErr ∧
              ((getPart s p).saved = [] → (∀ c tm, teamOf s c = some tm → tm.part = p → tm.stood = [] ∧ (getCore s c).retired = false) →
                v.next = v.mask ∧ ∀ c, c ∈ v.mask ↔ c ∈ mask)))))

/-- What a SYSWR to register n does to the power registers, from a grid at depth 0 and w being the word written: STEPLIM and TLIM
stay, PWREVT sets the counts that the partition itself reads, and a region where the partition has no site stays whole (R351, R378,
R404). -/
def PowerWrites (s : State) (x : Ctx) (d : BitVec 6) (n : BitVec 12) : Prop :=
  let i := Instr.syswr d n
  let p := x.team.part
  let w := rdS x.g d.toNat
  ∀ g, g < 16 →
    let r := getRegion s g
    let here := hasRegion (getPart s p) g
    (n.toNat = 0x200 + g → ∃ t c, exec i s = .next t ∧ RegionBecomes s t x g (if here then { r with pwrcfg := c } else r) ∧
      c.toNat = r.pwrcfg.toNat % 2 ^ 12 + bitsAt 12 (w.toNat / 2 ^ 12 % 2 ^ 14)) ∧
    (n.toNat = 0x210 + g → ∃ t c, exec i s = .next t ∧ RegionBecomes s t x g (if here then { r with thermcfg := c } else r) ∧
      c.toNat = r.thermcfg.toNat % 2 ^ 8 + bitsAt 8 (w.toNat / 2 ^ 8 % 2 ^ 7)) ∧
    (n.toNat = 0x230 + g → ∃ t m, exec i s = .next t ∧ RegionBecomes s t x g (if here then { r with power := m } else r) ∧
      ∀ q, mget {} m q = if q = p then { mget {} r.power p with evt := w.extractLsb' 0 24, stepViol := w.extractLsb' 24 8 }
        else mget {} r.power q)

end Sys2Proof.Claims

/-- SYSRD reads every system register into one register or a pair, with the value of `sysTable`; SYSWR writes those that can be
written, the Noon and power registers from a grid at depth 0, and leaves a read-only one as it is. An unassigned number is
illegal, and a Noon or power register written by a deeper grid takes the fault 0x11 (R328, R351, R352, R404, Table 20-5). The
model's own choices and readings it rests on: log 31 (PRESUMED). -/
def Obligations.SystemRegisterResult : Prop :=
  ∀ s x (d : BitVec 6) (n : BitVec 12), ctx? s = some x →
    (sysOk d n = false → exec (.sysrd d n) s = .next (raise s x { code := 0x01 }) ∧
      exec (.syswr d n) s = .next (raise s x { code := 0x01 })) ∧
    (sysOk d n = true → waitsS s x (d.toNat :: if sysWide n.toNat then [d.toNat + 1] else []) = false →
      (∃ q ∈ sysTable s x, q.1 = n.toNat) ∧
      (∀ q ∈ sysTable s x, q.1 = n.toNat →
        (sysWide n.toNat = false → Answers s x (.sysrd d n) d.toNat (BitVec.ofNat 32 q.2)) ∧
        (sysWide n.toNat = true → ∃ t g, exec (.sysrd d n) s = .next t ∧ t = setGroup s x.core x.gi g ∧ g.spc = x.g.spc + 4 ∧
          SameScalars x.g g [d.toNat, d.toNat + 1] ∧
          (d ≠ 0 → rdS g d.toNat = BitVec.ofNat 32 q.2 ∧ rdS g (d.toNat + 1) = BitVec.ofNat 32 (q.2 / 2 ^ 32)) ∧
          (d = 0 → SameScalars x.g g []))) ∧
      (inEpisode x = false →
        let w := rdS x.g d.toNat
        (depthZeroReg n.toNat = true → x.grid.depth ≠ 0 → exec (.syswr d n) s = .next (raise s x { code := 0x11 })) ∧
        (x.grid.depth = 0 →
          NoonWrites s x d n ∧ PowerWrites s x d n ∧ (readOnlyTop n.toNat = true → Goes s x (.syswr d n) (x.g.spc + 4) [])) ∧
        (readOnlySys n.toNat = true → Goes s x (.syswr d n) (x.g.spc + 4) []) ∧
        (n = 0x002 → ∃ t k, exec (.syswr d n) s = .next t ∧ getCore t x.core = k ∧ k.spwcfg = w.extractLsb' 0 16 ∧ SameMemory s t) ∧
        ((n = 0x000 ∨ n = 0x010 ∨ n = 0x012 ∨ n = 0x013) → ∃ t g, exec (.syswr d n) s = .next t ∧ t = setGroup s x.core x.gi g ∧
          g.spc = x.g.spc + 4 ∧ SameScalars x.g g [] ∧ g.fps = (if n = 0x000 then w.extractLsb' 0 5 else x.g.fps) ∧
          g.trap = { x.g.trap with
            tvec := if n = 0x010 then w &&& 0xFFFFFFFC#32 else x.g.trap.tvec, tepc := if n = 0x012 then w else x.g.trap.tepc,
            tlpc := if n = 0x013 then w else x.g.trap.tlpc }) ∧
        (n = 0x001 → ∃ t tm, exec (.syswr d n) s = .next t ∧ teamOf t x.core = some tm ∧
          tm.ovf = x.team.ovf &&& ~~~(w.extractLsb' 0 8))))

namespace Sys2Proof.Claims

/-- A fault stands delivered in a group (R394): the handler's address is the scalar PC, and the trap registers say where the
streams resume and what happened. A running lane stream is suspended, and its path-switch timer held; a word of it that gathered its
reads, or waited as a release, starts anew. No register of the program changes. -/
def Delivered (t : State) (x : Ctx) (f : FaultInfo) (resume : Word) (lane : Bool) : Prop :=
  ∃ g, groupOf t x.core x.gi = some g ∧ g.trap.h = true ∧ g.trap.tvec = x.g.trap.tvec ∧ g.trap.tepc = resume ∧
    g.trap.tcause = causeWord f lane ∧ g.trap.taddr = BitVec.ofNat 57 f.addr ∧ g.trap.tmask = f.mask ∧
    (x.g.lane.running = true → g.trap.tlpc = BitVec.ofNat 32 x.g.lane.lpc) ∧
    (x.g.lane.running = false → g.trap.tlpc = x.g.trap.tlpc) ∧
    g.lane = (if x.g.lane.running = true then
        { x.g.lane with suspended := true, fenceAt := none, gathered := none, offSince := none,
                        offHeld := match x.g.lane.offSince with | some u => t.now - u | none => 0 }
      else { x.g.lane with suspended := false, fenceAt := none, gathered := none }) ∧
    g.spc = x.g.trap.tvec &&& 0xFFFFFFFC#32 ∧ g.state = (if x.g.state = .blocked then .ready else x.g.state) ∧
    SameScalars x.g g [] ∧ g.preds = x.g.preds ∧ g.vregs = x.g.vregs ∧ g.fps = x.g.fps

/-- A task is over: none of its grids is live and none of its teams stands on a core (Table 14-3). -/
def TaskOver (s t : State) (p task : Nat) : Prop :=
  (∀ q ∈ (getPart t p).grids, q.task = task → q.state = .ended ∨ q.state = .retired) ∧
  (∀ c tm, teamOf t c = some tm → tm.part = p → ∀ q ∈ (getPart s p).grids, q.task = task → tm.grid ≠ q.seq)

/-- A record of a fault is on its way to its partition's ring. -/
def Recorded (t : State) (x : Ctx) (code aux addr : Nat) (ends : Bool) : Prop :=
  ∃ r ∈ (getPart t x.team.part).records, r.code = code ∧ r.aux = BitVec.ofNat 32 aux ∧ r.addr = BitVec.ofNat 57 addr ∧
    r.ends = ends ∧ r.core = x.core ∧ r.group = x.gi ∧ r.grid = x.grid.seq ∧ r.team = x.team.index ∧ r.pasid = x.grid.pasid ∧
    r.lane = x.lane ∧ r.pc = (if x.lane then BitVec.ofNat 32 x.g.lane.lpc else x.g.spc)

end Sys2Proof.Claims

/-- TAKING A FAULT. An H fault of a group with a handler that is not in handler mode is delivered there; any other ends the task
with a record, under code 0x25 when the group was in handler mode (R389, R394). The model's own choices and readings it rests
on: log 32 (DEDUCED). -/
def Obligations.TakingAFault : Prop :=
  ∀ s x (f : FaultInfo), ctx? s = some x → x.g.episode = none →
    (f.code < 0x20 → handles x.g = true →
      Delivered (raise s x f) x f x.g.spc x.lane ∧ SameMemory s (raise s x f)) ∧
    ((0x20 ≤ f.code ∨ x.g.trap.tvec.toNat / 4 = 0 ∨ x.g.trap.h = true) →
      TaskOver s (raise s x f) x.team.part x.grid.task ∧
      (bit (getPart s x.team.part).fqcfg.toNat 0 = true →
        (f.code < 0x20 ∧ x.g.trap.h = true → Recorded (raise s x f) x 0x25 f.code f.addr true) ∧
        (¬ (f.code < 0x20 ∧ x.g.trap.h = true) → Recorded (raise s x f) x f.code f.aux f.addr true)))

/-- TRAP is delivered to the handler, resuming behind it, or recorded, and goes on; BRK is delivered with the debug stop off,
and without a handler has no effect; TRET resumes both streams, or with TLPC all ones ends the lane stream as if its paths had
reached LEND, and leaves handler mode, and is illegal outside it; a word without a meaning raises 0x01 (R57, R396, R407, R408).
The model's own choices and readings it rests on: logs 32, 33 (DEDUCED). -/
def Obligations.TrapInstructionResult : Prop :=
  ∀ s x (n : BitVec 12), ctx? s = some x →
    (∀ slot, exec (.illegalInstruction x.lane slot) s = .next (raise s x { code := 0x01, slot := slot })) ∧
    (x.g.trap.h = false → exec .tret s = .next (raise s x { code := 0x01 })) ∧
    (x.g.episode = none →
      (handles x.g = true → ∃ t, exec (.trap n) s = .next t ∧
        Delivered t x { code := 0x18, aux := n.toNat } (x.g.spc + 4) false ∧ SameMemory s t) ∧
      (handles x.g = false → bufferFull s x.team.part (dieOf x.core) = false → ∃ t, exec (.trap n) s = .next t ∧ GoesOn t x ∧
        SameMemory s t ∧ (bit (getPart s x.team.part).fqcfg.toNat 0 = true → Recorded t x 0x18 n.toNat 0 false)) ∧
      ((getPart s x.team.part).dbg = false →
        (handles x.g = true → ∃ t, exec (.brk n) s = .next t ∧
          Delivered t x { code := 0x19, aux := n.toNat } (x.g.spc + 4) false ∧ SameMemory s t) ∧
        (handles x.g = false → Goes s x (.brk n) (x.g.spc + 4) [])) ∧
      (x.g.trap.h = true → ∃ t g, exec .tret s = .next t ∧ t = setGroup s x.core x.gi g ∧ g.trap.h = false ∧
        g.spc = x.g.trap.tepc ∧ SameScalars x.g g [] ∧ g.preds = x.g.preds ∧ g.vregs = x.g.vregs ∧ SameMemory s t ∧
        (x.g.lane.suspended = false → g.lane = x.g.lane) ∧
        (x.g.lane.suspended = true → x.g.trap.tlpc = 0xFFFFFFFF#32 → g.lane.running = false ∧
          ∀ k, k < 3 → rdV g (61 + k) = wordOf (x.g.lane.ended ||| pathThreads x.g) k &&& wordOf x.g.live k) ∧
        (x.g.lane.suspended = true → x.g.trap.tlpc ≠ 0xFFFFFFFF#32 → laneMask x.g ≠ 0 →
          x.g.lane.rpc ≠ some x.g.trap.tlpc.toNat →
          g.lane = { x.g.lane with
            suspended := false, lpc := x.g.trap.tlpc.toNat, offSince := g.lane.offSince, offHeld := g.lane.offHeld } ∧
          (x.g.lane.running = true → g.lane.offHeld = 0))))

/-! ## Lane words from register to register (spec/05, spec/06) -/

namespace Sys2Proof.Claims

/-- A lane operation of the acting lane stream may complete: no illegal field, every vector register held, no outstanding load on a
register it names, and no episode of its stream (R33, R72, R114, R338). -/
def LaneFree (s : State) (x : Ctx) (op : LaneOp) (w : LaneWord) : Prop :=
  x.lane = true ∧ inEpisode x = false ∧ aluLegal op w = true ∧ badReg x (namedRegs op w) = none ∧
    waitsL s x (vecUses op w) (scalUses op w) = false

/-- The threads whose destination a word writes, and the thread whose operands give the value of thread u: each considered
thread's own; with U = 1 every active thread's from the lowest active one, if its guard passes (R66, R112). -/
def laneTargets (x : Ctx) (w : LaneWord) : Mask :=
  if w.u = 1 then
    match mfirst (activeMask x.g) with
    | some f => if mtest (guardMask x.g w) f = true then activeMask x.g else 0
    | none => 0
  else considered x.g w
def laneSource (x : Ctx) (w : LaneWord) (u : Nat) : Nat := if w.u = 1 then (mfirst (activeMask x.g)).getD 0 else u

/-- A lane word completes with the values and flags of `v`, a function of thread and operands, all read before anything is written:
its vector or predicate destination changes in the threads it writes, a view register of a uniform word receives the one value, and
no other register does; the flags of the threads written join the lane stream's own (R111, R112, R132). `g0` is the group as the
word leaves it, before ended paths are popped: in it a write to s61 to s63 is ANDed with the live mask (R25). -/
def LaneResult (s : State) (x : Ctx) (i : Instr) (op : LaneOp) (w : LaneWord) (v : Nat → Word → Word → Word → Word × Flags) : Prop :=
  let use := srcUse op w.mod.toNat
  let val := fun (u : Nat) =>
    let f := laneSource x w u
    v f (operand x.g use.1 w.srcA.toNat w.rtA.toNat f) (operand x.g use.2.1 w.srcB.toNat w.rtB.toNat f)
      (operand x.g use.2.2 w.srcC.toNat w.rtC.toNat f)
  let d := w.dst.toNat
  let T := laneTargets x w
  ∃ t g g0, exec i s = .next t ∧ t = setGroup s x.core x.gi g ∧ SameScalarStream x.g g ∧ SameMemory s t ∧ t = laneDone s x g0 ∧
    (∀ k, k < 3 → rdV g0 (61 + k) =
      if fieldKind d = .scal ∧ d = 381 + k ∧ T ≠ 0 then (val 0).1 &&& wordOf x.g.live k else rdV x.g (61 + k)) ∧
    (∀ n u, u < 96 → rdVec g n u = if fieldKind d = .vec ∧ n = d ∧ mtest T u = true then (val u).1 else rdVec x.g n u) ∧
    (∀ n u, u < 96 → mtest (rdP g n) u =
      if fieldKind d = .pred ∧ n = d - 384 ∧ n ≠ 0 ∧ mtest T u = true then decide ((val u).1 ≠ 0) else mtest (rdP x.g n) u) ∧
    (∀ n, n < 61 → rdV g n = if fieldKind d = .scal ∧ n = d - 320 ∧ n ≠ 0 ∧ T ≠ 0 then (val 0).1 else rdV x.g n) ∧
    g.lane.fps = (List.range 96).foldl (fun acc u => if mtest T u = true then acc ||| (val u).2 else acc) x.g.lane.fps ∧
    (x.g.lane.running = true → laneMask x.g ≠ 0 → x.g.lane.rpc ≠ some (x.g.lane.lpc + 1) → fieldKind d ≠ .scal →
      g.lane.lpc = x.g.lane.lpc + 1 ∧ g.lane.stack = x.g.lane.stack ∧ laneMask g = laneMask x.g)

abbrev LaneEntry := Instr × LaneOp × (Nat → Word → Word → Word → Word × Flags)

/-- An integer operation: no flag. -/
def noFlag (f : Nat → Word → Word → Word → Word) : Nat → Word → Word → Word → Word × Flags := fun t a b c => (f t a b c, 0)

/-- A field of `w` bits as a signed integer, and a sum of products of such fields (R121). -/
def dotSigned (n k : Nat) (a b : Word) : Int :=
  ((List.range k).map fun i => (a.extractLsb' (n * i) n).toInt * (b.extractLsb' (n * i) n).toInt).foldl (· + ·) 0
def dotUnsigned (n k : Nat) (a b : Word) : Nat :=
  ((List.range k).map fun i => (a.extractLsb' (n * i) n).toNat * (b.extractLsb' (n * i) n).toNat).foldl (· + ·) 0
def clampS (sat : Bool) (v : Int) : Word := BitVec.ofInt 32 (if sat then max (-2 ^ 31) (min (2 ^ 31 - 1) v) else v)
def clampZ (sat : Bool) (v : Nat) : Word := BitVec.ofNat 32 (if sat then min (2 ^ 32 - 1) v else v)

/-- Position and width of a field as operand B gives them (R119). -/
def posOf (b : Word) : Nat := b.toNat % 2 ^ 8
def widthOf (b : Word) : Nat := min (b.toNat / 2 ^ 8 % 2 ^ 8) 32

/-- The integer and bit operations of Table 5-2 with two sources at most (R115). -/
def laneIntTable (w : LaneWord) : List LaneEntry :=
  [(.mov w, .mov, noFlag fun _ _ b _ => b), (.tidx w, .tidx, noFlag fun t _ _ _ => BitVec.ofNat 32 t),
   (.addI32 w, .addI32, noFlag fun _ a b _ => BitVec.ofNat 32 (a.toNat + b.toNat)),
   (.subI32 w, .subI32, noFlag fun _ a b _ => BitVec.ofInt 32 ((a.toNat : Int) - b.toNat)),
   (.mulI32 w, .mulI32, noFlag fun _ a b _ => BitVec.ofNat 32 (a.toNat * b.toNat)),
   (.mulhS32 w, .mulhS32, noFlag fun _ a b _ => BitVec.ofInt 32 (a.toInt * b.toInt / 2 ^ 32)),
   (.mulhZ32 w, .mulhZ32, noFlag fun _ a b _ => BitVec.ofNat 32 (a.toNat * b.toNat / 2 ^ 32)),
   (.minS32 w, .minS32, noFlag fun _ a b _ => BitVec.ofInt 32 (min a.toInt b.toInt)),
   (.minZ32 w, .minZ32, noFlag fun _ a b _ => BitVec.ofNat 32 (min a.toNat b.toNat)),
   (.maxS32 w, .maxS32, noFlag fun _ a b _ => BitVec.ofInt 32 (max a.toInt b.toInt)),
   (.maxZ32 w, .maxZ32, noFlag fun _ a b _ => BitVec.ofNat 32 (max a.toNat b.toNat)),
   (.absS32 w, .absS32, noFlag fun _ _ b _ => BitVec.ofNat 32 b.toInt.natAbs),
   (.negS32 w, .negS32, noFlag fun _ _ b _ => BitVec.ofInt 32 (-b.toInt)),
   (.andB32 w, .andB32, noFlag fun _ a b _ => a &&& b), (.orB32 w, .orB32, noFlag fun _ a b _ => a ||| b),
   (.xorB32 w, .xorB32, noFlag fun _ a b _ => a ^^^ b), (.andnB32 w, .andnB32, noFlag fun _ a b _ => a &&& ~~~b),
   (.notB32 w, .notB32, noFlag fun _ _ b _ => ~~~b),
   (.shlB32 w, .shlB32, noFlag fun _ a b _ => if 32 ≤ b.toNat then 0 else BitVec.ofNat 32 (a.toNat * 2 ^ b.toNat)),
   (.shrZ32 w, .shrZ32, noFlag fun _ a b _ => if 32 ≤ b.toNat then 0 else BitVec.ofNat 32 (a.toNat / 2 ^ b.toNat)),
   (.shrS32 w, .shrS32, noFlag fun _ a b _ =>
     if 32 ≤ b.toNat then (if a.msb then 0xFFFFFFFF#32 else 0) else BitVec.ofInt 32 (a.toInt / 2 ^ b.toNat)),
   (.popcB32 w, .popcB32, noFlag fun _ _ b _ => BitVec.ofNat 32 ((List.range 32).countP fun i => b.getLsbD i)),
   (.clzB32 w, .clzB32, noFlag fun _ _ b _ => BitVec.ofNat 32 (((List.range 32).find? fun k => b.getLsbD (31 - k)).getD 32)),
   (.brevB32 w, .brevB32, noFlag fun _ _ b _ => b.reverse)]

/-- Those with three sources (R117 - R121). -/
def laneThreeTable (w : LaneWord) : List LaneEntry :=
  let sat := w.mod.getLsbD 0
  [(.madI32 w, .madI32, noFlag fun _ a b c => BitVec.ofNat 32 (a.toNat * b.toNat + c.toNat)),
   (.mulhMadS32 w, .mulhMadS32, noFlag fun _ a b c => BitVec.ofInt 32 ((a.toInt * b.toInt + c.toInt) / 2 ^ 32)),
   (.fshRB32 w, .fshRB32, noFlag fun _ a b c => ((a ++ b : BitVec 64) >>> (c.toNat % 32)).setWidth 32),
   (.fshLB32 w, .fshLB32, noFlag fun _ a b c => ((a ++ b : BitVec 64) <<< (c.toNat % 32)).extractLsb' 32 32),
   (.bfeZ32 w, .bfeZ32, noFlag fun _ a b _ => BitVec.ofNat 32 (a.toNat / 2 ^ posOf b % 2 ^ widthOf b)),
   (.bfeS32 w, .bfeS32, noFlag fun _ a b _ => BitVec.ofInt 32 ((a.sshiftRight (posOf b)).extractLsb' 0 (widthOf b)).toInt),
   (.bfiB32 w, .bfiB32, noFlag fun _ a b c =>
     let hole : Word := (BitVec.allOnes (widthOf b)).setWidth 32 <<< posOf b
     (c &&& ~~~hole) ||| ((a <<< posOf b) &&& hole)),
   (.selB32 w, .selB32, noFlag fun _ a b c => if c = 0 then b else a),
   (.dot4S8 w, .dot4S8, noFlag fun _ a b c => clampS sat (c.toInt + dotSigned 8 4 a b)),
   (.dot4Z8 w, .dot4Z8, noFlag fun _ a b c => clampZ sat (c.toNat + dotUnsigned 8 4 a b)),
   (.dot2S16 w, .dot2S16, noFlag fun _ a b c => clampS sat (c.toInt + dotSigned 16 2 a b)),
   (.dot2Z16 w, .dot2Z16, noFlag fun _ a b c => clampZ sat (c.toNat + dotUnsigned 16 2 a b))]

/-- The integer conditions of mod[3:0] (R116), and the combination with predicate C of mod[5:4]. -/
def intCond (n : Nat) (a b : Word) : Bool :=
  ([decide (a = b), decide (a ≠ b), decide (a.toInt < b.toInt), decide (a.toInt ≤ b.toInt), decide (b.toInt < a.toInt),
    decide (b.toInt ≤ a.toInt), decide (a.toNat < b.toNat), decide (a.toNat ≤ b.toNat), decide (b.toNat < a.toNat),
    decide (b.toNat ≤ a.toNat)] : List Bool).getD n false
def combined (w : LaneWord) (r : Bool) (c : Word) : Bool :=
  match w.mod.toNat / 16 % 4 with
  | 0 => r
  | 1 => r && decide (c ≠ 0)
  | _ => r || decide (c ≠ 0)

/-- A truth value: 1 or 0, and all ones in a vector destination of a long compare. -/
def truth (w : LaneWord) (r : Bool) : Word :=
  if r then (if fieldKind w.dst.toNat = .vec then 0xFFFFFFFF#32 else 1) else 0
def oneIf (r : Bool) : Word := if r then 1 else 0

/-- The compares and the predicate operations (R116, R122). -/
def laneCmpTable (w : LaneWord) : List LaneEntry :=
  [(.cmpEqI32 w, .cmpEqI32, noFlag fun _ a b _ => oneIf (intCond 0 a b)),
   (.cmpNeI32 w, .cmpNeI32, noFlag fun _ a b _ => oneIf (intCond 1 a b)),
   (.cmpLtS32 w, .cmpLtS32, noFlag fun _ a b _ => oneIf (intCond 2 a b)),
   (.cmpLeS32 w, .cmpLeS32, noFlag fun _ a b _ => oneIf (intCond 3 a b)),
   (.cmpLtZ32 w, .cmpLtZ32, noFlag fun _ a b _ => oneIf (intCond 6 a b)),
   (.cmpLeZ32 w, .cmpLeZ32, noFlag fun _ a b _ => oneIf (intCond 7 a b)),
   (.cmpI32 w, .cmpI32, noFlag fun _ a b c => truth w (combined w (intCond (w.mod.toNat % 16) a b) c)),
   (.pand w, .pand, noFlag fun _ a b _ => a &&& b), (.por w, .por, noFlag fun _ a b _ => a ||| b),
   (.pxor w, .pxor, noFlag fun _ a b _ => a ^^^ b), (.pandn w, .pandn, noFlag fun _ a b _ => a &&& ~~~b)]

/-- The rounding mode of a word (R129), a value rounded once to a format with its flags, and both 16-bit halves of a packed word. -/
def modeOf (w : LaneWord) : Rnd := ([Rnd.rne, .rtz, .rup, .rdn] : List Rnd).getD (w.mod.toNat / 64 % 4) .rdn
def roundTo (f : Fmt) (mode : Rnd) (v : FVal × Flags) : Nat × Flags := ((roundF f mode false v.1).1, (roundF f mode false v.1).2 ||| v.2)
def toWord (r : Nat × Flags) : Word × Flags := (BitVec.ofNat 32 r.1, r.2)
def halfwise (f : Nat → Nat → Nat → Nat × Flags) (a b c : Word) : Word × Flags :=
  let lo := f (a.toNat % 2 ^ 16) (b.toNat % 2 ^ 16) (c.toNat % 2 ^ 16)
  let hi := f (a.toNat / 2 ^ 16) (b.toNat / 2 ^ 16) (c.toNat / 2 ^ 16)
  (BitVec.ofNat 32 (lo.1 + 2 ^ 16 * hi.1), lo.2 ||| hi.2)

/-- The exact sum, difference, product and fused product-sum of two or three patterns, rounded once (R135, R136). -/
def faddTo (f : Fmt) (m : Rnd) (a b _c : Nat) : Nat × Flags := roundTo f m (addV m (decodeF f a) (decodeF f b))
def fsubTo (f : Fmt) (m : Rnd) (a b _c : Nat) : Nat × Flags := roundTo f m (addV m (decodeF f a) (decodeF f b).negate)
def fmulTo (f : Fmt) (m : Rnd) (a b _c : Nat) : Nat × Flags := roundTo f m (mulV (decodeF f a) (decodeF f b))
def ffmaTo (f : Fmt) (m : Rnd) (a b c : Nat) : Nat × Flags := roundTo f m (fmaV m (decodeF f a) (decodeF f b) (decodeF f c))
def fextTo (f : Fmt) (mx : Bool) (w : LaneWord) (a b _c : Nat) : Nat × Flags := (minMax f mx (w.mod.getLsbD 0) a b, 0)

/-- The floating-point arithmetic of Table 6-1 (R135 - R140). -/
def laneFloatTable (w : LaneWord) : List LaneEntry :=
  let m := modeOf w
  let one := fun (f : Nat → Nat → Nat → Nat × Flags) (_ : Nat) (a b c : Word) => toWord (f a.toNat b.toNat c.toNat)
  let two := fun (f : Nat → Nat → Nat → Nat × Flags) (_ : Nat) (a b c : Word) => halfwise f a b c
  let cmp := fun (n : Nat) (_ : Nat) (a b _ : Word) => (oneIf (condF n (f32 a) (f32 b)).1, (condF n (f32 a) (f32 b)).2)
  [(.addF32 w, .addF32, one (faddTo .f32 m)), (.subF32 w, .subF32, one (fsubTo .f32 m)), (.mulF32 w, .mulF32, one (fmulTo .f32 m)),
   (.fmaF32 w, .fmaF32, one (ffmaTo .f32 m)), (.minF32 w, .minF32, one (fextTo .f32 false w)),
   (.maxF32 w, .maxF32, one (fextTo .f32 true w)),
   (.addF16x2 w, .addF16x2, two (faddTo .f16 m)), (.subF16x2 w, .subF16x2, two (fsubTo .f16 m)),
   (.mulF16x2 w, .mulF16x2, two (fmulTo .f16 m)), (.fmaF16x2 w, .fmaF16x2, two (ffmaTo .f16 m)),
   (.minF16x2 w, .minF16x2, two (fextTo .f16 false w)), (.maxF16x2 w, .maxF16x2, two (fextTo .f16 true w)),
   (.addBf16x2 w, .addBf16x2, two (faddTo .bf16 m)), (.subBf16x2 w, .subBf16x2, two (fsubTo .bf16 m)),
   (.mulBf16x2 w, .mulBf16x2, two (fmulTo .bf16 m)), (.fmaBf16x2 w, .fmaBf16x2, two (ffmaTo .bf16 m)),
   (.minBf16x2 w, .minBf16x2, two (fextTo .bf16 false w)), (.maxBf16x2 w, .maxBf16x2, two (fextTo .bf16 true w)),
   (.cmpEqF32 w, .cmpEqF32, cmp 0), (.cmpLtF32 w, .cmpLtF32, cmp 2), (.cmpLeF32 w, .cmpLeF32, cmp 3),
   (.cmpF32 w, .cmpF32, fun _ a b c =>
     let r := condF (w.mod.toNat % 16) (f32 a) (f32 b)
     (truth w (combined w r.1 c), r.2)),
   (.cmpF16x2 w, .cmpF16x2, fun _ a b c => cmpPacked .f16 w.mod.toNat (fieldKind w.dst.toNat == .vec) a b c),
   (.cmpBf16x2 w, .cmpBf16x2, fun _ a b c => cmpPacked .bf16 w.mod.toNat (fieldKind w.dst.toNat == .vec) a b c),
   (.classF32 w, .classF32, fun _ _ b _ => (BitVec.ofNat 32 (classMask (f32 b)), 0)),
   (.rndF32 w, .rndF32, fun _ _ b _ => (BitVec.ofNat 32 (rndBits .f32 m b.toNat), 0)),
   (.rndF16x2 w, .rndF16x2, two fun _ b _ => (rndBits .f16 m b, 0)),
   (.rndBf16x2 w, .rndBf16x2, two fun _ b _ => (rndBits .bf16 m b, 0))]

/-- The special functions, the conversions, the block-scaled operations and the random words (R141 - R152). -/
def laneConvTable (key : BitVec 64) (w : LaneWord) : List LaneEntry :=
  let m := modeOf w
  let k := w.mod.toNat
  let un := fun (f : Word → Word × Flags) (_ : Nat) (_ b _ : Word) => f b
  let pack := fun (f : Fmt) (_ : Nat) (a b _ : Word) =>
    let lo := roundF f m false (f32 a)
    let hi := roundF f m false (f32 b)
    (BitVec.ofNat 32 (lo.1 + 2 ^ 16 * hi.1), lo.2 ||| hi.2)
  let rand := noFlag fun _ a b c => randOp key k a b c
  [(.rcpF32 w, .rcpF32, un (rcpOp m)), (.rsqF32 w, .rsqF32, un rsqOp), (.sqrtF32 w, .sqrtF32, un (sqrtOp m)),
   (.ex2F32 w, .ex2F32, un ex2Op), (.lg2F32 w, .lg2F32, un lg2Op), (.sinF32 w, .sinF32, un sinOp), (.cosF32 w, .cosF32, un cosOp),
   (.tanhF32 w, .tanhF32, un tanhOp),
   (.cvtF32S32 w, .cvtF32S32, un fun b => toWord (roundF .f32 m false (ofInt b.toInt))),
   (.cvtF32Z32 w, .cvtF32Z32, un fun b => toWord (roundF .f32 m false (ofInt b.toNat))),
   (.cvtS32F32 w, .cvtS32F32, un fun b =>
     (BitVec.ofInt 32 (cvtInt m (-2 ^ 31) (2 ^ 31 - 1) (f32 b)).1, (cvtInt m (-2 ^ 31) (2 ^ 31 - 1) (f32 b)).2)),
   (.cvtZ32F32 w, .cvtZ32F32, un fun b =>
     (BitVec.ofInt 32 (cvtInt m 0 (2 ^ 32 - 1) (f32 b)).1, (cvtInt m 0 (2 ^ 32 - 1) (f32 b)).2)),
   (.cvtF16x2F32 w, .cvtF16x2F32, pack .f16), (.cvtBf16x2F32 w, .cvtBf16x2F32, pack .bf16),
   (.cvt w, .cvt, fun _ a _ c => cvtOp m (k / 2 ^ 8 % 16) (k / 4 % 16) (k % 4) a c),
   (.qpack w, .qpack, fun _ a b c => qpackOp k a b c), (.qpackScale w, .qpackScale, noFlag fun _ _ b _ => qscaleOp k b),
   (.qunpkF32 w, .qunpkF32, noFlag fun _ a b _ => qunpkOp k a b),
   (.randB32 w, .randB32, rand), (.randCoF32 w, .randCoF32, rand), (.randOcF32 w, .randOcF32, rand), (.randV1v2 w, .randV1v2, rand)]

/-- Every operation of one thread at a time. -/
def laneTable (key : BitVec 64) (w : LaneWord) : List LaneEntry :=
  laneIntTable w ++ laneThreeTable w ++ laneCmpTable w ++ laneFloatTable w ++ laneConvTable key w

end Sys2Proof.Claims

/-- Every integer and bit operation, compare and predicate operation of the lane stream completes with the value of spec/05, in
every thread it writes, from operands read before. The model's own choices and readings it rests on: log 22 (DEDUCED). -/
def Obligations.LaneIntegerResult : Prop :=
  ∀ s x (w : LaneWord), ctx? s = some x → ∀ q ∈ laneIntTable w ++ laneThreeTable w ++ laneCmpTable w,
    LaneFree s x q.2.1 w → LaneResult s x q.1 q.2.1 w q.2.2

/-- Every floating-point operation, conversion, block-scaled operation and random word of the lane stream completes with the
value and the flags of spec/06. The value of a special function within its bound is the part's own (logs 6 and 8). The model's
own choices and readings it rests on: log 22 (DEDUCED); logs 6, 8 (DESIGN CHOICE). -/
def Obligations.LaneFloatResult : Prop :=
  ∀ s x (w : LaneWord), ctx? s = some x → ∀ q ∈ laneFloatTable w ++ laneConvTable x.grid.key w,
    LaneFree s x q.2.1 w → LaneResult s x q.1 q.2.1 w q.2.2

/-- round(x, F, mode) leaves a value that F represents as it is, in every format and mode, with no flag; and it gives the pattern
that decodes to that value (R89). -/
def Obligations.RoundKeepsRepresentable : Prop :=
  ∀ (f : Fmt) (mode : Rnd) (sat : Bool) (b : Nat), b < 2 ^ f.width → ∀ n m e, decodeF f b = .fin n m e →
    roundF f mode sat (decodeF f b) = (b, 0)

/-- Decode faults of a lane operation, before any effect: an illegal field raises 0x01; a vector register the group does not
hold raises 0x03 with the operand's number; and a register that an outstanding load covers makes the word wait, changing nothing
(R33, R72, R114, R391). The model's own choices and readings it rests on: log 52 (DESIGN CHOICE). -/
def Obligations.LaneOperandFaults : Prop :=
  ∀ s x (w : LaneWord), ctx? s = some x → ∀ q ∈ laneTable x.grid.key w,
    (aluLegal q.2.1 w = false → exec q.1 s = .next (raise s x { code := 0x01, uni := w.u == 1 })) ∧
    (aluLegal q.2.1 w = true →
      (∀ n, badReg x (namedRegs q.2.1 w) = some n → exec q.1 s = .next (raise s x { code := 0x03, uni := w.u == 1, aux := n })) ∧
      (badReg x (namedRegs q.2.1 w) = none → waitsL s x (vecUses q.2.1 w) (scalUses q.2.1 w) = true → exec q.1 s = .next s))

/-- The cross-thread operations: a vote, or one number, goes to one view register or, for a vote, to a predicate of every
considered thread; a ballot gives three view registers the considered threads in which A holds; nothing else changes (R123 -
R126, R151). `g0` is the group as the word leaves it, before ended paths are popped: a write to s61 to s63 is ANDed with the
live mask (R25). The model's own choices and readings it rests on: log 52 (DESIGN CHOICE). -/
def Obligations.CrossThreadResult : Prop :=
  ∀ s x (w : LaneWord), ctx? s = some x →
    let con := considered x.g w
    let d := w.dst.toNat
    let A := fun (u : Nat) => mtest (rdP x.g (w.srcA.toNat - 384)) u
    let holds := fun (u : Nat) => mtest con u && A u
    let weights := (maskThreads con).map fun u => (u, operand x.g .vecOnly w.srcA.toNat w.rtA.toNat u)
    let one : List (Instr × LaneOp × Word) :=
      [(.voteAny w, .voteAny, oneIf ((List.range 96).any holds)),
       (.voteAll w, .voteAll, oneIf ((List.range 96).all fun u => !mtest con u || A u)),
       (.firstThread w, .firstThread, match (List.range 96).find? holds with | some u => BitVec.ofNat 32 u | none => 0xFFFFFFFF#32),
       (.smpl w, .smpl, smplOp (operand x.g .scalOrConst w.srcB.toNat w.rtB.toNat 0).toNat weights)]
    (∀ q ∈ one, LaneFree s x q.2.1 w → ∃ t g g0, exec q.1 s = .next t ∧ t = setGroup s x.core x.gi g ∧ SameScalarStream x.g g ∧
      SameMemory s t ∧ g.vregs = x.g.vregs ∧ g.lane.fps = x.g.lane.fps ∧ t = laneDone s x g0 ∧
      (∀ n, n < 64 → rdV g0 n = if fieldKind d = .scal ∧ n = d - 320 ∧ n ≠ 0 then
          (if 61 ≤ n then q.2.2 &&& wordOf x.g.live (n - 61) else q.2.2) else rdV x.g n) ∧
      (∀ n, n < 61 → rdV g n = if fieldKind d = .scal ∧ n = d - 320 ∧ n ≠ 0 then q.2.2 else rdV x.g n) ∧
      (∀ n u, u < 96 → mtest (rdP g n) u =
        if fieldKind d = .pred ∧ n = d - 384 ∧ n ≠ 0 ∧ mtest con u = true then decide (q.2.2 ≠ 0) else mtest (rdP x.g n) u)) ∧
    (LaneFree s x .ballot w → ∃ t g g0, exec (.ballot w) s = .next t ∧ t = setGroup s x.core x.gi g ∧ SameScalarStream x.g g ∧
      SameMemory s t ∧ g.vregs = x.g.vregs ∧ (∀ n, rdP g n = rdP x.g n) ∧
      t = laneDone s x g0 ∧ (∀ k, k < 3 → rdV g0 (61 + k) = rdV x.g (61 + k)) ∧
      (d ≠ 320 → ∀ k u, k < 3 → u < 32 → d - 320 + k < 61 →
        (rdV g (d - 320 + k)).getLsbD u = holds (32 * k + u)) ∧
      (∀ n, n < 61 → (d = 320 ∨ n < d - 320 ∨ d - 320 + 3 ≤ n) → rdV g n = rdV x.g n))

/-- A paired word whose slots are legal and may stand together writes both destinations, each with the value its operation makes
of operands read before either is written (R60, R67, R112). The model's own choices and readings it rests on: log 22 (DEDUCED);
log 52 (DESIGN CHOICE). -/
def Obligations.PairedWordResult : Prop :=
  ∀ s x (a b : ShortOp) (p q : LaneOp), ctx? s = some x → x.lane = true → inEpisode x = false →
    pairOps x.grid.hdr.version a b = some (p, q) → aluLegal p (shortWord a) = true → aluLegal q (shortWord b) = true →
    pairLegal p q (shortWord a) (shortWord b) = true → badReg x (namedRegs p (shortWord a)) = none →
    badReg x (namedRegs q (shortWord b)) = none →
    waitsL s x (vecUses p (shortWord a) ++ vecUses q (shortWord b)) (scalUses p (shortWord a) ++ scalUses q (shortWord b)) = false →
    let vec := fun (op : LaneOp) (w : LaneWord) => op ≠ .nopLane ∧ fieldKind w.dst.toNat = .vec
    let prd := fun (op : LaneOp) (w : LaneWord) => op ≠ .nopLane ∧ fieldKind w.dst.toNat = .pred ∧ w.dst.toNat ≠ 384
    ∃ t g, exec (.lanePairedWord a b) s = .next t ∧ t = setGroup s x.core x.gi g ∧ SameScalarStream x.g g ∧ SameMemory s t ∧
      (∀ e ∈ [(p, shortWord a), (q, shortWord b)], ∀ u, u < 96 →
        let use := srcUse e.1 0
        let v := (laneValue x.grid.key e.1 0 u (fieldKind e.2.dst.toNat == .vec) (operand x.g use.1 e.2.srcA.toNat 0 u)
          (operand x.g use.2.1 e.2.srcB.toNat e.2.rtB.toNat u) 0).1
        (vec e.1 e.2 → rdVec g e.2.dst.toNat u = if mtest (considered x.g e.2) u = true then v else rdVec x.g e.2.dst.toNat u) ∧
        (prd e.1 e.2 → mtest (rdP g (e.2.dst.toNat - 384)) u =
          if mtest (considered x.g e.2) u = true then decide (v ≠ 0) else mtest (rdP x.g (e.2.dst.toNat - 384)) u)) ∧
      (∀ n u, u < 96 → (∀ e ∈ [(p, shortWord a), (q, shortWord b)], vec e.1 e.2 → n ≠ e.2.dst.toNat) → rdVec g n u = rdVec x.g n u) ∧
      (∀ n, (∀ e ∈ [(p, shortWord a), (q, shortWord b)], prd e.1 e.2 → n ≠ e.2.dst.toNat - 384) → rdP g n = rdP x.g n) ∧
      (∀ n, n < 61 → rdV g n = rdV x.g n)

/-! ## Lane memory (R251 - R265) -/

namespace Sys2Proof.Claims

/-- A lane memory word passes everything but the checks of its threads: legal fields, registers held, nothing to wait for, an
acquire not even where some thread accesses (R26, R251, R254, R260 - R262). -/
def LaneMemFree (s : State) (x : Ctx) (op : MemOp) (w : LaneWord) : Prop :=
  inEpisode x = false ∧ memLegal op w = true ∧ badReg x (memRegs op w) = none ∧
    waitsL s x ((memRegs op w).map (·.2)) (memScal op w) = false ∧ (memThreads x w ≠ 0 → acqPending x = false)

/-- The address of thread u's access (R251): its base plus the word's signed offset, modulo 2^32 or 2^57. -/
def laneLocalAt (g : Group) (w : LaneWord) (u : Nat) : Nat :=
  (((operand g .int w.srcA.toNat 0 u).toNat + laneOff w) % 2 ^ 32).toNat
def laneGlobalAt (g : Group) (w : LaneWord) (u : Nat) : Nat :=
  let lo := (operand g .int w.srcA.toNat 0 u).toNat
  let hi := (operand g .int (w.srcA.toNat + 1) 0 u).toNat
  (((lo + hi % 2 ^ 25 * 2 ^ 32 : Nat) + laneOff w) % 2 ^ 57).toNat

/-- Every accessing thread's access is aligned, inside usable scratch and off the copy scoreboard. -/
def LanesLocalOk (x : Ctx) (w : LaneWord) (T : Mask) (n : Nat) : Prop :=
  ∀ u, u < 96 → mtest T u = true → LocalOk x (laneLocalAt x.g w u) n

/-- The accesses of the threads listed, in that order: each reads its bytes, and writes what `new` makes of them. -/
def inTurn (n : Nat) (addr : Nat → Nat) (new : Nat → Nat → Option Nat) : List Nat → List Host.Cell → List Host.Cell
  | [], m => m
  | u :: r, m =>
    inTurn n addr new r (match new u (readLE m (addr u) n) with | some v => writeLE m (addr u) n v | none => m)

/-- Table 11-1 by code. -/
def atomResult (o : Nat) (old b : Word) : Word := (((atomTable old b).map (·.2)).getD o 0)

/-- A width code's registers, and a load's word k. -/
def loadWord (n : Nat) (sx : Bool) (v k : Nat) : Word :=
  if sx then (if v < 2 ^ (8 * n - 1) then BitVec.ofNat 32 v else BitVec.ofInt 32 ((v : Int) - 2 ^ (8 * n)))
  else BitVec.ofNat 32 (v / 2 ^ (32 * k))

end Sys2Proof.Claims

/-- Lane accesses to scratch whose checks pass are made by the accessing threads in ascending order: scratch is left as they
leave it, and each thread's destination receives what its access found, extended; with U = 1 thread f alone accesses, and every
active thread, or one view register, receives what it found. No other register of the lane stream, nothing of the scalar stream
and no byte of memory changes, but that after an acquire what the group does on other paths comes behind its core's earlier
writes (`heard`: R209, R214, R255, R257, R259, R260 - R263). `g0` is the group as the word leaves it, before ended paths are
popped (R25, R298). The model's own choices and readings it rests on: log 25 (DEDUCED). -/
def Obligations.LaneLocalResult : Prop :=
  ∀ s x (w : LaneWord), ctx? s = some x → x.lane = true → mLocal w.mod.toNat = true →
    let m := w.mod.toNat
    let T := memThreads x w
    let ts := maskThreads T
    let at_ := laneLocalAt x.g w
    let ops : List (Instr × MemOp × Nat × Nat × (Nat → Nat → Option Nat)) :=
      [(.ldLane w, .ld, 2 ^ (m % 8), widthRegs (m % 8), fun _ _ => none),
       (.stLane w, .st, 2 ^ (m % 8), 0, fun u _ => some (memData x .st w u)),
       (.atomLane w, .atom, 4, 1, fun u old =>
         some (atomResult (m % 8) (BitVec.ofNat 32 old) (BitVec.ofNat 32 (memData x .atom w u))).toNat),
       (.casLane w, .cas, 2 ^ (m % 8), widthRegs (m % 8), fun u old => if old = memData x .cas w u then some (casNew x w u) else none)]
    ∀ q ∈ ops, LaneMemFree s x q.2.1 w → LanesLocalOk x w T q.2.2.1 →
      let found := fun (u : Nat) =>
        readLE (inTurn q.2.2.1 at_ q.2.2.2.2 (ts.takeWhile fun v => v != u) x.team.scratch) (at_ u) q.2.2.1
      let word := fun (u k : Nat) => loadWord q.2.2.1 (q.2.1 = .ld && m / 8 % 2 = 1) (found (laneSource x w u)) k
      let d := w.dst.toNat
      let nd := q.2.2.2.1
      ∃ t tm g g0, exec q.1 s = .next t ∧ teamOf t x.core = some tm ∧ groupOf t x.core x.gi = some g ∧ SameMemory s t ∧
        SameScalarStream { x.g with heard := g.heard } g ∧
        g.heard = (if T ≠ 0 ∧ acquires (memOp s x q.2.1 w).attr = true then max x.g.heard s.fresh else x.g.heard) ∧
        g.preds = x.g.preds ∧ tm.scratch = inTurn q.2.2.1 at_ q.2.2.2.2 ts x.team.scratch ∧
        g = laneNext s.now g0 (x.g.lane.lpc + 1) ∧
        (∀ k, k < 3 → rdV g0 (61 + k) =
          if fieldKind d = .scal ∧ d ≤ 381 + k ∧ 381 + k < d + nd ∧ T ≠ 0 then word 0 (381 + k - d) &&& wordOf x.g.live k
          else rdV x.g (61 + k)) ∧
        (∀ r u, u < 96 → rdVec g r u =
          if fieldKind d = .vec ∧ d ≤ r ∧ r < d + nd ∧ mtest (laneTargets x w) u = true then word u (r - d) else rdVec x.g r u) ∧
        (∀ r, r < 61 → rdV g r =
          if fieldKind d = .scal ∧ d ≤ r + 320 ∧ r + 320 < d + nd ∧ r ≠ 0 ∧ T ≠ 0 then word 0 (r + 320 - d) else rdV x.g r)

namespace Sys2Proof.Claims

/-- The lane memory operations with the words that make them. -/
def memTable (w : LaneWord) : List (Instr × MemOp) :=
  [(.ldLane w, .ld), (.ldVer w, .ldVer), (.stLane w, .st), (.atomLane w, .atom), (.casLane w, .cas), (.ll w, .ll), (.sc w, .sc)]

end Sys2Proof.Claims

/-- Lane accesses to global memory whose checks pass issue their operation, an access of its size for each accessing thread at
that thread's address, in ascending order; a load into the path mask keeps its path until it returns (R298); an LL holds off
path switches for 64 words, but for a uniform one whose thread f fails its guard; with no accessing thread there is no access,
and the word waits for nothing. The first check that some thread fails raises its fault, with the threads that fail it in the
mask; the word then has no effect (R26, R251, R252, R260 - R265, R306, R390). The model's own choices and readings it rests on:
log 25 (DEDUCED). -/
def Obligations.LaneGlobalResult : Prop :=
  ∀ s x (w : LaneWord), ctx? s = some x → mLocal w.mod.toNat = false → ∀ q ∈ memTable w, LaneMemFree s x q.2 w →
    let o := memOp s x q.2 w
    let accs := memAccesses s x q.2 w
    let T := memThreads x w
    (∀ code mask, laneFault s x q.2 w = some (code, mask) →
      exec q.1 s = .next (raise s x
        { code := code, uni := w.u == 1, thread := (mfirst mask).getD 0, addr := memAddr x q.2 w ((mfirst mask).getD 0),
          mask := mask })) ∧
    (laneFault s x q.2 w = none → T ≠ 0 → (wideRelease o.attr.order o.attr.scope = true → releaseWaits s x = false) →
      (let g := if writesMask o = true then { setFence x x.g none with lane := { (setFence x x.g none).lane with maskOwed := true } }
         else setFence x x.g none
       ∃ t, exec q.1 s = .next t ∧
        (q.2 ≠ .ll → ∃ long, t = issueOp (laneDone s x g) x { o with long := long } accs) ∧
        (q.2 = .ll → ∃ long, t = modGroup (issueOp (laneDone s x g) x { o with long := long } accs) x.core x.gi
          fun g => { g with lane := { g.lane with hold := 64 } })) ∧
      (q.2 ≠ .ldVer → (w.mod.toNat % 8 ≠ 4 ∨ q.2 = .atom) → accs.map (fun a => (a.thread, a.va, a.size)) =
        (maskThreads T).map fun u => (u, laneGlobalAt x.g w u, if q.2 = .atom then 4 else 2 ^ (w.mod.toNat % 8)))) ∧
    (T = 0 →
      exec q.1 s = .next (if q.2 = .ll ∧ w.u ≠ 1 then
        modGroup (laneDone s x (setFence x x.g none)) x.core x.gi fun g => { g with lane := { g.lane with hold := 64 } }
        else laneDone s x (setFence x x.g none)))

/-! ## Lane control and hints (R27, R73 - R75, R295 - R300) -/

namespace Sys2Proof.Claims

/-- A control word that passes its checks: legal fields, a reconvergence address inside the lane section, its index register held
and no outstanding load on it or on the path mask; branches alone issue in an episode (R295, R298, R301). -/
def CtlFree (s : State) (x : Ctx) (op : CtlOp) (w : LaneWord) : Prop :=
  x.lane = true ∧ (inEpisode x = false ∨ op = .bra ∨ op = .brx) ∧ ctlLegal op w = true ∧ waitsL s x [] [] = false ∧
    ((op = .bra ∨ op = .brx) → ctlRcv w = 0xFFFFF ∨ ctlRcv w < x.grid.hdr.laneSize) ∧
    (op = .brx → (fieldKind w.dst.toNat = .vec → vregHeld x w.dst.toNat = true ∧ waitsL s x [w.dst.toNat] [] = false) ∧
      (fieldKind w.dst.toNat = .scal → waitsL s x [] [w.dst.toNat - 320] = false))

/-- A lane word that changes no register: the group goes on as `g` does, at lane word `pc` once ended paths are popped. -/
def LaneGoes (s : State) (x : Ctx) (i : Instr) (g : Group) (pc : Nat) : Prop :=
  exec i s = .next (putG s x (laneNext s.now g pc))

end Sys2Proof.Claims

/-- BRA and BRX: with every thread of the path on one side the path goes on there; a divergence runs the set of the lowest thread,
with the other sets, the lowest thread's on top, and a join where the reconvergence address changes, on the stack; in an episode a
thread whose guard or index is marked invalid falls through. LEND ends the path's threads, and the lane stream with its last path. A
lane EXIT takes the considered threads out of the group for good (R27, R295 - R301). -/
def Sys2Proof.Claims.LaneControlResult : Prop :=
  ∀ s x (w : LaneWord), ctx? s = some x →
    let m := laneMask x.g
    let l := x.g.lane
    let fall := l.lpc + 1
    let rcv := if ctlRcv w = 0xFFFFF then none else some (ctlRcv w)
    (CtlFree s x .bra w →
      let t := m &&& guardMask x.g w &&& ~~~(invP x w.pred.toNat)
      let f := m &&& ~~~t
      (t = 0 → LaneGoes s x (.bra w) x.g fall) ∧ (t ≠ 0 → f = 0 → LaneGoes s x (.bra w) x.g (ctlTarget w)) ∧
      (∀ a b, mfirst t = some a → mfirst f = some b →
        let run := if a < b then (ctlTarget w, t) else (fall, f)
        let rest := if a < b then (fall, f) else (ctlTarget w, t)
        let join : List PathEntry := if rcv = l.rpc then [] else [{ join := true, lpc := ctlRcv w, mask := m, rpc := l.rpc }]
        let below : PathEntry := { join := false, lpc := rest.1, mask := rest.2, rpc := rcv }
        let stack := below :: (join ++ l.stack)
        (stack.length ≤ 32 →
          LaneGoes s x (.bra w) (setLaneMask { x.g with lane := { l with rpc := rcv, stack := stack } } run.2) run.1) ∧
        (32 < stack.length →
          exec (.bra w) s = .next (raise s x { code := 0x07, thread := (mfirst m).getD 127, mask := m })))) ∧
    (CtlFree s x .brx w →
      let target := fun (u : Nat) => if operandInv x .int w.dst.toNat 0 u = true then fall
        else ctlTarget w + min (operand x.g .int w.dst.toNat 0 u).toNat (ctlN w - 1)
      (∀ pc, (∀ u, u < 96 → mtest m u = true → target u = pc) → m ≠ 0 → LaneGoes s x (.brx w) x.g pc) ∧
      let set := fun (u : Nat) => maskOf fun v => mtest m v && target v == target u
      let leads := (maskThreads m).filter fun u => (maskThreads m).all fun v => u ≤ v || target v != target u
      ∀ a b r, leads = a :: b :: r →
        let join : List PathEntry := if rcv = l.rpc then [] else [{ join := true, lpc := ctlRcv w, mask := m, rpc := l.rpc }]
        let below : List PathEntry := (b :: r).map fun u => { join := false, lpc := target u, mask := set u, rpc := rcv }
        let stack := below ++ (join ++ l.stack)
        (stack.length ≤ 32 →
          LaneGoes s x (.brx w) (setLaneMask { x.g with lane := { l with rpc := rcv, stack := stack } } (set a)) (target a)) ∧
        (32 < stack.length →
          exec (.brx w) s = .next (raise s x { code := 0x07, thread := (mfirst m).getD 127, mask := m }))) ∧
    (CtlFree s x .lend w → l.running = true → l.maskOwed = false →
      (l.stack = [] → ∃ t g, exec (.lend w) s = .next t ∧ t = setGroup s x.core x.gi g ∧ g.lane.running = false ∧
        laneMask g = (l.ended ||| m) &&& x.g.live ∧ SameScalarStream x.g g ∧ g.preds = x.g.preds ∧ g.vregs = x.g.vregs) ∧
      (∀ e r, l.stack = e :: r → e.mask &&& ~~~m &&& x.g.live ≠ 0 → e.rpc ≠ some e.lpc →
        ∃ t g, exec (.lend w) s = .next t ∧ t = setGroup s x.core x.gi g ∧ g.lane.running = true ∧ g.lane.lpc = e.lpc ∧
          g.lane.rpc = e.rpc ∧ g.lane.ended = l.ended ||| m ∧ laneMask g = e.mask &&& ~~~m &&& x.g.live ∧
          g.lane.stack.length = r.length ∧ SameScalarStream x.g g)) ∧
    (CtlFree s x .exit w → ∃ t g, exec (.exitLane w) s = .next t ∧ t = setGroup s x.core x.gi g ∧
      g.live = x.g.live &&& ~~~(considered x.g w) ∧ (∀ k, k < 3 → rdS g (61 + k) = rdS x.g (61 + k) &&& wordOf g.live k) ∧
      (∀ n, n < 61 → rdS g n = rdS x.g n) ∧ g.spc = x.g.spc ∧ g.vregs = x.g.vregs ∧ g.preds = x.g.preds ∧ SameMemory s t)

/-- The lane hints and the no-operation go on, `shint.skip` arming the skip flag unless its guard is (!p0) (which guards count is
the model's choice, log 46); an unassigned hint, and a prefetch whose base is no pair the group holds, have no effect (R61, R73 -
R75). A word waits while a load is to write the path mask. -/
def Sys2Proof.Claims.LaneHintResult : Prop :=
  ∀ s x (w : LaneWord) (op : BitVec 10), ctx? s = some x →
    let fall := x.g.lane.lpc + 1
    let f := w.srcA.toNat
    let free := waitsL s x [] [] = false
    (free → LaneGoes s x (.unassignedLaneHint op w) x.g fall) ∧
    (LaneFree s x .nopLane w → LaneGoes s x (.nopLane w) x.g fall) ∧
    (inEpisode x = false → free →
      LaneGoes s x (.shintSkipLane w) (if w.pred = 0 ∧ w.neg = 1 then x.g else { x.g with skip := true }) fall) ∧
    (∀ q ∈ [Instr.prefL1Lane w, .prefSlLane w, .prefTrLane w],
      (basePairOk f = false → free → LaneGoes s x q x.g fall) ∧
      (basePairOk f = true → (fieldKind f = .vec → vregHeld x f = true ∧ vregHeld x (f + 1) = true ∧ waitsL s x [f, f + 1] [] = false) →
        (fieldKind f = .scal → waitsL s x [] [f - 320, f - 319] = false) →
        ∃ t, exec q s = .next t ∧ groupOf t x.core x.gi = some (laneNext s.now x.g fall) ∧ SameMemory s t))

/-! ## Steps of a core: issue, waits, values, paths and episodes (spec/12, spec/13, spec/14, spec/15) -/

namespace Sys2Proof.Claims

/-- A blocked scalar word completes: its group goes on behind it, and nothing but the group changes. -/
def WokenBehind (s t : State) (c gi : Nat) (g : Group) : Prop :=
  ∃ h, t = setGroup s c gi h ∧ groupOf t c gi = some h ∧ h.state = .ready ∧ h.wait = .none ∧ h.spc = g.spc + 4 ∧
    SameScalars g h [] ∧ SameButScalars g h

/-- The counters of one scheduler of a core. -/
def schedOf (s : State) (c : Nat) (lane : Bool) : Sched := if lane then (getCore s c).laneSched else (getCore s c).scalarSched

/-- A value as a load word's destination registers receive it, word by word; every other register reads as before. -/
def Received (g h : Group) (o : PendOp) (val : Nat → Nat) : Prop :=
  (o.dest = .none → SameScalars g h [] ∧ h.vregs = g.vregs ∧ h.lane.view = g.lane.view) ∧
  (∀ n w, o.dest = .sregs n w → h.vregs = g.vregs ∧ h.lane.view = g.lane.view ∧
    (n = 0 → SameScalars g h []) ∧
    (n ≠ 0 → SameScalars g h (upFrom n w) ∧ ∀ k, k < w → rdS h (n + k) = maskedS g (n + k) (wordOfNat (val 0) k))) ∧
  (∀ n w, o.dest = .view n w → h.sregs = g.sregs ∧ h.vregs = g.vregs ∧
    ∀ k, k < w → n + k ≠ 0 → rdV h (n + k) = maskedS g (n + k) (wordOfNat (val ((mfirst o.threads).getD 0)) k)) ∧
  (∀ n w, o.dest = .vregs n w → h.sregs = g.sregs ∧ h.lane.view = g.lane.view ∧
    (∀ r, r ∉ upFrom n w → rdRow h r = rdRow g r) ∧
    ∀ k t, k < w → t < 96 → rdVec h (n + k) t =
      if mtest o.threads t then wordOfNat (val (if o.uni then (mfirst o.threads).getD 0 else t)) k else rdVec g (n + k) t)

end Sys2Proof.Claims

/-- What lasts a stated time ends then: PAUSE (R269), WAITLN after 20 us (R268), a spawn bin's timer (R41), a load's 400 cycles
(R336), a group's 1,024 cycles without issuing (R307), and a grant window's 16 core cycles (R341). -/
def Sys2Proof.Claims.TimedStepsComplete : Prop :=
  ∀ s (c gi : Nat) g tm, teamOf s c = some tm → groupOf s c gi = some g → coreStopped s c = false →
    (∀ u, g.state = .blocked → g.wait = .pause u → u ≤ s.now →
      ∃ t, exec (.pauseExpiry c gi) s = .next t ∧ WokenBehind s t c gi g) ∧
    (∀ line since, g.state = .blocked → g.wait = .waitln line since → since + 100000 ≤ s.now →
      ∃ t h, exec (.waitlnTimeout c gi) s = .next t ∧ groupOf t c gi = some h ∧ h.state = .ready ∧ h.spc = g.spc + 4 ∧
        SameScalars g h [] ∧ SameButScalars g h ∧ SameMemory s t ∧ ∀ w ∈ (getCore t c).watches, w.group ≠ gi) ∧
    (∀ b q, mget? tm.bins b = some q → q.due ≤ s.now →
      ∃ t tn, exec (.spawnTimerExpiry c b) s = .next t ∧ teamOf t c = some tn ∧
        mget? tn.bins b = some { q with expired := true } ∧ tn.groups = tm.groups ∧ SameMemory s t) ∧
    (∀ id o, opOf (getCore s c) id = some o → (o.kind = .ld ∨ o.kind = .ldver ∨ o.kind = .ll) → o.sem = false →
      o.issued + 400 * coreDiv s c ≤ s.now →
      ∃ t r, exec (.loadJudgedLong c id) s = .next t ∧ opOf (getCore t c) id = some r ∧ r.long = true ∧ r.dest = o.dest ∧
        groupOf t c gi = some g ∧ SameMemory s t) ∧
    (∀ lane since, (if lane = true then g.laneReadySince else g.readySince) = some since → g.boosted = none →
      since + 1024 * coreDiv s c ≤ s.now → streamReady s c gi lane = true →
      exec (.issueBoost c gi) s = .next (setGroup s c gi { g with boosted := some s.now })) ∧
    ((getCore s c).winStart + 16 * coreDiv s c ≤ s.now →
      ∃ t, exec (.grantWindow c) s = .next t ∧ (getCore t c).winLeft = rateOf s c tm.part ∧ (getCore t c).winStart = s.now ∧
        (getCore t c).winServed = [] ∧ groupOf t c gi = some g ∧ SameMemory s t)

/-- A scheduler turns blocked groups whose condition holds Ready, and Issuing ones whose next instruction waits for an operand Blocked,
counts the eligible groups of its kind, which are those that could issue and whose word the ration admits, and selects the one
boosted earliest, else the oldest, whose slot is then Issuing; with none it charges a stall reason, and while a lane word holds the
lane scheduler it only counts (Table 2-3, R334, R335). A lane word that gathers its reads stays selected, one without a grant in this
window first; with no grant left and a read of the selected word still to come the cycle is charged to reason 13 (R341, R342). -/
def Sys2Proof.Claims.IssueSelection : Prop :=
  ∀ s (c : Nat) (lane : Bool), coreStopped s c = false →
    let ready := readyGroups s c lane
    let busy := lane = true ∧ s.now < (getCore s c).laneBusy
    let spent := lane = true ∧ (getCore s c).winLeft = 0 ∧ ∃ gi x i, choice s c true ready = some gi ∧
      streamAt s c gi true = some x ∧ nextInstr s x = some i ∧ grantsNeeded x i ≠ 0
    let gs := ready.filter fun q => lane && q.2.lane.gathered.isSome
    ∃ t, exec (.issueSelect c lane) s = .next t ∧ SameMemory s t ∧
      (∀ gi g, groupOf s c gi = some g → ∃ h, groupOf t c gi = some h ∧ SameScalarStream g h ∧ h.preds = g.preds ∧ h.vregs = g.vregs ∧
        h.age = g.age ∧ h.boosted = g.boosted ∧ h.lane = { g.lane with gathered := h.lane.gathered } ∧
        (let st := if lane = false ∧ wakes s c gi = true then .ready else if lane = false ∧ stalls s c gi = true then .blocked else g.state
         h.state = if ¬ busy ∧ choice s c lane ready = some gi ∧ st = .ready then .issuing else st) ∧
        (streamReady s c gi lane = true → (if lane = true then h.laneReadySince else h.readySince) =
          some (((if lane = true then g.laneReadySince else g.readySince)).getD s.now))) ∧
      (let es := eligibleGroups s c lane
       mget 0 (schedOf t c lane).elig es.length = mget 0 (schedOf s c lane).elig es.length + 1 ∧
        ∀ q, q ∈ es ↔ q ∈ ready ∧ (lane = true → (getCore s c).winLeft = 0 → ∀ x i, streamAt s c q.1 true = some x →
          nextInstr s x = some i → grantsNeeded x i = 0)) ∧
      schedOf t c (!lane) = schedOf s c (!lane) ∧
      (busy → t.agenda = s.agenda ∧ (schedOf t c lane).stall = (schedOf s c lane).stall) ∧
      (¬ busy → spent → t.agenda = s.agenda ∧
        mget 0 (schedOf t c lane).stall 13 = mget 0 (schedOf s c lane).stall 13 + 1 ∧
        ∀ gi, choice s c lane ready = some gi → ∃ h, groupOf t c gi = some h ∧ h.lane.gathered.isSome) ∧
      (¬ busy → ¬ spent → ready ≠ [] → (schedOf t c lane).stall = (schedOf s c lane).stall ∧
        ∃ q ∈ ready, choice s c lane ready = some q.1 ∧ t.agenda = { dt := 0, who := .issue c q.1 lane false } :: s.agenda) ∧
      (∀ gi, choice s c lane ready = some gi → ∃ q ∈ ready, q.1 = gi ∧
        (gs ≠ [] → q ∈ gs ∧ ((∃ r ∈ gs, r.1 ∉ (getCore s c).winServed) → gi ∉ (getCore s c).winServed)) ∧
        (gs = [] → ((∃ r ∈ ready, r.2.boosted.isSome) →
          ∃ b, q.2.boosted = some b ∧ ∀ r ∈ ready, ∀ k, r.2.boosted = some k → b ≤ k) ∧
          ((∀ r ∈ ready, r.2.boosted = none) → ∀ r ∈ ready, q.2.age ≤ r.2.age))) ∧
      (¬ busy → ready = [] → t.agenda = s.agenda ∧
        ∃ r, r < 16 ∧ mget 0 (schedOf t c lane).stall r = mget 0 (schedOf s c lane).stall r + 1)

/-- The value of a load, atomic or conditional operation that is complete reaches its destination registers, and the operation is
no longer in flight; a value written to the path mask ends a path that it empties (R256, R262, R267, R298). `g0` is the group as the
value leaves it, before ended paths are popped; a value for the path mask is then no longer owed. -/
def Obligations.LoadValueReturns : Prop :=
  ∀ s (c : Nat) o g, coreStopped s c = false → opOf (getCore s c) o.id = some o → opDone (getCore s c) o.id = true →
    (o.kind = .ld ∨ o.kind = .atom ∨ o.kind = .cas ∨ o.kind = .ll ∨ o.kind = .sc) → groupOf s c o.group = some g →
    g.episode = none →
    ∃ t h g0, exec (.loadValueReturn c o.id) s = .next t ∧ groupOf t c o.group = some h ∧
      Received g g0 o (fun th => extendW o.width o.sext (opValue (getCore s c) o th)) ∧
      g0.lane.maskOwed = (g.lane.maskOwed && !writesMask o) ∧
      h = { (if writesMask o = true ∧ g.lane.suspended = false then timerG s.now (settle 40 g0) else g0) with
        acquiring := g.acquiring.filter (· != o.id) } ∧ h.preds = g.preds ∧ h.spc = g.spc ∧
      h.trap = g.trap ∧ (∀ q ∈ (getCore t c).ops, q.id ≠ o.id) ∧ SameMemory s t ∧
      (g.state = .blocked → g.wait = .operand → h.state = .ready)

/-- The path switch moves the lane stream to the path of the lowest runnable thread after 2,048 core cycles, and clears the
reservations: to the path entry the thread lies in, or, where it waits at a join, to a path of the join's threads that lie neither in
an entry above it nor on the current path, whose reconvergence is the join's, which those above that met there take over (R305). -/
def Sys2Proof.Claims.PathSwitchResult : Prop :=
  ∀ s (c gi : Nat) tm g (since u k : Nat) (e : PathEntry), teamOf s c = some tm → activeTeam tm = true → groupOf s c gi = some g →
    coreStopped s c = false → g.lane.running = true →
    g.lane.suspended = false → g.episode = none → g.lane.maskOwed = false →
    g.lane.offSince = some since → since + 2048 * coreDiv s c ≤ s.now →
    g.lane.hold = 0 → mfirst (pathThreads g) = some u → mtest (laneMask g) u = false → g.lane.stack[k]? = some e →
    let goesTo := fun (mask : Mask) (stack : List PathEntry) => mask &&& g.live ≠ 0 → e.rpc ≠ some e.lpc →
      ∃ t h, exec (.pathSwitch c gi) s = .next t ∧ t = setGroup s c gi h ∧ groupOf t c gi = some h ∧ h.resv = [] ∧
        h.lane.lpc = e.lpc ∧ h.lane.rpc = e.rpc ∧ laneMask h = mask &&& g.live ∧ h.lane.running = true ∧ h.lane.stack = stack ∧
        SameScalarStream g h ∧ h.preds = g.preds ∧ h.vregs = g.vregs
    (e.join = false → mtest e.mask u = true → (∀ j q, j < k → g.lane.stack[j]? = some q → q.join = true ∨ mtest q.mask u = false) →
      goesTo e.mask ({ join := false, lpc := g.lane.lpc, mask := laneMask g, rpc := g.lane.rpc } :: g.lane.stack.eraseIdx k)) ∧
    (e.join = true → mtest e.mask u = true → (∀ q ∈ g.lane.stack, q.join = true ∨ mtest q.mask u = false) →
      (∀ j q, j < k → g.lane.stack[j]? = some q → mtest q.mask u = false) →
      let above := g.lane.stack.take k
      let w := maskOf fun v => mtest e.mask v && !mtest (laneMask g) v && !above.any fun q => mtest q.mask v
      let fix := fun (r : Option Nat) => if r.getD 0xFFFFF = e.lpc then e.rpc else r
      goesTo w ({ join := false, lpc := g.lane.lpc, mask := laneMask g, rpc := fix g.lane.rpc } ::
        (above.map fun q => { q with rpc := fix q.rpc }) ++ g.lane.stack.drop (k + 1)))

/-- An episode is over: its stream is back where it stood at the entry, with the registers of its checkpoint; a path of the checkpoint
that a value has emptied ends (R298, R301, R339). -/
def Sys2Proof.Claims.CheckpointBack (g h : Group) (e : Episode) : Prop :=
  h.episode = none ∧
  (e.lane = false → h.sregs = e.saved.sregs ∧ h.spc = e.saved.spc ∧ h.state = .blocked ∧ h.wait = .operand ∧
    h.preds = g.preds ∧ h.vregs = g.vregs) ∧
  (e.lane = true →
    let back : Group := { g with preds := e.saved.preds, vregs := e.saved.vregs, lane := e.saved.lane, episode := none }
    h.preds = e.saved.preds ∧ h.vregs = e.saved.vregs ∧ h.sregs = g.sregs ∧ h.spc = g.spc ∧
    (laneMask back ≠ 0 → e.saved.lane.rpc ≠ some e.saved.lane.lpc → h.lane = { e.saved.lane with offSince := h.lane.offSince }) ∧
    (laneMask back = 0 → e.saved.lane.running = true → e.saved.lane.maskOwed = false → e.saved.lane.stack = [] →
      h.lane.running = false ∧ laneMask h = e.saved.lane.ended &&& g.live))

/-- At the entry decision a stream whose next word waits on a load judged long checkpoints and runs on with the load's destinations
invalid; an armed skip flag is consumed and declines. When the budget runs out the checkpoint is back (R337 - R339). -/
def Sys2Proof.Claims.SchussEntryAndExpiry : Prop :=
  ∀ s (c gi : Nat) (lane : Bool) g, groupOf s c gi = some g →
    (∀ x o, streamAt s c gi lane = some x → longWait s x = some o → schussMay s x o = true →
      (g.skip = true → ∃ t, exec (.schussEntry c gi lane) s = .next t ∧ groupOf t c gi = some { g with skip := false } ∧
        SameMemory s t) ∧
      (g.skip = false → ∃ t h e, exec (.schussEntry c gi lane) s = .next t ∧ groupOf t c gi = some h ∧ h.episode = some e ∧
        e.lane = lane ∧ e.op = o.id ∧ e.start = s.now ∧ e.blocks = 1 ∧
        e.saved = { sregs := g.sregs, preds := g.preds, vregs := g.vregs, spc := g.spc, lane := g.lane } ∧
        e.invS = (if lane then destView o.dest else destS o.dest) ∧ (∀ r ∈ destV o.dest, mget 0 e.invV r = o.threads) ∧
        h.sregs = g.sregs ∧ h.preds = g.preds ∧ h.vregs = g.vregs ∧ h.spc = g.spc ∧ h.lane = g.lane ∧
        (lane = false → h.state = .issuing) ∧ SameMemory s t)) ∧
    (∀ e tm, g.episode = some e → teamOf s c = some tm → tm.xacq = [] → coreStopped s c = false →
      e.start + g.budget.toNat * coreDiv s c ≤ s.now →
      ∃ t h, exec (.schussBudgetExpiry c gi) s = .next t ∧ groupOf t c gi = some h ∧ CheckpointBack g h e ∧ SameMemory s t)

namespace Sys2Proof.Claims

/-- The words that end an episode before they issue, whatever their operands: of the scalar stream those of R162, R253, R301 and R338,
of the lane stream those of R253 and R301. -/
def scalarEnders (d a b f : BitVec 6) (w q : BitVec 2) (l z i p : BitVec 1) (c t : BitVec 3) (m : BitVec 4) (r : BitVec 5)
    (len : BitVec 8) (sys : BitVec 12) (k : BitVec 14) (n : BitVec 16) (o : BitVec 20) : List Instr :=
  [.lgo o, .ljoin, .exitScalar, .stScalar d a w l z c f, .atomScalar d a b c q t, .casScalar d a b c q l, .waitln d a k,
   .waitlnV1 d a k, .pause n, .pauseV1v2 n, .cpy1d d a, .cpy1dFt d a, .cpy2d d a, .cpyGather d a, .cpySeal d a, .cpyAon d a,
   .cpyVer d a, .cpyReplay d a, .collRadd d a t, .collBcast d a, .collAgath d a, .send d a b len, .recvpost d a b, .recvtst d b,
   .mma d a b c z p t, .mlb d a b l p, .mdrain d a b z i p t, .acccpySt d a b p t, .acccpyLd d a b p t, .seminc d a c, .semwait d a c,
   .semtst d a c, .bararr r, .barwait d r, .launch d a, .spawn a b, .joinc, .xacq m, .xrel m, .schussOff, .schussOn, .schussBud n,
   .schussOffV2, .schussOnV2, .schussBudV2 n, .syswr d sys, .trap sys, .tret, .brk sys]
def laneEnders (w : LaneWord) : List Instr := [.stLane w, .atomLane w, .casLane w, .sc w, .lend w, .exitLane w]

/-- After a word that writes the scalar registers `ds` in an episode, they carry the invalid mark as `inv` says, every other register
as before. -/
def MarkedS (g h : Group) (ds : List Nat) (inv : Bool) : Prop :=
  ∃ e f, g.episode = some e ∧ h.episode = some f ∧ f.saved = e.saved ∧
    ∀ n, n ∈ f.invS ↔ if n ∈ ds ∧ n ≠ 0 then inv = true else n ∈ e.invS

/-- A scalar word that reads `src` and writes `d` marks `d` as soon as a register it reads is invalid; a mark on the mask words ends
the episode instead (R127, R338). -/
def ScalarMarks (s : State) (x : Ctx) (i : Instr) (src : List Nat) (d : Nat) : Prop :=
  waitsS s x (d :: src) = false →
    let inv := src.any fun r => invS x r
    (inv = true → 61 ≤ d → exec i s = .next (stopEpisode s x)) ∧
    (inv = false ∨ d < 61 → ∃ t g, exec i s = .next t ∧ t = setGroup s x.core x.gi g ∧ groupOf t x.core x.gi = some g ∧
      g.spc = x.g.spc + 4 ∧ SameScalars x.g g [d] ∧ MarkedS x.g g [d] inv)

/-- The registers `ds` of a lane word's destination carry the invalid mark in thread u as `inv` says where `wr` has u, and in the active
threads whose invalid guard reads false; everywhere else as before. -/
def MarkedV (x : Ctx) (h : Group) (w : LaneWord) (ds : List Nat) (wr : Mask) (inv : Nat → Bool) : Prop :=
  ∃ e f, x.g.episode = some e ∧ h.episode = some f ∧ f.saved = e.saved ∧
    ∀ r u, u < 96 → mtest (mget 0 f.invV r) u =
      if r ∈ ds ∧ mtest wr u = true then inv u
      else if r ∈ ds ∧ mtest (activeMask x.g) u = true ∧ mtest (invP x w.pred.toNat) u = true then true
      else mtest (mget 0 e.invV r) u

/-- A lane word of an episode that has the vector registers it names, no load outstanding on what it uses, and a path that goes on
behind it. -/
def LaneInEpisode (s : State) (x : Ctx) (regs : List (Nat × Nat)) (vecs scal : List Nat) : Prop :=
  x.lane = true ∧ badReg x regs = none ∧ waitsL s x vecs scal = false ∧ x.g.lane.running = true ∧ laneMask x.g ≠ 0 ∧
    x.g.lane.rpc ≠ some (x.g.lane.lpc + 1)

end Sys2Proof.Claims

/-- Inside a Schuss episode. The words that act on memory, on another unit or on the run of the stream end it before they issue, and
the checkpoint is back; so do a jump through an invalid register and an invalid write of the mask. A fence, a wait and a yield do
nothing. An arithmetic word marks its result where something it reads is invalid. A local load whose checks pass is executed, its mark
being cleared; every other load writes nothing and marks its destination: it never faults and changes no memory (R127, R162, R199,
R253, R301, R338, R339). That a thread's destination is marked where its invalid guard reads false is the model's choice, log 46. -/
def Sys2Proof.Claims.SchussEpisodeRules : Prop :=
  ∀ s x e, ctx? s = some x → x.g.episode = some e → e.lane = x.lane →
    (x.team.xacq = [] → ∃ h, groupOf (stopEpisode s x) x.core x.gi = some h ∧ CheckpointBack x.g h e ∧
      SameMemory s (stopEpisode s x)) ∧
    (∀ d a b f w q l z i p c t m r len sys k n o, ∀ j ∈ scalarEnders d a b f w q l z i p c t m r len sys k n o,
      exec j s = .next (stopEpisode s x)) ∧
    (∀ w, ∀ j ∈ laneEnders w, exec j s = .next (stopEpisode s x)) ∧
    (∀ f, raise s x f = stopEpisode s x) ∧
    (∀ d a i, waitsS s x [a.toNat, d.toNat] = false → invS x a.toNat = true →
      exec (.jmpr d a i) s = .next (stopEpisode s x)) ∧
    (∀ t c m, fenceOk t c m = true → Goes s x (.fence t c m) (x.g.spc + 4) []) ∧
    (∀ t c st l, Goes s x (.waitCounts t c st l) (x.g.spc + 4) []) ∧
    (Goes s x .yield (x.g.spc + 4) [] ∧ ∀ t g, exec .yield s = .next t → groupOf t x.core x.gi = some g → g.age = x.g.age) ∧
    (∀ (d a b c w : BitVec 6) (p : BitVec 5) (i : BitVec 14) (j : BitVec 16) (v : Word), fieldOk w p →
      (∀ q ∈ aluTable d a b v v ++ shiftTable d a b v v, ScalarMarks s x q.1 [a.toNat, b.toNat] d.toNat) ∧
      (∀ q ∈ unaryTable d a v ++ immTable d a i v ++ shiTable d a p v ++ bfeTable d a w p v, ScalarMarks s x q.1 [a.toNat] d.toNat) ∧
      ScalarMarks s x (.sel d a b c) [a.toNat, b.toNat, c.toNat] d.toNat ∧ ScalarMarks s x (.bfi d a w p) [a.toNat, d.toNat] d.toNat ∧
      (∀ q ∈ [Instr.li d j, .liz d j, .lui d j], ScalarMarks s x q [] d.toNat) ∧ ScalarMarks s x (.lih d j) [d.toNat] d.toNat) ∧
    (∀ (d a : BitVec 6) (w : BitVec 2) (sx l q : BitVec 1) (c : BitVec 3) (f : BitVec 6), ldOk d a w sx l c = true →
      let n := if w = 3 then 2 else 1
      let base := if l = 1 then [a.toNat] else [a.toNat, a.toNat + 1]
      let size := 2 ^ w.toNat
      let at_ := localAt x.g a (f.toInt * 2 ^ w.toNat)
      let bad := base.any fun r => invS x r
      let v := scratchRead x.team at_ size
      waitsS s x (base ++ regsFrom d n) = false →
      (l = 1 → bad = false → LocalOk x at_ size → ∃ t g, exec (.ldScalar d a w sx l q c f) s = .next t ∧
        t = setGroup s x.core x.gi g ∧ groupOf t x.core x.gi = some g ∧ g.spc = x.g.spc + 4 ∧ SameButScalars x.g g ∧ SameMemory s t ∧
        MarkedS x.g g (regsFrom d n) false ∧
        (w ≠ 3 → rdS g d.toNat = written x.g d.toNat (loaded size sx v) ∧ SameScalars x.g g [d.toNat]) ∧
        (w = 3 → (d ≠ 0 → rdS g d.toNat = BitVec.ofNat 32 v ∧ rdS g (d.toNat + 1) = BitVec.ofNat 32 (v / 2 ^ 32)) ∧
          SameScalars x.g g (regsFrom d 2))) ∧
      ((l = 0 ∨ bad = true ∨ (boardHit x.team at_ size = false ∧ (at_ % size ≠ 0 ∨ localLimit x.team < at_ + size))) →
        (61 ≤ d.toNat → exec (.ldScalar d a w sx l q c f) s = .next (stopEpisode s x)) ∧
        (d.toNat < 61 → ∃ t g, exec (.ldScalar d a w sx l q c f) s = .next t ∧ groupOf t x.core x.gi = some g ∧
          g.spc = x.g.spc + 4 ∧ SameScalars x.g g [] ∧ SameMemory s t ∧ MarkedS x.g g (regsFrom d n) true))) ∧
    (∀ (w : LaneWord), ∀ q ∈ laneTable x.grid.key w, let use := srcUse q.2.1 w.mod.toNat
      let d := w.dst.toNat
      let inv := fun (u : Nat) => mtest (invP x w.pred.toNat) u || operandInv x use.1 w.srcA.toNat w.rtA.toNat u ||
        operandInv x use.2.1 w.srcB.toNat w.rtB.toNat u || operandInv x use.2.2 w.srcC.toNat w.rtC.toNat u
      aluLegal q.2.1 w = true → LaneInEpisode s x (namedRegs q.2.1 w) (vecUses q.2.1 w) (scalUses q.2.1 w) →
      (w.u = 0 → fieldKind d = .vec →
        (renameRows s x [d] = none → exec q.1 s = .next (stopEpisode s x)) ∧
        (∀ r, renameRows s x [d] = some r → ∃ t g, exec q.1 s = .next t ∧ t = setGroup s x.core x.gi g ∧ SameMemory s t ∧
          MarkedV x g w [d] (considered x.g w) inv)) ∧
      (∀ u, w.u = 1 → fieldKind d = .scal → 381 ≤ d → mfirst (activeMask x.g) = some u → mtest (guardMask x.g w) u = true →
        inv u = true → exec q.1 s = .next (stopEpisode s x))) ∧
    (∀ (w : LaneWord), let m := w.mod.toNat
      let d := w.dst.toNat
      let T := considered x.g w
      w.u = 0 → fieldKind d = .vec →
      (memLegal .ld w = true → mLocal m = true → LaneInEpisode s x (memRegs .ld w) ((memRegs .ld w).map (·.2)) (memScal .ld w) →
        (∀ u, u < 96 → mtest T u = true → boardHit x.team (laneLocalAt x.g w u) (2 ^ (m % 8)) = false) →
        let rows := upFrom d (widthRegs (m % 8))
        let good := fun (u : Nat) => !mtest (invP x w.pred.toNat) u && !operandInv x .int w.srcA.toNat 0 u &&
          decide (laneLocalAt x.g w u % 2 ^ (m % 8) = 0) && decide (laneLocalAt x.g w u + 2 ^ (m % 8) ≤ localLimit x.team)
        ∀ r, renameRows s x rows = some r → ∃ t g, exec (.ldLane w) s = .next t ∧ groupOf t x.core x.gi = some g ∧ SameMemory s t ∧
          MarkedV x g w rows T (fun u => !good u) ∧
          (∀ k u, k < widthRegs (m % 8) → u < 96 → rdVec g (d + k) u = if mtest T u = true ∧ good u = true then
            loadWord (2 ^ (m % 8)) (m / 8 % 2 = 1) (scratchRead x.team (laneLocalAt x.g w u) (2 ^ (m % 8))) k else rdVec x.g (d + k) u) ∧
          ∀ n u, n ∉ rows → rdVec g n u = rdVec x.g n u) ∧
      (∀ q ∈ [(Instr.ldLane w, MemOp.ld), (.ldVer w, .ldVer), (.ll w, .ll)], memLegal q.2 w = true → mLocal m = false →
        LaneInEpisode s x (memRegs q.2 w) ((memRegs q.2 w).map (·.2)) (memScal q.2 w) →
        let rows := upFrom d (memDstRegs q.2 m)
        ∀ r, renameRows s x rows = some r → ∃ t g, exec q.1 s = .next t ∧ groupOf t x.core x.gi = some g ∧ SameMemory s t ∧
          MarkedV x g w rows T (fun _ => true) ∧ ∀ n u, rdVec g n u = rdVec x.g n u))

/-- The fault of an asynchronous operation (0x12 for uncorrectable data, 0x0D for a collective that its core may not take up again)
is delivered at the boundary of its group's scalar stream, or ends the task; it ends it too when the group has exited, and when
another has taken its slot (`born`: R282, R389, R411). -/
def Sys2Proof.Claims.AsynchronousFaultDelivery : Prop :=
  ∀ s (c gi : Nat) tm g q e, teamOf s c = some tm → activeTeam tm = true → dieStopped s (dieOf c) = false →
    (getPart s tm.part).stopped = false → gridOf s tm.part tm.grid = some q → (tm.asyncErr.find? fun e => e.group == gi) = some e →
    groupOf s c gi = some g → g.episode = none →
    (handles g = true → g.born ≤ e.after → g.state ≠ .exiting → ∃ t, exec (.asyncUncorrectableDelivery c gi) s = .next t ∧
      Delivered t { core := c, gi := gi, lane := false, team := tm, g := g, grid := q } { code := e.code, desc := e.desc } g.spc false ∧
      SameMemory s t) ∧
    ((handles g = false ∨ e.after < g.born ∨ g.state = .exiting) →
      ∃ t, exec (.asyncUncorrectableDelivery c gi) s = .next t ∧ TaskOver s t tm.part q.task)

/-! ## Steps of teams and grids (spec/02, spec/14, spec/18, spec/20) -/

/-- A ready bin's threads become a group in the lowest free slot; a SPAWN that waited then places its thread, if a bin takes it
(R37, R40 - R42). -/
def Sys2Proof.Claims.SpawnBinBecomesGroup : Prop :=
  ∀ s (c b i : Nat) tm q g, teamOf s c = some tm → mget? tm.bins b = some q → gridOf s tm.part tm.grid = some g →
    coreStopped s c = false → activeTeam tm = true → binReady tm q = true → binFirst tm b q = true →
    ((List.range (if tm.base = 64 then 8 else if tm.base = 128 then 6 else 4)).find? fun k => (mget? tm.groups k).isNone) = some i →
    ∃ t tn h, exec (.spawnBinLaunch c b) s = .next t ∧ teamOf t c = some tn ∧ groupIn tn i = some h ∧
      SameMemory s t ∧
      ((∀ k v key arg, groupIn tm k = some v → v.wait ≠ .spawn key arg) →
        tn.bins = mdel tm.bins b ∧ ∀ k, k ≠ i → groupIn tn k = groupIn tm k) ∧
      (∀ k v, k ≠ i → groupIn tm k = some v → ∃ r, groupIn tn k = some r ∧ SameScalars v r [] ∧ SameButScalars v r ∧
        (r = v ∨ ∃ key arg, v.state = .blocked ∧ v.wait = .spawn key arg ∧ r.state = .ready ∧ r.spc = v.spc + 4)) ∧
      (∀ k v key arg n, groupIn tm k = some v → v.state = .blocked → v.wait = .spawn key arg →
        (∀ j u, groupIn tm j = some u → j ≠ k → ∀ key' arg', u.wait ≠ .spawn key' arg') →
        binFor { tm with bins := mdel tm.bins b } key = some n →
        (∃ r, groupIn tn k = some r ∧ r.state = .ready ∧ r.spc = v.spc + 4) ∧
          tn.bins = (binAdd s.now (spawnPeriod (getCore s c)) { tm with bins := mdel tm.bins b } n key arg).bins) ∧
      h.live = maskLow q.args.length ∧ h.spc = q.key ∧ h.state = .ready ∧ h.schussOn = g.schuss ∧ h.budget = g.budget ∧
      rdS h 1 = BitVec.ofNat 32 q.args.length ∧ rdS h 2 = BitVec.ofNat 32 i ∧ maskOfS h = h.live ∧
      (∀ n, n ∉ [1, 2, 61, 62, 63] → rdS h n = 0) ∧ (∀ k, k < 96 → rdVec h 0 k = q.args.getD k 0) ∧
      ∀ n k, n ≠ 0 → rdVec h n k = 0

/-- A waiting team whose turn it is (no grid of its launch region that goes before it could take the core) stands on a core that fits,
unless a team of the grid has left that core while others stand free (`othersFree`: the model's reading, log 29), with its partner on
the next core: its groups hold the launch values and everything else of it reads 0. The last team's placement makes the grid Running
(R36, R37, R44, R319). -/
def Sys2Proof.Claims.TeamPlacementResult : Prop :=
  ∀ s (p grid c : Nat) g, gridOf s p grid = some g → (getPart s p).active = true → (getPart s p).stopped = false →
    (getPart s p).noPlace = false → g.revoked = false → g.state = .placing → placeFits s p g c = true →
    othersFree s p g c = false →
    (∀ k, k < (if g.pair = true then 2 else 1) → ∀ q ∈ (getPart s p).grids, q.state = .placing → q.revoked = false →
      q.region = g.region → goesFirst q g = true → couldTake s p q (c + k) = false) →
    let n := if g.pair then 2 else 1
    ∃ t r, exec (.teamPlacement p grid g.nextTeam c) s = .next t ∧ gridOf t p grid = some r ∧ r.nextTeam = g.nextTeam + n ∧
      r.state = (if g.teams ≤ g.nextTeam + n then GridState.running else .placing) ∧ SameMemory s t ∧
      ∀ k, k < n → ∃ tm, teamOf t (c + k) = some tm ∧ tm.part = p ∧ tm.grid = g.seq ∧ tm.index = g.nextTeam + k ∧
        tm.state = .resident ∧ (∀ a, readByte tm.scratch a = 0) ∧ tm.tiles = [] ∧ tm.ovf = 0 ∧ tm.queue = [] ∧ tm.bins = [] ∧
        (getCore t (c + k)).l1 = [] ∧ (∀ a, readByte (getCore t (c + k)).bstore a = 0) ∧
        (∀ i, g.groups ≤ i → groupIn tm i = none) ∧
        ∀ i, i < g.groups → ∃ h, groupIn tm i = some h ∧ h.live = allThreads ∧ h.spc = g.entry ∧ h.state = .ready ∧
          rdS h 1 = BitVec.ofNat 32 (g.nextTeam + k) ∧ rdS h 2 = BitVec.ofNat 32 i ∧ rdS h 3 = BitVec.ofNat 32 g.lpb ∧
          rdS h 4 = BitVec.ofNat 32 (g.lpb / 2 ^ 32) ∧ maskOfS h = allThreads ∧
          (∀ r, r ∉ [1, 2, 3, 4, 61, 62, 63] → rdS h r = 0) ∧ h.preds = [] ∧ h.vregs = [] ∧ h.fps = 0 ∧ h.trap = {} ∧
          h.schussOn = g.schuss ∧ h.budget = g.budget

/-- A drained team whose work is done leaves its core and is counted; a grid all of whose teams have retired, or that has ended with
its descendants, retires: its status is written and its parent semaphore's increment issued, after which its leases are released; at
once where there is no increment (R39, R188, R318, R367). -/
def Sys2Proof.Claims.RetirementResult : Prop :=
  (∀ s (c : Nat) tm g, teamOf s c = some tm → coreStopped s c = false → tm.state = .draining →
    (∀ h ∈ mvals tm.groups, h.state = .exiting) → (getCore s c).ops = [] → (getCore s c).accs = [] → (getCore s c).misses = [] →
    teamDone s c tm = true → (getDie s (dieOf c)).reset = none → gridOf s tm.part tm.grid = some g →
    ∃ t r, exec (.teamRetirement c) s = .next t ∧ teamOf t c = none ∧ (getCore t c).l1 = [] ∧ (getCore t c).watches = [] ∧
      gridOf t tm.part tm.grid = some r ∧ r.retired = g.retired + 1 ∧ r.state = g.state ∧ SameMemory s t) ∧
  (∀ s (p grid : Nat) g, Sys2Proof.Inv s → gridOf s p grid = some g → (getPart s p).stopped = false → gridDone (getPart s p) g = true →
    (∀ i ∈ s.incs, i.part = p → i.grid ≠ grid) →
    (∀ h, gridAddr s p g g.statusAt = some h → h % 8 = 0 ∧ lineQuiet s p (lineBase h) = true) →
    ∃ t r, exec (.gridRetirement p grid) s = .next t ∧ gridOf t p grid = some r ∧ r.state = .retired ∧ r.status = g.status ∧
      (∀ h, gridAddr s p g g.statusAt = some h → ∀ k, k < 8 →
        readByte t.mem (memKey (getPart s p) h + k) = g.status.extractLsb' (8 * k) 8) ∧
      (gridAddr s p g g.statusAt = none → SameMemory s t) ∧
      (∀ va h, g.parentSem = some va → gridAddr s p g g.parentSem = some h → r.pinned = g.pinned ∧ t.incs = s.incs ++
        [{ id := s.fresh, part := p, pasid := g.pasid, va := va, hpa := h, by_ := 1, core := none, grid := grid, team := none,
           retires := true }]) ∧
      (gridAddr s p g g.parentSem = none → r.pinned = [] ∧ t.incs = s.incs))

/-- A grid in Leasing all of whose pages are pinned for it becomes placeable. One that needs more host pages than the pin table
holds ends with status 0x21. Else its unusable pages are posted, each once and in rising order, with a 0x40 record each, and a page
that is present is pinned at the frame its walk, or a migration that has moved it, gives; a page serviced is tried again, and an
unserviceable one ends the grid with status 0x21 (R318, R366). -/
def Sys2Proof.Claims.LeasingResult : Prop :=
  ∀ s (p grid : Nat) g, gridOf s p grid = some g → g.state = .leasing →
    let v := getPart s p
    let need := neededPages s p g.pasid (leaseSpans g)
    let open_ := need.filter fun q => !pinHeld v g q.1 q.2
    let new := (mkeys (open_.filter fun q => !pageReady s p g.pasid q.1 q.2)).filter fun k => !g.leaseReqs.contains k
    (v.stopped = false → g.regrant = [] → g.revoked = false →
      (open_ = [] → (∀ k ∈ g.leaseReqs, k ∉ mkeys need) → ∃ t, exec (.gridLeasingComplete p grid) s = .next t ∧
        gridOf t p grid = some { g with state := .placing } ∧ SameMemory s t) ∧
      (open_ ≠ [] → pinCapacity < need.length → ∃ t r, exec (.gridLeasingComplete p grid) s = .next t ∧ gridOf t p grid = some r ∧
        r.state = .ended ∧ r.status = 0x21 ∧ SameMemory s t) ∧
      (open_ ≠ [] → need.length ≤ pinCapacity → new.length ≤ recordRoom s p none →
        ∃ t r, exec (.gridLeasingComplete p grid) s = .next t ∧ gridOf t p grid = some r ∧ r.state = .leasing ∧
          (∀ k ∈ new, r.leaseReqs.contains k = true) ∧ new.Pairwise (· < ·) ∧
          (bit v.fqcfg.toNat 0 = true →
            ((getPart t p).records.drop v.records.length).map (fun q => (q.code, q.addr, q.grid, q.pasid)) =
              new.map fun k => (0x40, BitVec.ofNat 57 (k * 4096), g.seq, g.pasid))) ∧
      (∀ page w q, need = [(page, w)] → pinOf v g.pasid page = none → pageReady s p g.pasid page w = true →
        walkPage s p g.pasid (page * 4096) = some q → leafQuiet s p g.pasid page = true → v.pins.length < pinCapacity →
        ∃ t r k, exec (.gridLeasingComplete p grid) s = .next t ∧ gridOf t p grid = some r ∧ r.pinned.contains q.page = true ∧
          k ∈ (getPart t p).pins ∧ k.pasid = g.pasid ∧ k.page = q.page ∧ k.size = q.size ∧ (w = true → k.w = true) ∧
          k.frame = (match migEntry v g.pasid page with | some m => m.new | none => q.frame) ∧
          (g.pinned.contains q.page = false → k.refs = 1))) ∧
    (∀ page, g.regrant = [] → g.revoked = false → need.length ≤ pinCapacity → new.length + 1 ≤ recordRoom s p none →
      ∃ t r, exec (.leaseServiced p grid page) s = .next t ∧ gridOf t p grid = some r ∧ r.state = .leasing ∧
        (r.leaseReqs.contains page = true ↔ ∃ w, (page, w) ∈ open_ ∧ pageReady s p g.pasid page w = false)) ∧
    (∀ page, g.leaseReqs.contains page = true →
      ∃ t r, exec (.leaseUnserviceable p grid page) s = .next t ∧ gridOf t p grid = some r ∧ r.state = .ended ∧ r.status = 0x21 ∧
        SameMemory s t)

/-- System software launches a grid at depth 0 under a task of its own, and receives the status the checks give; a misaligned block
gets 0x06 (R312, R315, Table 14-2). -/
def Sys2Proof.Claims.ManagementLaunch : Prop :=
  ∀ s (p region pasid lpb : Nat), (getPart s p).active = true → (getPart s p).stopped = false → gridLimit (getPart s p) = false →
    (lpb % 128 ≠ 0 → exec (.mgmtLaunch p region pasid lpb) s = .next { s with outbox := s.outbox ++ [.status 0x06] }) ∧
    (∀ b list, lpb % 128 = 0 → unitRead s p pasid lpb 128 = some b →
      let q := lpbOf b
      let status := (launchRead s p pasid none q list).1
      launchQuiet s p pasid lpb q = true → (q.count ≠ 0 → q.list % 16 = 0) →
      unitRead s p pasid q.list (16 * q.count) = some list →
      let filled := launchFill s p pasid lpb q
      (status ≠ 0 → exec (.mgmtLaunch p region pasid lpb) s = .next { filled with outbox := filled.outbox ++ [.status status] }) ∧
      (status = 0 → ∃ t, exec (.mgmtLaunch p region pasid lpb) s = .next t ∧ t.outbox = s.outbox ++ [.status 0] ∧
        (getPart t p).nextGrid = (getPart s p).nextGrid + 1 ∧ (s.pasids = [] → (getPart s p).migs = [] → SameMemory s t) ∧
        ∃ r ∈ (getPart t p).grids, r.seq = (getPart s p).nextGrid ∧ r.depth = 0 ∧ r.parent = none ∧
          r.task = (getPart s p).nextGrid ∧ r.pasid = pasid ∧ r.image = q.image ∧ r.teams = q.shape % 2 ^ 24 + 1 ∧
          r.groups = q.groups ∧ r.base = q.base ∧ r.lpb = lpb ∧ r.region = region))

/-- Pre-emption stops the streams of the teams it names and saves each once nothing of it is under way; a restore puts a saved
team back on a core that fits (R401 - R403). Ending a task ends its grids and teams (Table 14-3, R389). The model's own choices
and readings it rests on: logs 32, 33 (DEDUCED). -/
def Obligations.PreemptAndRestoreResult : Prop :=
  (∀ s (p grid c : Nat) tm, teamOf s c = some tm → tm.part = p → tm.grid = grid → activeTeam tm = true → partnered s c = false →
    namedCores s p grid (some tm.index) = [c] → (∀ k h, groupIn tm k = some h → h.episode = none) →
    ∃ t tn, exec (.preempt p grid (some tm.index)) s = .next t ∧ teamOf t c = some tn ∧ tn.state = .saving ∧ SameMemory s t ∧
      (getPart t p).saves = (getPart s p).saves ++ [{ grid := grid, teams := [tm.index], count := 1 }] ∧
      ∀ k h, groupIn tn k = some h → h.resv = [] ∧ h.state ≠ .blocked) ∧
  (∀ s (p grid i c : Nat) tm, coreOfTeam s p grid i = some c → teamOf s c = some tm → tm.part = p → partnered s c = false →
    saveReady s c tm = true → contextBytes tm ≤ areaFree (getPart s p) → (getPart s p).saves.length ≤ recordRoom s p none →
    ∃ t q, exec (.preemptComplete p grid i) s = .next t ∧ teamOf t c = none ∧ SameMemory s t ∧ q ∈ (getPart t p).saved ∧
      q.team = parkTeam (getCore s c).bstore c tm ∧ q.bytes = contextBytes tm) ∧
  (∀ s (p grid i c : Nat) q g, savedOf (getPart s p) grid i = some q → gridOf s p grid = some g → q.team.partner = none →
    g.revoked = false → (getPart s p).stopped = false →
    (restoreFits s p g c 1 = false → recordRoom s p none ≠ 0 → exec (.restore p grid i (some c)) s =
      .next (addRecord s { code := 0x42, grid := grid, pasid := g.pasid, part := p, dc := dayclock s 0 })) ∧
    (restoreFits s p g c 1 = true → q.team.srcRec = [] →
      ∃ t tm, exec (.restore p grid i (some c)) s = .next t ∧ teamOf t c = some tm ∧ tm.index = q.team.index ∧
        tm.grid = q.team.grid ∧ tm.scratch = q.team.scratch ∧ tm.tiles = q.team.tiles ∧ tm.queue = q.team.queue ∧
        tm.copies = q.team.copies ∧ (tm.state = .resident ∨ tm.state = .draining) ∧ SameMemory s t ∧
        ∀ k h, groupIn q.team k = some h → ∃ r, groupIn tm k = some r ∧ r.sregs = h.sregs ∧ r.preds = h.preds ∧
          r.vregs = h.vregs ∧ r.spc = h.spc ∧ r.trap = h.trap)) ∧
  (∀ s (p grid : Nat) g, gridOf s p grid = some g → ∃ t, exec (.taskEnd p grid) s = .next t ∧ TaskOver s t p g.task)

/-! ## Asynchronous units: copies, matrix commands, collectives, messages, semaphores, Noon, records (spec/07, spec/11, spec/14) -/

namespace Sys2Proof.Claims

/-- The increment that an operation makes when it ends stands on its way (R158, R323). -/
def Signalled (s t : State) (p : Nat) (o : Origin) (va : Nat) (by_ : Word) : Prop :=
  ∀ g h, gridOf s p o.grid = some g → translate s p g.pasid va = .ok h →
    t.incs = s.incs ++ [{ id := s.fresh, part := p, pasid := g.pasid, va := va, hpa := h, by_ := by_, core := some o.core,
                          grid := o.grid, team := some o.team, after := o.after, tileOf := o.tileOf }]

/-- The semaphore that an operation of a grid is to signal, if it has one, has a translation. -/
def CanSignal (s : State) (p grid : Nat) (sem : Option Nat) : Prop :=
  ∀ a g, sem = some a → gridOf s p grid = some g → ∃ h, translate s p g.pasid a = .ok h

/-- No two addresses of a partition below 2^52 share a byte of the memory behind them (R183 - R185). -/
def LaidOut (v : Partition) : Prop := ∀ a b, a < 2 ^ 52 → b < 2 ^ 52 → memKey v a = memKey v b → a = b

/-- The bytes of a range of a team's scratch, or of memory as the pages of a PASID show it. -/
def bytesAt (s : State) (p pasid : Nat) (tm : Team) (isLocal : Bool) (a n : Nat) : List Byte :=
  tab n fun i => if isLocal then readByte tm.scratch (a + i) else byteValue s p (physOf s p pasid (a + i))

/-- Bytes have been put at an address of a core's scratch (`toScratch`), of its B-store (`toB`), or of memory behind the pages of a
PASID; every other byte of the three is as it was. Of memory it is the value that counts, whoever holds the line. -/
def BytesPut (s t : State) (p pasid c : Nat) (toScratch toB : Bool) (a : Nat) (bs : List Byte) : Prop :=
  (∀ tm, teamOf s c = some tm → ∃ tn, teamOf t c = some tn ∧
    tn.scratch = if toScratch then writeBytes tm.scratch a bs else tm.scratch) ∧
  (getCore t c).bstore = (if toB && !toScratch then writeBytes (getCore s c).bstore a bs else (getCore s c).bstore) ∧
  ((toScratch || toB) = true → ∀ h, byteValue t p h = byteValue s p h) ∧
  ((toScratch || toB) = false → LaidOut (getPart s p) →
    (∀ i, i < bs.length → physOf s p pasid (a + i) < 2 ^ 52 ∧
      ∀ j, j < bs.length → physOf s p pasid (a + i) = physOf s p pasid (a + j) → i = j) →
    (∀ i b, bs[i]? = some b → byteValue t p (physOf s p pasid (a + i)) = b) ∧
    ∀ h, h < 2 ^ 52 → (∀ i, i < bs.length → physOf s p pasid (a + i) ≠ h) → byteValue t p h = byteValue s p h)

/-- A range in scratch or the B-store, or one of memory that can be accessed now. -/
def Ready (s : State) (p pasid : Nat) (isLocal : Bool) (a n : Nat) : Prop := isLocal = true ∨ reachOf s p pasid a n = .ready

/-- Every line of a range is quiet, and no page of it is moving. -/
def RangeQuiet (s : State) (p pasid a n : Nat) : Prop :=
  ∀ q ∈ lineSegs a n, lineQuiet s p (lineBase (physOf s p pasid q.1)) = true ∧ pageMoving (getPart s p) pasid (q.1 / 4096) = false

/-- One unit of a copy moves n bytes as they are. -/
def PieceMoves (s : State) (c : Nat) (tm : Team) (g : Grid) (q : Copy) (src dst n : Nat) : Prop :=
  let sl := fSrcLocal q.flags.toNat
  let dl := fDstLocal q.flags.toNat
  let db := fDstB q.flags.toNat
  Ready s tm.part g.pasid sl src n → Ready s tm.part g.pasid (dl || db) dst n →
    ∃ u, copyRun 1 s c tm g q = (u, { q with units := q.units + 1, written := q.written + n }) ∧
      BytesPut s u tm.part g.pasid c dl db dst (bytesAt s tm.part g.pasid tm sl src n)

/-- The participants of a collective, in the order of its core list, with their teams and contributions. -/
def participants (s : State) (p id : Nat) (cores : List Nat) : List (Nat × Team × Coll) :=
  cores.filterMap fun c => (contribution s p id cores c).map fun q => (c, q.1, q.2)

end Sys2Proof.Claims

/-- A copy moves the units it is given, one after the other, as far as they go; what waited for its version word goes on once that
is read, and with its last unit it ends. One that reads an uncorrectable word writes no more and signals nothing; one that reaches
bytes it may not access ends its task (R209, R272, R275, R277, R411). -/
def Sys2Proof.Claims.CopyProgress : Prop :=
  ∀ s (c id n : Nat) tm q g, teamOf s c = some tm → (tm.copies.find? fun k => k.id == id) = some q → gridOf s tm.part tm.grid = some g →
    copyMoves s c tm q = true → copyBehind tm q = false →
    (copyBad tm q = false →
      let r := copyRun n s c tm g q
      let u := if awaitsVersion q && !awaitsVersion r.2 then versionRead (putCopy r.1 c r.2) c q else putCopy r.1 c r.2
      (r.2.units < copyUnits r.2 → exec (.copyComplete c id n) s = .next u) ∧
      (copyUnits r.2 ≤ r.2.units → (q.faults = [] ∨ bit (getPart s tm.part).fqcfg.toNat 0 = false) →
        exec (.copyComplete c id n) s = .next (copyEnd u c tm g r.2))) ∧
    (∀ r, copyRun 1 s c tm g q = r → copyRun (n + 1) s c tm g q = copyRun n r.1 c tm g r.2) ∧
    (copyBad tm q = true → ∃ t tn, exec (.copyComplete c id n) s = .next t ∧ teamOf t c = some tn ∧
      (∀ k ∈ tn.copies, k.id ≠ id) ∧ SameMemory s t ∧ t.incs = s.incs ∧ tn.scratch = tm.scratch ∧
      tn.asyncErr = tm.asyncErr ++ [{ group := q.group, pc := q.pc, code := 0x12, after := q.id }]) ∧
    (∀ code a, q.units < copyUnits q → copyUnit s c tm g q = .fault code a →
      ∃ t, exec (.copyAccessFault c id) s = .next t ∧ TaskOver s t tm.part g.task)

/-- What one unit of a copy moves. A linear copy moves 512 bytes, those of the named sectors alone when it tolerates faults; a copy
of rows 512 bytes of a row; a gather the element its index list names. An all-or-nothing store takes its source whole, turns the
version word odd, writes the payload 128 bytes at a time and turns the word even, behind its core's earlier accesses; a
version-checked read takes the payload under one even version word; a sealed copy writes a block once it is authenticated (R194,
R197, R198, R272 - R276). -/
def Sys2Proof.Claims.CopyMoves : Prop :=
  ∀ s (c : Nat) tm g (q : Copy), teamOf s c = some tm → (getPart s tm.part).migs = [] → q.units < copyUnits q → copyBad tm q = false →
    let k := q.units
    let p := tm.part
    let pasid := g.pasid
    let sl := fSrcLocal q.flags.toNat
    let dl := fDstLocal q.flags.toNat
    let db := fDstB q.flags.toNat
    let rest := { q with units := k + 1 }
    (q.kind = .d1 ∨ q.kind = .replay →
      let i := match q.todo with | some l => l.getD k 0 | none => k
      PieceMoves s c tm g q (q.src + 512 * i) (q.dst + 512 * i) (min 512 (q.len - 512 * i))) ∧
    (q.kind = .d2 →
      let pieces := (q.len + 511) / 512
      let r := k / pieces
      let j := 512 * (k % pieces)
      PieceMoves s c tm g q (q.src + r * q.sstride + j) (q.dst + r * q.dstride + j) (min 512 (q.len - j))) ∧
    (q.kind = .gather →
      let a := q.src + q.index.getD k 0 * q.sstride
      (sl = true ∨ leaseOk g a q.len false = true) → PieceMoves s c tm g q a (q.dst + k * q.len) q.len) ∧
    (q.kind = .aon →
      let put := fun (u : State) (a : Nat) (bs : List Byte) => BytesPut s u p pasid c false false a bs
      (k = 0 → Ready s p pasid sl q.src q.len → ∃ u, BytesPut s u p pasid c false false q.dst [] ∧
        copyRun 1 s c tm g q = (u, { rest with buffer := bytesAt s p pasid tm sl q.src q.len })) ∧
      (let v := ofBytes (bytesAt s p pasid tm false q.dst 8)
       k = 1 → Ready s p pasid false q.dst (q.len + 64) → v % 2 = 0 → ∃ u, put u q.dst (toBytes 8 (v + 1)) ∧
        copyRun 1 s c tm g q = (u, { rest with odd := some (BitVec.ofNat 64 (v + 1)) })) ∧
      (∀ j, k = j + 2 → j < q.len / 128 → RangeQuiet s p pasid (q.dst + 64 + 128 * j) 128 →
        ∃ u, put u (q.dst + 64 + 128 * j) ((q.buffer.drop (128 * j)).take 128) ∧
          copyRun 1 s c tm g q = (u, { rest with written := q.written + 128 })) ∧
      (∀ v, k = q.len / 128 + 2 → q.odd = some v → RangeQuiet s p pasid q.dst 8 → accsBefore (getCore s c) q.id = false →
        ∃ u, put u q.dst (toBytes 8 (v + 1).toNat) ∧ copyRun 1 s c tm g q = (u, { rest with odd := none }))) ∧
    (q.kind = .ver → Ready s p pasid false q.src (q.len + 64) → Ready s p pasid (dl || db) q.dst q.len →
      ofBytes (bytesAt s p pasid tm false q.src 8) % 2 = 0 →
      ∃ u, BytesPut s u p pasid c dl db q.dst (bytesAt s p pasid tm false (q.src + 64) q.len) ∧
        copyRun 1 s c tm g q = (u, { rest with written := q.len })) ∧
    (q.kind = .seal → (dl || db) = true →
      let b := q.sstride + k
      let tag := q.aux + 16 * b
      Ready s p pasid false (q.src + 4096 * k) 4096 → Ready s p pasid false tag 16 →
      ∀ bs, openSealed (q.key.getD 0) q.nonce b (bytesAt s p pasid tm false (q.src + 4096 * k) 4096) (bytesAt s p pasid tm false tag 16) =
          some bs →
        ∃ u, BytesPut s u p pasid c dl db (q.dst + 4096 * k) bs ∧
          copyRun 1 s c tm g q = (u, { rest with written := q.written + 4096 }))

/-- The end of a copy writes its status words, of one that tolerates faults the bitmap of its parked sectors first, takes it off the
team and signals its semaphore: by the bytes written with COUNT, else by 1. A semaphore whose page has no usable translation ends
the task (R272, R277, R278, R323, R369). -/
def Sys2Proof.Claims.CopyEnds : Prop :=
  ∀ s (c : Nat) tm g (q : Copy), teamOf s c = some tm → gridOf s tm.part g.seq = some g →
    let before := if q.ft then writeBytes tm.scratch q.aux (bitmapOf q) else tm.scratch
    (∀ i, i < (q.len + 511) / 512 → ((bitmapOf q).getD (i / 8) 0).getLsbD (i % 8) = q.parked.contains i) ∧
    (∀ a, q.sem = some a → (∀ h, translate s tm.part g.pasid a ≠ .ok h) → TaskOver s (copyEnd s c tm g q) tm.part g.task) ∧
    (CanSignal s tm.part g.seq q.sem → ∃ tn, teamOf (copyEnd s c tm g q) c = some tn ∧ (∀ k ∈ tn.copies, k.id ≠ q.id) ∧
      SameMemory s (copyEnd s c tm g q) ∧
      tn.scratch = writeBytes before (q.desc + 0x34) (toBytes 4 q.written ++ toBytes 4 (q.parked.length % 2 ^ 16)) ∧
      (q.sem = none → (copyEnd s c tm g q).incs = s.incs) ∧
      (∀ a, q.sem = some a → Signalled s (copyEnd s c tm g q) tm.part
        { core := c, group := q.group, team := tm.index, grid := g.seq, pc := q.pc, desc := BitVec.ofNat 32 q.desc, after := q.id } a
        (if fCount q.flags.toNat then BitVec.ofNat 32 q.written else 1)))

/-- The command at the head of a matrix queue starts, or is withheld while its current does not fit (R156, R161, R344). -/
def Sys2Proof.Claims.MatrixProgress : Prop :=
  ∀ s (c : Nat) tm q rest, teamOf s c = some tm → tm.queue = q :: rest → canStart s c = true → q.withheld = false →
    ∃ t tn, exec (.matrixCommandStart c) s = .next t ∧ teamOf t c = some tn ∧ SameMemory s t ∧ tn.tiles = tm.tiles ∧
      (startFits s c tm.part q = true → tn.queue = { q with running := true, withheld := false } :: rest) ∧
      (startFits s c tm.part q = false → tn.queue = { q with withheld := true } :: rest)

namespace Sys2Proof.Claims

/-- The cores whose arrays a command uses, the leader first. -/
def arraysOf (c : Nat) (q : MatCmd) : List Nat := if q.pair then [c, pairOf c] else [c]

/-- The word of a tile row that stands in column j, of a pair the follower's from 64 on. -/
def rowWord (s : State) (c : Nat) (q : MatCmd) (i j : Nat) : Word :=
  match teamOf s (if j < 64 then c else pairOf c) with | some v => mget 0 v.tiles (tileKey q.tile i (j % 64)) | none => 0

/-- A tile of a core has new words in some rows, `word` of row and column; the rest of its accumulators is as it was. -/
def RowsBecome (s t : State) (k : Nat) (q : MatCmd) (rows : Nat → Prop) (word : Nat → Nat → Word) : Prop :=
  ∀ v, teamOf s k = some v → ∃ w, teamOf t k = some w ∧
    (∀ i j, rows i → j < 64 → mget 0 w.tiles (tileKey q.tile i j) = word i j) ∧
    ∀ n, (∀ i j, rows i → j < 64 → n ≠ tileKey q.tile i j) → mget 0 w.tiles n = mget 0 v.tiles n

/-- The products of a chunk of row i of A, in the leader's scratch, and column j of B, in a B-store (R164 - R169). -/
def products (scratch bst : List Host.Cell) (q : MatCmd) (i j : Nat) : List FVal :=
  let f := fmtBlock q.block
  let chunk := min (matChunk f.fa) (matChunk f.fb)
  (List.range chunk).map fun n =>
    let k := q.chunk * chunk + n
    let a := matElem scratch (q.addr + i * f.stride) f.fa k
    let b := matElem bst (32768 * j + mmaBoff q.shape.toNat) f.fb k
    let sa := (readByte scratch (f.scaleA + i * f.strideA + k / blockLen f.la)).toNat
    let sb := (readByte bst (32768 * j + f.scaleB + k / blockLen f.lb)).toNat
    (mulV (matVal f.fa a sa) (matVal f.fb b sb)).1

/-- The value an MDRAIN gives an element before its conversion: scaled by alpha, the residual added, then dropped or scaled by the
keep factor as Vesper says (R174). -/
def drained (d : Drain) (int : Bool) (word : Word) (res : Option FVal) (i j : Nat) : Word :=
  let t := rne32 (mulV (f32 d.alpha) (if int then ofInt word.toInt else f32 word)).1
  let t1 := match res with | some r => rne32 (addV .rne (f32 t) r).1 | none => t
  if d.dropout = false then t1
  else if (vesper d.key (vcounter d.step (d.row0 + i) (d.col0 + j))).toNat < d.threshold then 0
  else rne32 (mulV (f32 t1) (f32 d.keep)).1

end Sys2Proof.Claims

/-- What one piece of a running command leaves: a chunk of an MMA adds the exact sum of its products to every element, rounded, or
of integers wrapped with OVF set where the sum left the range; a column of an MLB stands in its slice of the B-store; a row of an
MDRAIN stands, scaled and converted, in scratch or memory, with its scales, and its tile row is zero when it asks for that; a row of
an ACCCPY is copied to or from scratch. With its last piece the command leaves the queue and signals (R97 - R100, R158, R161, R164 -
R176). -/
def Sys2Proof.Claims.MatrixResult : Prop :=
  ∀ s (c : Nat) tm q rest g, teamOf s c = some tm → tm.queue = q :: rest → gridOf s tm.part tm.grid = some g →
    (getPart s tm.part).migs = [] → matGoes s c = true → matBad s c tm q = false →
    (matUnits q ≤ q.chunk + 1 → CanSignal s tm.part tm.grid q.sem) →
    let p := tm.part
    let sb := q.shape.toNat
    let k := q.chunk
    let advances := fun (t : State) => ∃ tn, teamOf t c = some tn ∧
      (k + 1 < matUnits q → tn.queue = { q with chunk := k + 1 } :: rest ∧ t.incs = s.incs) ∧
      (matUnits q ≤ k + 1 → tn.queue = rest ∧ (q.sem = none → t.incs = s.incs) ∧
        ∀ a, q.sem = some a → Signalled s t p
          { core := c, group := q.group, team := tm.index, grid := tm.grid, pc := q.pc, after := q.after, tileOf := some q.group } a 1)
    (q.kind = .mma → ∃ t, exec (.matrixCommandComplete c 1) s = .next t ∧ advances t ∧ BytesPut s t p g.pasid c true false 0 [] ∧
      ∀ n ∈ arraysOf c q, ∀ v, teamOf s n = some v →
        let fresh := q.z && k == 0
        let old := fun i j => if fresh then 0 else mget 0 v.tiles (tileKey q.tile i j)
        let sum := fun i j => exactSum (products tm.scratch (getCore s n).bstore q i j)
        RowsBecome s t n q (fun i => i < mmaM sb)
          (fun i j => if q.int then (accI (old i j) (sum i j)).1 else accF (old i j) (sum i j)) ∧
        ∃ w, teamOf t n = some w ∧ ∀ m, m < 8 → w.ovf.getLsbD m = (if m = q.tile then
            (v.ovf.getLsbD m && !fresh) || (q.int && (List.range (mmaM sb)).any fun i => (List.range 64).any fun j =>
              (accI (old i j) (sum i j)).2)
          else v.ovf.getLsbD m)) ∧
    (q.kind = .mlb →
      let a := q.addr + k * mlbStride sb
      let n := mlbLen sb
      let target := if k < 64 then c else pairOf c
      Ready s p g.pasid q.loc a n → ∃ t, exec (.matrixCommandComplete c 1) s = .next t ∧ advances t ∧
        (∀ h, byteValue t p h = byteValue s p h) ∧
        (getCore t target).bstore = writeBytes (getCore s target).bstore (32768 * (k % 64) + mlbBoff sb)
          (bytesAt s p g.pasid tm q.loc a n) ∧
        ∀ m, m ≠ target → (getCore t m).bstore = (getCore s m).bstore) ∧
    (q.kind = .mdrain →
      let d := drainOf sb q.block
      let cols := if q.pair then 128 else 64
      let i := d.first + k
      let ra := d.resAt + k * d.resStride
      let oa := d.out + k * d.outStride
      let ca := d.scaleAt + k * scaleRow d cols
      let res := residualAt d (bytesAt s p g.pasid tm d.resLocal ra (resRow d cols))
      let out := drainBytes d (tab cols fun j => drained d q.int (rowWord s c q i j) (res j) i j)
      Ready s p g.pasid d.resLocal ra (resRow d cols) → Ready s p g.pasid d.outLocal oa (outRow d cols) →
      Ready s p g.pasid d.outLocal ca (scaleRow d cols) →
      ∃ u t, exec (.matrixCommandComplete c 1) s = .next t ∧ advances t ∧
        BytesPut s u p g.pasid c d.outLocal false oa out.1 ∧ BytesPut u t p g.pasid c d.outLocal false ca out.2 ∧
        ∀ n ∈ arraysOf c q, RowsBecome s t n q (fun r => r = i ∧ q.z = true) (fun _ _ => 0)) ∧
    (q.kind = .acccpySt → (∀ n ∈ arraysOf c q, (teamOf s n).isSome) → ∃ t, exec (.matrixCommandComplete c 1) s = .next t ∧ advances t ∧
      BytesPut s t p g.pasid c true false (q.addr + k * accStride sb)
        ((tab (if q.pair then 128 else 64) fun j => rowWord s c q (rowFirst sb + k) j).flatMap fun w => toBytes 4 w.toNat) ∧
      ∀ n ∈ arraysOf c q, RowsBecome s t n q (fun _ => False) (fun _ _ => 0)) ∧
    (q.kind = .acccpyLd → ∃ t, exec (.matrixCommandComplete c 1) s = .next t ∧ advances t ∧ BytesPut s t p g.pasid c true false 0 [] ∧
      ∀ n ∈ arraysOf c q, RowsBecome s t n q (fun i => i = rowFirst sb + k) fun _ j =>
        BitVec.ofNat 32 (readLE tm.scratch (q.addr + k * accStride sb + 4 * ((if n = c then 0 else 64) + j)) 4))

/-- A collective meets once every participant has issued: with equal contributions every participant's result is written and its
contribution ends; with unequal ones the tasks end. Where one would read an uncorrectable word nothing is written and nothing
signalled (R280, R281, R411). -/
def Sys2Proof.Claims.CollectiveMeeting : Prop :=
  ∀ s (p id : Nat) cs, (getPart s p).stopped = false →
    let mine := (mvals s.cores).flatMap fun k => match k.team with
      | some t => if t.part = p then t.colls.filter fun c => c.id == id else []
      | none => []
    (((mine.map (·.cores)).foldl addNew []).find? fun l => l.all fun c => (contribution s p id l c).isSome) = some cs →
    let l := participants s p id cs
    ∀ q r, l = q :: r →
      ((∀ u ∈ l, sameColl q.2.2 u.2.2 = true) →
        (∀ u ∈ l, collBad u = false) → exec (.collectiveMeet p id) s = .next (l.foldl (fun s u => collDeliver s l u) s)) ∧
      ((∃ u ∈ l, collBad u = true) → ∃ t, exec (.collectiveMeet p id) s = .next t ∧ SameMemory s t ∧ t.incs = s.incs ∧
        ∀ u ∈ l, ∀ tm, teamOf s u.1 = some tm → ∃ tn, teamOf t u.1 = some tn ∧ tn.scratch = tm.scratch) ∧
      ((∃ u ∈ l, sameColl q.2.2 u.2.2 = false) → (∀ u ∈ l, collBad u = false) →
        ∃ t, exec (.collectiveMeet p id) s = .next t ∧ ∀ u ∈ l, ∀ g, gridOf s p u.2.1.grid = some g → TaskOver s t p g.task)

/-- What a participant of a collective holds after its delivery, with its signal: the sum, the root's buffer, or every buffer in
turn (R281). -/
def Sys2Proof.Claims.CollectiveResult : Prop :=
  ∀ s l (q : Nat × Team × Coll) tm, teamOf s q.1 = some tm → CanSignal s q.2.1.part q.2.2.grid q.2.2.sem →
    let bufs := l.map fun u => readBytes u.2.1.scratch u.2.2.buf u.2.2.len
    ∃ tn, teamOf (collDeliver s l q) q.1 = some tn ∧ tn.colls = tm.colls.erase q.2.2 ∧
      (q.2.2.op = .agath → tn.scratch = writeBytes tm.scratch q.2.2.out bufs.flatten) ∧
      (q.2.2.op = .radd → ∀ b r, bufs = b :: r →
        tn.scratch = writeBytes tm.scratch q.2.2.buf (r.foldl (addBuffers q.2.2.type) b)) ∧
      (q.2.2.op = .bcast → ∀ u, (l.find? fun v => v.1 == q.2.2.root) = some u →
        tn.scratch = writeBytes tm.scratch q.2.2.buf (readBytes u.2.1.scratch u.2.2.buf u.2.2.len)) ∧
      ∀ a, q.2.2.sem = some a → Signalled s (collDeliver s l q) q.2.1.part
        { core := q.1, group := q.2.2.group, team := q.2.2.team, grid := q.2.2.grid, pc := q.2.2.pc,
          desc := BitVec.ofNat 32 q.2.2.desc, after := q.2.2.after } a 1

/-- A message that reaches a receiving team is taken by the first posted receive that matches, or stands in the overflow queue;
without a receiving team it is refused, tried again, and dropped after 100 us (R285 - R289). -/
def Sys2Proof.Claims.MessageProgress : Prop :=
  ∀ s (i : Nat) m, s.msgs[i]? = some m → msgFirst s i m = true →
    (∀ e, (e = Instr.messageArrival i ∧ m.refused = none) ∨ (e = Instr.messageRetry i ∧ m.refused.isSome) →
      (receiver s m = none → ∃ t, exec e s = .next t ∧ t.msgs = s.msgs.set i { m with refused := some (m.refused.getD s.now) } ∧
        SameMemory s t) ∧
      (∀ tm r, receiver s m = some tm → (tm.recvs.find? fun r => msgMatch r.pat.toNat m.src m.tag) = some r →
        CanSignal s m.part m.grid m.sem → CanSignal s tm.part tm.grid r.sem →
        ∃ t tn, exec e s = .next t ∧ teamOf t m.dst = some tn ∧ t.msgs = s.msgs.eraseIdx i ∧ tn.recvs = tm.recvs.erase r ∧
          tn.scratch = writeBytes tm.scratch r.buf (msgHeader m.src m.payload.length m.tag ++ m.payload) ∧ SameMemory s t) ∧
      (∀ tm k, receiver s m = some tm → (tm.recvs.find? fun r => msgMatch r.pat.toNat m.src m.tag) = none →
        ((List.range 32).find? fun k => !(tm.qmsgs.any fun q => q.slot == k)) = some k → CanSignal s m.part m.grid m.sem →
        ∃ t tn, exec e s = .next t ∧ teamOf t m.dst = some tn ∧ t.msgs = s.msgs.eraseIdx i ∧
          tn.qmsgs = tm.qmsgs ++ [{ slot := k, src := m.src, len := m.payload.length, tag := m.tag }] ∧
          tn.scratch = writeBytes tm.scratch (queueAddr tm k) (msgHeader m.src m.payload.length m.tag ++ m.payload) ∧
          SameMemory s t)) ∧
    (∀ since, m.refused = some since → since + 500000 ≤ s.now → receiver s m = none →
      recordRoom s m.part (some (dieOf m.src)) ≠ 0 →
      ∃ t, exec (.messageDrop i) s = .next t ∧ t.msgs = s.msgs.eraseIdx i ∧ SameMemory s t ∧
        (bit (getPart s m.part).fqcfg.toNat 0 = true →
          ∃ r ∈ (getPart t m.part).records, r.code = 0x33 ∧ r.core = m.src ∧ r.group = m.group ∧ r.pc = m.pc ∧ r.ends = false))

namespace Sys2Proof.Claims

/-- Waits on a word tested in turn against its count, each that is satisfied taking its target away: the count that is left, and the
waits that were satisfied (R324). -/
def served : Nat → List SemWait → Nat × List SemWait
  | n, [] => (n, [])
  | n, w :: r => if w.target.toNat ≤ n then ((served (n - w.target.toNat) r).1, w :: (served (n - w.target.toNat) r).2) else served n r

end Sys2Proof.Claims

/-- An increment executes at its quiet word: the count goes up, and the waits listed for the word are tested in their order, each
that is satisfied taking its target and letting its group go on; the operation of a `seminc` is over; after a grid's retirement
increment its pages are released. A wait that found its list full is satisfied at its next try, or listed behind the others (R318,
R323, R324). -/
def Sys2Proof.Claims.SemaphoreProgress : Prop :=
  (∀ s (i : Nat) k, Sys2Proof.Inv s → s.incs[i]? = some k → (getPart s k.part).stopped = false →
    lineQuiet s k.part (lineBase k.hpa) = true → pullFrom (getPart s k.part) (lineBase k.hpa) = none → k.hpa % 8 = 0 →
    incWaits s k = false →
    let ws := s.semWaits.filter fun w => w.listed && w.hpa == k.hpa && waitPart s w == k.part
    let r := served ((semCount s k.part k.hpa + k.by_.toNat) % 2 ^ 32) ws
    ∃ t, exec (.semaphoreIncrement i) s = .next t ∧ t.incs = s.incs.eraseIdx i ∧
      readLE t.mem (memKey (getPart s k.part) k.hpa) 4 = r.1 ∧
      t.semWaits = (s.semWaits.filter fun w => !(r.2.any fun q => q.core == w.core && q.group == w.group)) ∧
      (∀ w ∈ r.2, ∀ g l, groupOf s w.core w.group = some g → g.wait = .sem l →
        ∃ h, groupOf t w.core w.group = some h ∧ h.state = .ready ∧ h.wait = .none ∧ SameScalars g h [] ∧
          ((r.2.filter fun q => q.core == w.core && q.group == w.group) = [w] → h.spc = g.spc + 4)) ∧
      (∀ c id, k.op = some (c, id) → ∀ o ∈ (getCore t c).ops, o.id ≠ id) ∧
      (k.retires = true → ∀ q, gridOf t k.part k.grid = some q → q.pinned = [])) ∧
  (∀ s (c gi : Nat) w, (s.semWaits.find? fun w => w.core == c && w.group == gi) = some w → coreStopped s c = false →
    w.listed = false → w.tried + 10000 ≤ s.now → lineQuiet s (waitPart s w) (lineBase w.hpa) = true →
    let others := s.semWaits.filter fun q => !(q.core == c && q.group == gi)
    (w.target.toNat ≤ semCount s (waitPart s w) w.hpa → ∀ g l, groupOf s c gi = some g → g.wait = .sem l →
      ∃ t h, exec (.semwaitListRetry c gi) s = .next t ∧ groupOf t c gi = some h ∧ h.state = .ready ∧ h.spc = g.spc + 4 ∧
        SameScalars g h [] ∧ t.semWaits = others) ∧
    (semCount s (waitPart s w) w.hpa < w.target.toNat → ∃ t, exec (.semwaitListRetry c gi) s = .next t ∧ SameMemory s t ∧
      t.semWaits = others ++ [{ w with listed := semRoom s (waitPart s w) w.hpa, tried := s.now }]))

/-- A Noon context all of whose participants have arrived, none of them saved, releases: its generation counts up, arrivals clear,
and the changed mask takes effect (R326 - R328). That a generation for which no group has arrived does not release is the model's
reading (log 30). -/
def Sys2Proof.Claims.NoonReleaseResult : Prop :=
  ∀ s (p k : Nat), (getPart s p).stopped = false →
    let n := mget {} (getPart s p).noon k
    (n.begun = false → exec (.noonRelease p k) s = .next s) ∧
    (n.armed = true → n.begun = true → n.mask ≠ [] → n.saved = [] → (∀ c ∈ n.mask, c ∈ n.arrived) →
      ∃ t, exec (.noonRelease p k) s = .next t ∧ SameMemory s t ∧
      mget {} (getPart t p).noon k = { n with gen := n.gen + 1, arrived := [], begun := false, mask := n.next } ∧
      ∀ c ∈ n.mask, ∀ tm, teamOf s c = some tm → tm.part = p →
        ∀ gi g, groupIn tm gi = some g → ∃ h, groupOf t c gi = some h ∧ (16 + k) ∉ h.arrived ∧
          (g.wait = .bar (16 + k) → (16 + k) ∈ g.arrived → h.state = .ready ∧ h.wait = .none) ∧ SameScalars g h [])

/-- The oldest record goes to its slot of the ring, which then counts it; a full ring holds it back (R398, R399). -/
def Sys2Proof.Claims.RecordReachesRing : Prop :=
  ∀ s (p : Nat) r rest, Sys2Proof.Inv s → (getPart s p).records = r :: rest → bit (getPart s p).fqcfg.toNat 0 = true →
    let v := getPart s p
    let slot := fld v.fqcfg.toNat 12 40 * 4096 + 64 * (v.fqtail.toNat % 2 ^ fld v.fqcfg.toNat 1 5)
    (ringFull v = true → exec (.faultRecordWritten p) s = .next s) ∧
    (ringFull v = false → lineQuiet s p (lineBase slot) = true →
      ∃ t, exec (.faultRecordWritten p) s = .next t ∧ (getPart t p).records = rest ∧ (getPart t p).fqtail = v.fqtail + 1 ∧
        readBytes t.mem (memKey v slot) 64 = recordBytes r)

/-! ## The sharer trees (spec/10) -/

namespace Sys2Proof.Claims

/-- Message i stands at a router that serves it, and is the next for its line there. -/
def AtRouter (s : State) (i : Nat) (m : Msg) (site : Nat) (port : Port) : Prop :=
  s.net[i]? = some m ∧ msgEnabled s i = true ∧ m.loc = .router site port ∧ routerDead s site = false

/-- Message i stands at the endpoints behind a site's local port, which take it. -/
def AtSite (s : State) (i : Nat) (m : Msg) (site : Nat) : Prop :=
  s.net[i]? = some m ∧ msgEnabled s i = true ∧ m.loc = .site site ∧
    (isComputeSite site && (inHopStop s (unitOfSite site) || (getPart s m.part).stopped)) = false

/-- Where a message stands after it has left a router by a port. -/
def leavesTo (site : Nat) (p : Port) : Loc := if p = .loc then .site site else .router (neighbour site p) (opposite p)

/-- Message i is gone, and `m` has left the router by a port, to be handled once its hop has passed (R17). -/
def Passes (s t : State) (i : Nat) (m : Msg) (site : Nat) (p : Port) : Prop :=
  t.net = s.net.eraseIdx i ++ [{ m with loc := leavesTo site p,
                                        ready := s.now + (if p = .loc then 0 else hopTime site (neighbour site p)),
                                        waiting := false }]

/-- A message of a kind has left the router by a port. -/
def Left (t : State) (k : MsgKind) (m : Msg) (site : Nat) (p : Port) : Prop :=
  ∃ q ∈ t.net, q.kind = k ∧ q.line = m.line ∧ q.part = m.part ∧ q.loc = leavesTo site p

/-- The router remembers the request and the port it came in by (R228, R232). -/
def Remembers (t : State) (site : Nat) (m : Msg) (port : Port) (isRead : Bool) : Prop :=
  ∃ q ∈ (getRouter t site).merges, q.line = m.line ∧ q.part = m.part ∧ q.req = m.req ∧ q.txn = m.txn ∧ q.port = port ∧
    q.isRead = isRead

/-- A line that message i has brought home stands in storage, and the answer to its sender is on its way; nothing else of memory
changes (R242). -/
def Landed (s t : State) (i : Nat) (m : Msg) (site : Nat) (d : Line) : Prop :=
  storedLine t m.part m.line = d ∧ SameMemoryOutside s t (memKey (getPart s m.part) m.line) 128 ∧
    t.net = s.net.eraseIdx i ++ [{ m with kind := .written, data := none, det := .none, loc := .router site .loc, ready := s.now,
                                          waiting := false }]

/-- No entry of reads under way at a router absorbs the read. -/
def NoMerge (s : State) (site : Nat) (m : Msg) : Prop :=
  ∀ q ∈ (getRouter s site).merges, q.line = m.line → q.part = m.part → q.isRead = true → q.cleared = false →
    q.req = m.req ∧ q.txn = m.txn

end Sys2Proof.Claims

/-- A home-bound read is caught by a Stable entry and steered, passes a router that has none, or is served by its anchor from
storage; a steered read follows the entries and becomes home-bound where the tree is lost; a reply retraces the trail and then
the request's path, grafting the entry (R226 - R228, R236, R239). The model's own choices and readings it rests on: logs 5, 11,
14, 18, 20 (DEDUCED); log 4 (DESIGN CHOICE). -/
def Obligations.ReadsTravel : Prop :=
  ∀ s (i : Nat) m site port, AtRouter s i m site port →
    (m.kind = .homeRead →
      (∀ e, entryAt s site m.part m.line = some e → e.state = .stable → NoMerge s site m → mergeRoom s site m.part = true →
        ∃ t, exec (.routerHomeBoundRead i) s = .next t ∧
          Passes s t i { m with kind := .steered, trail := [] } site (steerPort (isAnchor s site m.part m.line) e port) ∧
          Remembers t site m port true ∧ SameMemory s t) ∧
      (∀ p d, entryAt s site m.part m.line = none → isAnchor s site m.part m.line = false → NoMerge s site m →
        mergeRoom s site m.part = true → nextPort s m.part m.det site (anchorSite s m.part m.line) = some (p, d) →
        ∃ t, exec (.routerHomeBoundRead i) s = .next t ∧ Passes s t i { m with trail := [], det := d } site p ∧
          Remembers t site m port true ∧ SameMemory s t) ∧
      (∀ s1, entryAt s site m.part m.line = none → isAnchor s site m.part m.line = true → anchorBusy s m.part m.line = false →
        storageHeld s m.part m.line false = true →
        graftEntry (pullLine s m.part m.line) (m.req, m.txn) site m.part m.line port .loc false = .made s1 →
        ∃ t, exec (.routerHomeBoundRead i) s = .next t ∧
          Passes s t i { m with kind := .reply, data := some (storedLine s1 m.part m.line), excl := !m.prefetch,
                                trail := [] } site port)) ∧
    (m.kind = .steered →
      (∀ e, entryAt s site m.part m.line = some e → e.state = .stable →
        ∃ t, exec (.routerSteeredRead i) s = .next t ∧ SameMemory s t ∧
          Passes s t i { m with kind := .steered, trail := (site, port) :: m.trail } site
            (steerPort (isAnchor s site m.part m.line) e port)) ∧
      (entryAt s site m.part m.line = none → (∀ r ∈ m.trail, mergeRoom s r.1 m.part = true) →
        ∃ t, exec (.routerSteeredRead i) s = .next t ∧ SameMemory s t ∧
          t.net = s.net.eraseIdx i ++ [{ m with kind := .homeRead, trail := [], det := .none, ready := s.now, waiting := false }])) ∧
    (m.kind = .reply →
      (∀ r out rest, m.trail = (r, out) :: rest → ∃ t, exec (.routerReadReply i) s = .next t ∧ SameMemory s t ∧
        Passes s t i { m with trail := rest } site out) ∧
      (∀ g s2, m.trail = [] → lastMerge s site m = some g → m.fillOnce = false → g.cleared = false → g.absorbed = [] →
        (∀ e, entryAt s site m.part m.line = some e → e.state = .stable) →
        graftEntry (freeLastMerge (dropMsg s i) site m) (m.req, m.txn) site m.part m.line g.port port false = .made s2 →
        ∃ t e, exec (.routerReadReply i) s = .next t ∧ SameMemory s t ∧ Passes s t i m site g.port ∧
          entryAt t site m.part m.line = some e ∧ portHas e.mask g.port = true))

/-- A write request climbs to its anchor, remembered on the way; the anchor tears the line's tree down, one invalidation on every
port with holders. An upgrade follows its tree, or becomes a write request in its place where it is lost. Grants and responses
travel back (R230 - R233, R236). -/
def Sys2Proof.Claims.WritesTravel : Prop :=
  ∀ s (i : Nat) m site port, AtRouter s i m site port →
    ((m.kind = .writeReq ∨ m.kind = .opReq) →
      (∀ p d, isAnchor s site m.part m.line = false → nextPort s m.part m.det site (anchorSite s m.part m.line) = some (p, d) →
        (m.kind = .writeReq → mergeRoom s site m.part = true) →
        ∃ t, exec (.routerWriteRequest i) s = .next t ∧ Passes s t i { m with det := d } site p ∧ SameMemory s t ∧
          (m.kind = .writeReq → Remembers t site m port false)) ∧
      (∀ e, isAnchor s site m.part m.line = true → anchorBusy s m.part m.line = false →
        entryAt s site m.part m.line = some e → e.state = .stable → holderPorts true e ≠ [] → dupOf s m = none →
        storageHeld s m.part m.line (!reqReads m) = true → reqRuns s m = true →
        ∃ t f, exec (.routerWriteRequest i) s = .next t ∧ entryAt t site m.part m.line = some f ∧ f.state = .tearing ∧
          f.awaited = holderPorts true e ∧ (∀ p ∈ holderPorts true e, Left t .inval m site p) ∧
          (∃ a ∈ t.anchors, a.line = m.line ∧ a.msg = m) ∧ SameMemory s t)) ∧
    (m.kind = .upgrade →
      (∀ e, entryAt s site m.part m.line = some e → e.state = .stable → portHas e.mask port = true →
        isAnchor s site m.part m.line = false → mergeRoom s site m.part = true →
        ∃ t f, exec (.routerUpgrade i) s = .next t ∧ Passes s t i m site e.root ∧ Remembers t site m port false ∧
          entryAt t site m.part m.line = some f ∧ f.keep = some port ∧ f.mask = e.mask ∧ SameMemory s t) ∧
      ((∀ e, entryAt s site m.part m.line = some e → e.state = .stable → portHas e.mask port = false) →
        ∃ t, exec (.routerUpgrade i) s = .next t ∧ SameMemory s t ∧ t.net = s.net.set i { m with kind := .writeReq })) ∧
    (m.kind = .opResp ∨ m.kind = .written → ∀ p d, nextPort s m.part m.det site (requesterSite m.req) = some (p, d) →
      ∃ t, exec (.routerGrant i) s = .next t ∧ Passes s t i { m with det := d } site p ∧ SameMemory s t) ∧
    (m.kind = .grant → ∀ g s2, lastMerge s site m = some g → m.fillOnce = false →
      (∀ e, entryAt s site m.part m.line = some e → e.state = .stable) →
      graftEntry (freeLastMerge (dropMsg s i) site m) (m.req, m.txn) site m.part m.line g.port port true = .made s2 →
      ∃ t e, exec (.routerGrant i) s = .next t ∧ Passes s t i m site g.port ∧ SameMemory s t ∧
        entryAt t site m.part m.line = some e ∧ e.mask = portAdd 0 g.port)

/-- Invalidations and cuts that come by an entry's root pass to every holder and are acknowledged, and leave it as it is by another
port; acks are counted; prunes take a port out of a Stable entry, whose last frees it; a line that comes home is written to storage,
and its sender is told so (R231, R234, R235, R237, R238, R242). -/
def Sys2Proof.Claims.TeardownsTravel : Prop :=
  ∀ s (i : Nat) m site port, AtRouter s i m site port →
    (∀ e, (e = Instr.routerInvalidation i ∧ m.kind = .inval) ∨ (e = Instr.routerCut i ∧ m.kind = .cut) →
      (entryAt s site m.part m.line = none → ∃ t, exec e s = .next t ∧ Left t .ack m site port ∧ SameMemory s t) ∧
      (∀ f, entryAt s site m.part m.line = some f → f.state = .stable →
        let ps := (holderPorts false f).filter (· != port)
        (f.root ≠ port → ∃ t, exec e s = .next t ∧ entryAt t site m.part m.line = some f ∧ Left t .ack m site port ∧ SameMemory s t) ∧
        (f.root = port → ps ≠ [] → ∃ t g, exec e s = .next t ∧ entryAt t site m.part m.line = some g ∧ g.state = .tearing ∧
          g.awaited = ps ∧ g.root = port ∧ (∀ p ∈ ps, Left t m.kind m site p) ∧ SameMemory s t))) ∧
    (m.kind = .ack → ∀ e, entryAt s site m.part m.line = some e → e.state ≠ .stable → e.awaited.contains port = true →
      (e.awaited.erase port ≠ [] → ∃ t f, exec (.routerAck i) s = .next t ∧ entryAt t site m.part m.line = some f ∧
        f.awaited = e.awaited.erase port ∧ f.state = e.state ∧ t.net = s.net.eraseIdx i ∧ SameMemory s t) ∧
      (∀ a, e.awaited = [port] → e.state = .tearing → isAnchor s site m.part m.line = false → e.answer = [a] →
        ∃ t, exec (.routerAck i) s = .next t ∧ entryAt t site m.part m.line = none ∧ Left t .ack m site a ∧ SameMemory s t)) ∧
    (m.kind = .dataAck → ∀ d, isAnchor s site m.part m.line = true → Sys2Proof.Inv s → m.data = some d →
      homeTested s m.part m.line = false → entryAt s site m.part m.line = none → dupOf s m = none →
      ∃ t, exec (.routerDataAck i) s = .next t ∧ Landed s t i m site d) ∧
    (m.kind = .prune →
      (∀ e, entryAt s site m.part m.line = some e → e.state = .stable → m.data = none →
        (portDel e.mask port = 0 → isAnchor s site m.part m.line = false → ∃ t, exec (.routerPrune i) s = .next t ∧
          entryAt t site m.part m.line = none ∧ Passes s t i m site e.root ∧ SameMemory s t) ∧
        (portDel e.mask port ≠ 0 → ∃ t f, exec (.routerPrune i) s = .next t ∧ entryAt t site m.part m.line = some f ∧
          f.mask = portDel e.mask port ∧
          f.state = .stable ∧ t.net = s.net.eraseIdx i ∧ SameMemory s t)) ∧
      (∀ d, entryAt s site m.part m.line = none → isAnchor s site m.part m.line = true → Sys2Proof.Inv s → m.data = some d →
        homeTested s m.part m.line = false → dupOf s m = none → ∃ t, exec (.routerPrune i) s = .next t ∧ Landed s t i m site d)) ∧
    (m.kind = .writeBack → ∀ d, isAnchor s site m.part m.line = true → Sys2Proof.Inv s → m.data = some d → m.fillOnce = false →
      homeTested s m.part m.line = false → dupOf s m = none →
      ∃ t, exec (.anchorWriteBack i) s = .next t ∧ Landed s t i m site d)

/-- The transaction waits: its partition is stopped, its line's memory is under test, or its tree is not down yet. -/
def AnchorWaits (s : State) (b : AnchorTxn) : Prop :=
  (getPart s b.msg.part).stopped = true ∨ homeTested s b.msg.part b.line = true ∨
  ((entryAt s (anchorSite s b.msg.part b.line) b.msg.part b.line).isSome = true ∧ (b.msg.op = none ∨ b.success = true))

/-- An anchor whose tree is down executes the operation it holds and answers with the value it read, whatever another partition's
transaction of the line waits for and once the releases of the line that its own partition's cores remember are drained; an operation
on another panel's line goes to the anchor there; a request unanswered for 4 us goes out again unchanged; a retried flit changes
nothing but its time (R218, R233, R242, R246, R257, R378, R409). -/
def Sys2Proof.Claims.AnchorsAnswer : Prop :=
  (∀ s (line : Nat) a o, Sys2Proof.Inv s →
    (∃ pre post, s.anchors = pre ++ a :: post ∧ ∀ b ∈ pre, b.line = line → AnchorWaits s b) → a.line = line →
    (getPart s a.msg.part).stopped = false →
    homeTested s a.msg.part line = false → a.msg.op = some o → entryAt s (anchorSite s a.msg.part line) a.msg.part line = none →
    pullFrom (getPart s a.msg.part) line = none →
    (o.prom = true → ∀ q ∈ s.cores, ∀ tm, q.2.team = some tm → tm.part = a.msg.part → relDrained q.2 line = true) →
    let at_ := memKey (getPart s a.msg.part) o.addr
    let r := opEffect o (readLE s.mem at_ o.size) a.success
    ∃ t q, exec (.anchorAtomic line) s = .next t ∧ q ∈ t.net ∧ q.kind = .opResp ∧ q.req = a.msg.req ∧ q.txn = a.msg.txn ∧
      q.result = r.1 ∧ (∀ b ∈ t.anchors, ¬ (b.line = line ∧ b.msg.part = a.msg.part)) ∧
      t.outbox = (if tierOf s a.msg.part line = some 3 ∧ o.kind ≠ .read ∧ o.kind ≠ .write then s.outbox ++ [.anchorOp o]
        else s.outbox) ∧
      (r.2 = none → SameMemory s t) ∧
      (∀ v, r.2 = some v → readLE t.mem at_ o.size = v % 2 ^ (8 * o.size) ∧ SameMemoryOutside s t at_ o.size)) ∧
  (∀ s (i : Nat) o, s.outstanding[i]? = some o → o.held = none → o.sent + 20000 ≤ s.now → (getPart s o.msg.part).stopped = false →
    ∃ t, exec (.endToEndRetransmission i) s = .next t ∧ t.outstanding = s.outstanding.set i { o with sent := s.now } ∧
      t.net = s.net ++ [{ o.msg with loc := .router (requesterSite o.msg.req) .loc, ready := s.now, waiting := false }] ∧
      SameMemory s t) ∧
  (∀ s (i : Nat) m, s.net[i]? = some m → s.now < m.ready →
    exec (.linkCrcRetry i) s = .next { s with net := s.net.set i { m with ready := m.ready + 12 } })

/-- The lowest holder of a die supplies a steered read, and keeps the line as Table 10-2 says; an invalidation takes the line from a
die's L1s and is acknowledged, with the line when it was dirty; replies and grants install the line or complete the operation
(R224, R225, R228, R232, R233). -/
def Sys2Proof.Claims.EndpointsAnswer : Prop :=
  ∀ s (i : Nat) m site, AtSite s i m site →
    (m.kind = .steered → isComputeSite site = true → ∀ c l,
      ((dieCores (unitOfSite site)).find? fun c => (l1Find (getCore s c) m.line).isSome) = some c →
      l1Find (getCore s c) m.line = some l →
      ∃ t, exec (.l1SteeredRead i) s = .next t ∧ SameMemory s t ∧
        l1Find (getCore t c) m.line = some { l with state := supplied l.state } ∧
        t.net = s.net.eraseIdx i ++ [{ m with kind := .reply, data := some l.data, excl := false, loc := .router site .loc,
                                              ready := s.now, waiting := false, edge := false }]) ∧
    ((m.kind = .inval ∨ m.kind = .cut) → m.drain = false → isComputeSite site = true → ∀ c l, c ∈ dieCores (unitOfSite site) →
      l1Find (getCore s c) m.line = some l → (m.kind = .inval → m.keep = true → m.req ≠ .core c) →
      unsent s m.part m.line site = false → (∀ r, windowFull s r m.part m.line = false) →
      ∃ t q, exec (.l1Invalidation i) s = .next t ∧ SameMemory s t ∧ l1Find (getCore t c) m.line = none ∧ q ∈ t.net ∧
        q.line = m.line ∧ q.loc = .router site .loc ∧ (q.kind = .ack ∨ q.kind = .dataAck) ∧
        (dirty l.state = true → q.kind = .dataAck ∧ q.counts = true)) ∧
    (m.kind = .reply → ∀ c k tm d, m.req = .core c → ((getCore s c).misses.find? fun q => q.txn == m.txn) = some k →
      (∀ g, k.kind ≠ .watch g) → (getCore s c).team = some tm → m.data = some d → m.fillOnce = false →
      l1Find (getCore s c) m.line = none → canInstall s c (setOf tm k.va) m.line = true →
      exec (.requesterFill i) s = .next (pump (install (endMiss (dropMsg s i) c m.txn) c m.part
        { line := m.line, set := setOf tm k.va, state := if m.excl && !m.prefetch then .e else .s, data := d }) c)) ∧
    (m.kind = .opResp → ∀ c k tm acc a, m.req = .core c → ((getCore s c).misses.find? fun q => q.txn == m.txn) = some k →
      (getCore s c).team = some tm → k.kind = .op acc → ((getCore s c).accs.find? fun a => a.id == acc) = some a → a.kind ≠ .sc →
      exec (.writerGrant i) s = .next (pump (finishAcc (endMiss (dropMsg s i) c m.txn) c a m.result) c)) ∧
    (m.kind = .grant → ∀ c k tm d, m.req = .core c → ((getCore s c).misses.find? fun q => q.txn == m.txn) = some k →
      (getCore s c).team = some tm → k.kind = .write → m.data = some d → m.fillOnce = false →
      l1Find (getCore s c) m.line = none → canInstall s c (setOf tm k.va) m.line = true →
      exec (.writerGrant i) s = .next (pump (install (endMiss (dropMsg s i) c m.txn) c m.part
        { line := m.line, set := setOf tm k.va, state := .m, data := d }) c))

/-! ## The host, other panels and translation (spec/08, spec/10, spec/18) -/

/-- A host read of device memory answers with its bytes, leaves it as it is, and turns a holder's M to O and E to S; a host write
replaces them; a snoop gives a host line back; a response of the host gives an anchor the line it asked for (R244). -/
def Sys2Proof.Claims.HostAccesses : Prop :=
  (∀ s (port a n p : Nat), hostReach s port a n = some p →
    ∃ t, exec (.hostCxlMemRead port a n) s = .next t ∧ t.outbox = s.outbox ++ [.data (readPhys s p a n)] ∧
      ((∀ l ∈ linesOf a n, pullFrom (getPart s p) l = none) → SameMemory s t ∧
        ∀ c tm l, teamOf s c = some tm → tm.part = p → l ∈ (getCore s c).l1 → l.line ∈ linesOf a n →
          { l with state := supplied l.state } ∈ (getCore t c).l1)) ∧
  (∀ s (port a p : Nat) bs, Sys2Proof.Inv s → hostReach s port a bs.length = some p →
    ∃ t, exec (.hostCxlMemWrite port a bs) s = .next t ∧
      ∀ i b, bs[i]? = some b → readByte t.mem (memKey (getPart s p) (a + i)) = b) ∧
  (∀ s (line : Nat), (∀ p ∈ mkeys s.parts, tierOf s p (lineBase line) = some 2 → lineQuiet s p (lineBase line) = true) →
    ∃ t d, exec (.hostSnoop line) s = .next t ∧ t.outbox = s.outbox ++ [.data d] ∧
      (∀ q ∈ t.hostLines, q.1 / 64 ≠ lineBase line) ∧ d = toBytes 128 (lineOf t.mem (lineBase line)).toNat) ∧
  (∀ s (line key : Nat) own, (s.hostReqs.find? fun q => q.1 / 64 == lineBase line) = some (key, own) →
    hostMayGive s (key % 64) (lineBase line) own = true →
    ∃ t, exec (.hostLineResponse line none) s = .next t ∧ mget? t.hostLines key = some own ∧ t.hostReqs = mdel s.hostReqs key ∧
      SameMemory s t)

/-- A link asks for the first line of the tile it lacks, and with none lacking gives the tile to its panel; a recalled tile leaves
the partition; a tile that was asked for is held in the state the panel gives (R245 - R247). -/
def Sys2Proof.Claims.PanelAccesses : Prop :=
  (∀ s (p link tile : Nat) excl l, (getPart s p).active = true → (getPart s p).stopped = false →
    bit (lnkMask (getPart s p)) link = true → link < 32 →
    ((tileLines tile).all fun l => inNear (getPart s p) l || inFar (getPart s p) l) = true →
    (s.outstanding.any fun o => o.msg.req == .link link && o.msg.line / 2048 == tile) = false →
    (excl = true → ∀ l, windowFull s (.link link) p l = false ∧ unsent s p l (linkSite link) = false) →
    ((tileLines tile).find? fun l => match proxyOf s link l with
      | some q => excl && q.state != .m && q.state != .e | none => true) = some l →
    ∃ t m, exec (.remotePanelRequest p link tile excl) s = .next t ∧ t.net = s.net ++ [m] ∧ m.line = l ∧ m.part = p ∧
      m.req = .link link ∧ m.kind = (if excl then MsgKind.writeReq else .homeRead) ∧ m.loc = .router (linkSite link) .loc ∧
      SameMemory s t) ∧
  (∀ s (p link tile : Nat) excl, (getPart s p).active = true → (getPart s p).stopped = false →
    bit (lnkMask (getPart s p)) link = true → link < 32 →
    ((tileLines tile).all fun l => inNear (getPart s p) l || inFar (getPart s p) l) = true →
    (s.outstanding.any fun o => o.msg.req == .link link && o.msg.line / 2048 == tile) = false →
    (∀ l ∈ tileLines tile, ∃ q, proxyOf s link l = some q ∧ (excl = true → q.state = .m ∨ q.state = .e)) →
    ∃ t, exec (.remotePanelRequest p link tile excl) s = .next t ∧ t.net = s.net ∧ SameMemory s t ∧
      t.outbox = s.outbox ++ [.data ((tileLines tile).flatMap fun l =>
        match proxyOf s link l with | some q => toBytes 128 q.data.toNat | none => [])] ∧
      (excl = true → ∀ q ∈ t.proxies, q.req = .link link → q.line / 2048 = tile → q.state = .m)) ∧
  (∀ s (p tile : Nat), (mget? s.tiles tile).isSome → (apOf (getPart s p) (2048 * tile)).isSome →
    (∀ l ∈ tileLines tile, lineQuiet s p l = true) →
    ∃ t d, exec (.remotePanelRecall p tile) s = .next t ∧ t.tiles = mdel s.tiles tile ∧ t.outbox = s.outbox ++ [.data d]) ∧
  (∀ s (p tile : Nat) excl want lines, lines.length = 16 → (apOf (getPart s p) (2048 * tile)).isSome →
    mget? s.tileReqs tile = some want →
    ∃ t, exec (.remoteTileResponse p tile excl lines) s = .next t ∧ mget? t.tiles tile = some (if excl then TileState.x else .s) ∧
      ((mget? s.tiles tile).isSome → SameMemory s t) ∧
      (mget? s.tiles tile = none → Sys2Proof.Inv s →
        ∀ k, k < 16 → storedLine t p (2048 * tile + 128 * k) = lines.getD k 0))

/-- A walk that ends caches its translation and wakes the stream that waited for it; an invalidation drops cached translations and
breaks pinned pages outside a revocation or migration; a shootdown's agent drops the entries and notes what is in flight; the last
acknowledgement ends it (R362 - R364, R369, R372, R373). -/
def Sys2Proof.Claims.TranslationSteps : Prop :=
  (∀ s (i : Nat) w q, s.walks[i]? = some w → (getPart s w.part).stopped = false →
    pageMoving (getPart s w.part) w.pasid (w.va / 4096) = false → leafQuiet s w.part w.pasid (w.va / 4096) = true →
    walkPage s w.part w.pasid w.va = some q →
    ∃ t, exec (.translationWalkComplete i) s = .next t ∧ t.walks = s.walks.eraseIdx i ∧
      tlbHit (getCore t w.core) w.pasid w.va = true ∧
      ∀ gi g b, w.group = some gi → groupOf s w.core gi = some g → g.wait = .walk b →
        ∃ h, groupOf t w.core gi = some h ∧ h.state = .ready ∧ h.wait = .walk true ∧ h.spc = g.spc ∧ SameScalars g h []) ∧
  (∀ s (p pasid va len : Nat), ∃ t, exec (.translationInvalidation p pasid va len) s = .next t ∧ SameMemory s t ∧
    (∀ c ∈ partCores (getPart s p), ∀ e ∈ (getCore t c).tlb,
      ¬ (e.pasid = pasid ∧ (pageSpan va len).1 < e.vpage + e.size ∧ e.vpage < (pageSpan va len).1 + (pageSpan va len).2)) ∧
    (∀ q ∈ (getPart t p).pins, q.pasid = pasid → pinIn q (pageSpan va len) = true →
      pinInWork (getPart s p) q = false → q.broken = true)) ∧
  (∀ s (p shot c : Nat) h, (getPart s p).stopped = false →
    ((getPart s p).shots.find? fun h => h.id == shot) = some h → h.toVisit.contains c = true →
    (∀ r ∈ (getPart s p).revs, r.shot = shot → revTeamsHere s p r = false) →
    ∃ t r, exec (.shootdown p shot c) s = .next t ∧ ((getPart t p).shots.find? fun h => h.id == shot) = some r ∧
      r.toVisit = h.toVisit.filter (· != c) ∧ r.toAck = h.toAck ++ [(c, inFlight s p c h)] ∧
      (∀ e ∈ (getCore t c).tlb, ¬ (e.pasid = h.pasid ∧ h.page < e.vpage + e.size ∧ e.vpage < h.page + h.pages)) ∧
      SameMemory s t) ∧
  (∀ s (p shot c : Nat) h q, (getPart s p).stopped = false → ((getPart s p).shots.find? fun h => h.id == shot) = some h →
    (h.toAck.find? fun q => q.1 == c) = some q → answered s c q.2 = true →
    let left := h.toAck.filter fun r => r.1 != c
    ((h.toVisit ≠ [] ∨ left ≠ []) → ∃ t r, exec (.shootdownAck p shot c) s = .next t ∧
      ((getPart t p).shots.find? fun h => h.id == shot) = some r ∧ r.toAck = left ∧ SameMemory s t) ∧
    (h.toVisit = [] → left = [] → (∀ m ∈ (getPart s p).migs, m.shot ≠ shot) → (∀ r ∈ (getPart s p).revs, r.shot ≠ shot) →
      ∃ t, exec (.shootdownAck p shot c) s = .next t ∧ (∀ r ∈ (getPart t p).shots, r.id ≠ shot) ∧ SameMemory s t))

/-- A migration shoots its page down, pulls its lines one by one, and ends with a 0x41 record; a page pinned before the host split
its mapping gets an entry of its own, and one that the host has not split into 4 KiB is refused; a revocation marks the grids that
hold a lease over its range and shoots it down; a re-grant asks for the lost pages of its range, and gives the leases back once they
are pinned (R366, R368, R370, R371). -/
def Sys2Proof.Claims.MigrationAndRevocation : Prop :=
  (∀ s (p pasid va hpa old : Nat), (getPart s p).active = true → (getPart s p).stopped = false → (getPart s p).migs.length < 8 →
    (∀ m ∈ (getPart s p).migs, ¬ (m.pasid = pasid ∧ m.page = va / 4096)) → lookup s p pasid (va / 4096 * 4096) = some old →
    (∀ q, walkPage s p pasid va = some q → q.size = 1) →
    hpa % 4096 = 0 → (tierOf s p hpa).isSome → inCtxArea (getPart s p) hpa = false →
    ∃ t h, exec (.migrate p pasid va hpa) s = .next t ∧ (getPart t p).shots = (getPart s p).shots ++ [h] ∧ h.page = va / 4096 ∧
      h.pages = 1 ∧ h.pasid = pasid ∧ h.toVisit = partCores (getPart s p) ∧ h.toAck = [] ∧ SameMemory s t ∧
      (getPart t p).migs = (getPart s p).migs ++ [{ pasid := pasid, page := va / 4096, old := old, new := hpa, shot := h.id }] ∧
      ∀ q, pinOf (getPart s p) pasid (va / 4096) = some q → ∃ k, pinOf (getPart t p) pasid (va / 4096) = some k ∧ k.size = 1 ∧
        k.page = va / 4096 ∧ k.frame = q.frame + 4096 * (va / 4096 - q.page)) ∧
  (∀ s (p pasid va hpa : Nat) q, (getPart s p).active = true → (getPart s p).stopped = false → (getPart s p).migs.length < 8 →
    (∀ m ∈ (getPart s p).migs, ¬ (m.pasid = pasid ∧ m.page = va / 4096)) →
    walkPage s p pasid va = some q → q.size ≠ 1 →
    exec (.migrate p pasid va hpa) s = .next { s with outbox := s.outbox ++ [.refused] }) ∧
  (∀ s (p k : Nat) m, (getPart s p).migs[k]? = some m → m.installed = true → (getPart s p).stopped = false →
    (∀ n, nextPull m = some n → lineQuiet s p (m.new + 128 * n) = true →
      exec (.migrationBackgroundPull p k) s = .next (pullLine s p (m.new + 128 * n))) ∧
    (nextPull m = none → recordRoom s p none ≠ 0 → ∃ t, exec (.migrationBackgroundPull p k) s = .next t ∧
      (getPart t p).migs = (getPart s p).migs.eraseIdx k ∧ SameMemory s t ∧
      (bit (getPart s p).fqcfg.toNat 0 = true →
        ∃ r ∈ (getPart t p).records, r.code = 0x41 ∧ r.addr = BitVec.ofNat 57 (m.page * 4096) ∧ r.pasid = m.pasid))) ∧
  (∀ s (p pasid va len : Nat), (getPart s p).active = true → (getPart s p).stopped = false → len ≠ 0 →
    ∃ t, exec (.revoke p pasid va len) s = .next t ∧ SameMemory s t ∧
      (∃ r, (getPart t p).revs = (getPart s p).revs ++ [r] ∧ r.pasid = pasid ∧ r.base = va ∧ r.len = len ∧
        (∀ g ∈ (getPart s p).grids, g.pasid = pasid → holdsLease g va len = true → g.seq ∈ r.grids) ∧
        ∃ h ∈ (getPart t p).shots, h.id = r.shot ∧ h.page = (pageSpan va len).1 ∧ h.pages = (pageSpan va len).2) ∧
      (∀ g ∈ (getPart t p).grids, g.pasid = pasid → holdsLease g va len = true → g.revoked = true) ∧
      ∀ c tm g, teamOf t c = some tm → tm.part = p → g ∈ (getPart s p).grids → g.pasid = pasid → holdsLease g va len = true →
        tm.grid = g.seq → activeTeam tm = false) ∧
  (∀ s (p pasid va len : Nat) g, (getPart s p).stopped = false → (getPart s p).revs = [] → (getPart s p).saved = [] →
    g ∈ (getPart s p).grids → g.pasid = pasid → g.revoked = true → g.state ≠ .ended → g.state ≠ .retired →
    (∀ x ∈ (getPart s p).grids, x.seq = g.seq ∨
      (x.pasid = pasid ∧ x.revoked = true ∧ x.state ≠ .ended ∧ x.state ≠ .retired) → x = g) →
    let asked := g.regrant ++ (g.lost.map (spanMeet (pageSpan va len))).filter fun q => q.2 != 0 && !g.regrant.contains q
    let g1 := { g with regrant := asked }
    let need := neededPages s p pasid (pinSpans g1)
    (asked ≠ [] → need.length ≤ pinCapacity → pagesPinned s p g1 = true →
      ∃ t, exec (.regrant p pasid va len) s = .next t ∧ SameMemory s t ∧ gridOf t p g.seq = some (regrantGrid g1)) ∧
    (need ≠ [] → need.length ≤ pinCapacity → need.length ≤ recordRoom s p none → g.leaseReqs = [] →
      (∀ q ∈ need, pinHeld (getPart s p) g1 q.1 q.2 = false ∧ pageReady s p pasid q.1 q.2 = false) →
      ∃ t, exec (.regrant p pasid va len) s = .next t ∧ SameMemory s t ∧
        gridOf t p g.seq = some { g1 with leaseReqs := need.map (·.1) } ∧
        (bit (getPart s p).fqcfg.toNat 0 = true → ∀ q ∈ need, ∃ r ∈ (getPart t p).records, r.code = 0x40 ∧ r.grid = g.seq ∧
          r.addr = BitVec.ofNat 57 (q.1 * 4096))))

/-! ## Power, errors, resets and starts (spec/15, spec/16, spec/21) -/

/-- A pool move closes a die; once it is empty its clock stops for 1 us, and it joins the pool unless a droop aborted the stop, when
it tries again 50 us after the droop; the fourth abort refuses the move. A move of a retired die, of one under reset, of one whose
hop is under way or to the pool the die is in does nothing: the model's choice (R16, R320, R347). -/
def Sys2Proof.Claims.ClockHops : Prop :=
  ∀ s (die : Nat),
    (∀ cls, (256 ≤ die ∨ 3 ≤ cls ∨ (getDie s die).hop.isSome ∨ (getDie s die).retired = true ∨ (getDie s die).reset.isSome ∨
      (getDie s die).cls = clsOf cls) → exec (.poolMove die cls) s = .next s) ∧
    (∀ cls, die < 256 → cls < 3 → (getDie s die).hop = none → (getDie s die).retired = false → (getDie s die).reset = none →
      (getDie s die).cls ≠ clsOf cls →
      (clsOf cls = .sprint → 64 ≤ sprintDies s → exec (.poolMove die cls) s = .next { s with outbox := s.outbox ++ [.refused] }) ∧
      ((clsOf cls ≠ .sprint ∨ sprintDies s < 64) → ∃ t h, exec (.poolMove die cls) s = .next t ∧ (getDie t die).closed = true ∧
        (getDie t die).cls = (getDie s die).cls ∧ (getDie t die).hop = some h ∧ h.target = clsOf cls ∧ h.step = 1 ∧ SameMemory s t)) ∧
    (∀ h, (getDie s die).hop = some h →
      (h.step < 4 → dieDrained s die = true → ∃ t, exec (.hopStopBegin die) s = .next t ∧ inHopStop t die = true ∧
        (getDie t die).hop = some { h with step := 4, time := s.now } ∧ SameMemory s t) ∧
      (h.step = 4 → h.time + 5000 ≤ s.now →
        (h.aborted = false → ∃ t, exec (.hopStopEnd die) s = .next t ∧ (getDie t die).cls = h.target ∧
          (getDie t die).hop = none ∧ (getDie t die).closed = false ∧ SameMemory s t) ∧
        (h.aborted = true → h.aborts < 4 → ∃ t, exec (.hopStopEnd die) s = .next t ∧ (getDie t die).cls = (getDie s die).cls ∧
          (getDie t die).hop = some { h with step := 5, aborted := false } ∧ t.outbox = s.outbox ∧ SameMemory s t) ∧
        (h.aborted = true → 4 ≤ h.aborts → ∃ t, exec (.hopStopEnd die) s = .next t ∧ (getDie t die).cls = (getDie s die).cls ∧
          (getDie t die).hop = none ∧ t.outbox = s.outbox ++ [.refused])) ∧
      (h.step = 5 → (s.now < h.retry → exec (.hopRetry die) s = .next s) ∧
        (h.retry ≤ s.now → ∃ t, exec (.hopRetry die) s = .next t ∧ SameMemory s t ∧
          (getDie t die).hop = some { h with step := 4, time := s.now })))

namespace Sys2Proof.Claims

/-- Whether the head of a core's queue is a withheld start of a partition that could begin. -/
def mayStart (s : State) (p c : Nat) (q : MatCmd) : Prop :=
  ∃ tm rest, teamOf s c = some tm ∧ tm.part = p ∧ tm.queue = q :: rest ∧ q.withheld = true ∧ canStart s c = true

/-- A rate held between 8 and 64. -/
def bounded (n : Nat) : Nat := max 8 (min 64 n)

/-- The amperes of a start that a step boundary has let go: the withheld head of a queue of the partition that now runs. -/
def letGo (s t : State) (p c : Nat) : Nat :=
  match teamOf s c, runningCmd t c with
  | some tm, some _ => match tm.queue with
    | q :: _ =>
      if tm.part = p ∧ q.withheld = true ∧ q.running = false ∧ q.kind = .mma ∧ q.emul = false then (if q.pair then 4 else 2) else 0
    | [] => 0
  | _, _ => 0

end Sys2Proof.Claims

/-- A step boundary sets each partition's estimate from what its arrays and lanes drew, its rate and the starts its share of STEPLIM
leaves room for, and lets withheld starts go: those of lower core numbers first, each against that room. A droop lowers the rate at
once and aborts hops in their stop, and clears after 1 us; a thermal sample finds the hottest engine, sets a region's alarm at its
limit and clears it 4 degrees below, and the alarm lowers the rate (R343 - R348). -/
def Sys2Proof.Claims.PowerSteps : Prop :=
  (∀ s (g : Nat), (getRegion s g).stepAt ≠ corrected s g / 250 →
    ∃ t, exec (.stepBoundary g) s = .next t ∧ (getRegion t g).stepAt = corrected s g / 250 ∧ (getRegion t g).restore = false ∧
      SameMemory s t ∧ (∀ q ∈ t.cores, coreRegion q.1 = g → q.2.winGrants = 0) ∧
      ∀ p n, (p, n) ∈ partsIn s g →
        let r := getRegion s g
        let old := mget {} r.power p
        let new := mget {} (getRegion t g).power p
        let cs := regionCores s p g
        let steplim := fld r.pwrcfg.toNat 0 12
        let lim := steplim * n / sumOf (mvals (partsIn s g))
        let iest := sumOf (cs.map fun c => (getCore s c).stepAmps) + sumOf (cs.map fun c => (getCore s c).winGrants * coreDiv s c) / 8000
        let live := (cs.filter fun c => !(getCore s c).retired).length
        let tooHigh := steplim ≠ 0 ∧ old.iest + lim < iest
        let room := iest + lim - sumOf (cs.map (arrayNow s))
        new.iest = iest ∧
        (steplim = 0 ∨ live = 0 → new.stepRate = 64) ∧
        (steplim ≠ 0 → live ≠ 0 → (tooHigh → new.stepRate = 8) ∧ (¬ tooHigh → new.stepRate = min 64 (128 * room / live))) ∧
        (tooHigh → new.stepViol.toNat = min 255 (old.stepViol.toNat + 1)) ∧ (¬ tooHigh → new.stepViol = old.stepViol) ∧
        new.rate = max 8 (min (min (bounded (fld r.pwrcfg.toNat 12 7)) new.stepRate)
          (min (if r.droop then bounded (fld r.pwrcfg.toNat 19 7) else 64) (if r.therm then bounded (fld r.thermcfg.toNat 8 7) else 64))) ∧
        (steplim ≠ 0 → (tooHigh → new.startsLeft = 0) ∧ (¬ tooHigh → new.startsLeft + sumOf (cs.map (letGo s t p)) = room)) ∧
        (∀ c ∈ cs, ∀ q, mayStart s p c q → (∀ m ∈ s.cores, m.1 ≠ c → coreRegion m.1 = g → ∀ k, ¬ mayStart s p m.1 k) →
          (∀ tm, teamOf s (pairOf c) = some tm → tm.part = p) →
          let amps := if q.kind = .mma ∧ q.emul = false then (if q.pair then 4 else 2) else 0
          let fits := q.kind ≠ .mma ∨ (r.droop = false ∧ (steplim = 0 ∨ amps = 0 ∨ (¬ tooHigh ∧ amps ≤ room)))
          (fits → (runningCmd t c).isSome) ∧ (¬ fits → runningCmd t c = none)) ∧
        (steplim ≠ 0 → ∀ c ∈ cs, letGo s t p c ≠ 0 → ∀ c' ∈ cs, c' < c →
          ∀ q, mayStart t p c' q → q.kind ≠ .mma ∨ q.emul = true)) ∧
  (∀ s (g : Nat), ∃ t, exec (.droopDetect g) s = .next t ∧ (getRegion t g).droop = true ∧ (getRegion t g).droopAt = s.now ∧
    SameMemory s t ∧ fld (getRegion t g).pwrevt.toNat 0 16 = min 65535 (fld (getRegion s g).pwrevt.toNat 0 16 + 1) ∧
    (∀ p ∈ mkeys (partsIn s g), (mget {} (getRegion t g).power p).rate ≤ bounded (fld (getRegion s g).pwrcfg.toNat 19 7)) ∧
    ∀ d h, regionOfSite (dieSite d) = g → (getDie s d).hop = some h → h.step = 4 → h.aborted = false →
      (getDie t d).hop = some { h with aborted := true, aborts := h.aborts + 1, retry := s.now + 250000 }) ∧
  (∀ s (g : Nat), (getRegion s g).droop = true → (getRegion s g).droopAt + 5000 ≤ s.now →
    ∃ t, exec (.droopClear g) s = .next t ∧ (getRegion t g).droop = false ∧ (getRegion t g).restore = true ∧ SameMemory s t) ∧
  (∀ s temps, corrected s 0 % 6250 = 0 →
    let l := temps.filter fun q => decide (q.1 < 8192) && !(getCore s q.1).retired
    l ≠ [] → ∃ t, exec (.thermalSample temps) s = .next t ∧ SameMemory s t ∧ t.hot.valid = true ∧ (t.hot.core, t.hot.temp) ∈ l ∧
      (∀ q ∈ l, q.2.toNat ≤ t.hot.temp.toNat) ∧
      ∀ g h, g < 16 → h ∈ l → coreRegion h.1 = g → (∀ q ∈ l, coreRegion q.1 = g → q.2.toNat ≤ h.2.toNat) →
        let tlim := fld (getRegion s g).thermcfg.toNat 0 8
        (getRegion t g).hot.temp = h.2 ∧
        (getRegion t g).therm =
          (if tlim ≤ h.2.toNat then true else if h.2.toNat + 4 ≤ tlim then false else (getRegion s g).therm) ∧
        ((getRegion t g).therm = true → ∀ p ∈ mkeys (partsIn s g),
          (mget {} (getRegion t g).power p).rate ≤ bounded (fld (getRegion s g).thermcfg.toNat 8 7)))

/-- An error puts its unit under test, of a slice the slice; a test that passes returns it to service and counts; one that fails
retires it for good, of a slice the failing ways, of a DCC once the teams of its die are saved. A die's reset saves its teams,
begins once it is empty, and is forced after 10 us (R410 - R413). -/
def Sys2Proof.Claims.ErrorsAndResets : Prop :=
  (∀ s u bad, let v := match u with | .sliceWay n _ => UnitId.slice n | w => w
    unitRetired s v = false → v ∉ s.testing → ∃ t, exec (.selfTestStart u .corrected bad) s = .next t ∧ v ∈ t.testing ∧
      t.merr.lastRec = lastError s v .corrected ∧ (v ∉ s.flagged → t.flagged = s.flagged ++ [v]) ∧ SameMemory s t) ∧
  (∀ s (n : Nat) ways, UnitId.slice n ∈ s.testing → heldContexts s (.slice n) = [] →
    (∃ t, exec (.selfTestComplete (.slice n) .passed) s = .next t ∧ .slice n ∉ t.testing ∧ t.nvRetired = s.nvRetired ∧
      t.merr.trans = (if s.merr.trans = BitVec.allOnes 32 then s.merr.trans else s.merr.trans + 1) ∧ SameMemory s t) ∧
    (∃ t, exec (.selfTestComplete (.slice n) (.failed ways)) s = .next t ∧ .slice n ∉ t.testing ∧
      t.merr.last = s.merr.last + 1 ∧ SameMemory s t ∧
      ∀ w ∈ ways, w < 16 → .sliceWay n w ∈ t.nvRetired ∧ w ∈ (getSlice t n).badWays)) ∧
  (∀ s (d : Nat) ways, UnitId.dcc d ∈ s.testing → dieEmpty s d = false →
    ∃ t, exec (.selfTestComplete (.dcc d) (.failed ways)) s = .next t ∧ .dcc d ∈ t.testing ∧ (getDie t d).asked = true ∧ SameMemory s t ∧
      ∀ c ∈ dieCores d, ∀ tm, teamOf s c = some tm → activeTeam tm = true → ∃ tn, teamOf t c = some tn ∧ tn.state = .saving) ∧
  (∀ s (die : Nat), die < 256 → (getDie s die).reset = none → siteStopped s (dieSite die) = false → dieEmpty s die = false →
    ∃ t, exec (.dieReset die) s = .next t ∧ (getDie t die).asked = true ∧ (getDie t die).reset = none ∧ SameMemory s t ∧
      ∀ c ∈ dieCores die, ∀ tm, teamOf s c = some tm → activeTeam tm = true → ∃ tn, teamOf t c = some tn ∧ tn.state = .saving) ∧
  (∀ s (die : Nat), die < 256 → (getDie s die).reset = none → siteStopped s (dieSite die) = false → dieEmpty s die = true →
    ∃ t, exec (.dieReset die) s = .next t ∧ (getDie t die).reset = some s.now ∧ SameMemory s t ∧
      ∀ e ∈ (getRouter t (dieSite die)).entries, e.state ≠ .stable) ∧
  (∀ s (die since : Nat), die < 256 → (getDie s die).reset = some since → (getDie s die).forced = false → since + 50000 ≤ s.now →
    siteStopped s (dieSite die) = false →
    ∃ t, exec (.dieResetForce die) s = .next t ∧ (getDie t die).forced = true ∧ (getRouter t (dieSite die)).merges = [] ∧
      (∀ e ∈ (getRouter t (dieSite die)).entries, e.state ≠ .stable) ∧
      .router (dieSite die) ∈ t.testing ∧ ∀ c ∈ dieCores die, (getCore t c).l1 = [] ∧ (getCore t c).bstore = [])

/-- A start that passes leaves nothing enabled and no team, grid or message; a cold one clears memory; one with KEEP restores the
partitions' registers and the ways as they stood; the step that failed is named, and what comes after it is not done: no image is
taken unless it has been authenticated, and the Dayclock is synchronised, every region within 3 ticks of region 0, only where step 6
is reached and the regions of a warm start are not near already (R349, R384, R415, R416). -/
def Sys2Proof.Claims.StartResult : Prop :=
  ∀ s r, ∃ t, exec (.deviceStart r) s = .next t ∧ t.start.fstep = failedStep s r ∧ t.start.warm = false ∧ t.featEn = 0 ∧
    t.featLocked = false ∧ t.net = [] ∧ t.msgs = [] ∧ t.incs = [] ∧ t.semWaits = [] ∧ (∀ c, teamOf t c = none) ∧
    (∀ p, (getPart t p).grids = [] ∧ (getPart t p).keys = []) ∧ t.start.forced = s.start.mustCold ∧
    t.image = (if failedStep s r = 1 ∨ failedStep s r = 2 then {} else r.image) ∧
    ((1 ≤ failedStep s r ∧ failedStep s r ≤ 6) → t.dcBase = s.dcBase ∧ t.dcOff = s.dcOff) ∧
    ((failedStep s r = 0 ∨ 6 < failedStep s r) → s.start.warm = false →
      ∀ g, g < 16 → mget 0 t.dcBase g = mget 0 s.dcBase 0 + (mget 0 t.dcOff g).signExtend 64 ∧
        -3 ≤ (mget 0 t.dcOff g).toInt ∧ (mget 0 t.dcOff g).toInt ≤ 3) ∧
    (s.start.warm = false → t.mem = [] ∧ t.parts = [] ∧ t.start.kind = false) ∧
    (s.start.warm = true → s.start.mustCold = false → s.start.keep = true → failedStep s r = 0 →
      t.mem = s.mem ∧ t.start.kind = true ∧
      (∀ p, (getPart t p).cfg = (getPart s p).cfg ∧ (getPart t p).far = (getPart s p).far ∧ (getPart t p).edge = (getPart s p).edge ∧
        (getPart t p).aps = (getPart s p).aps ∧ (getPart t p).err = (getPart s p).err ∧ (getPart t p).scrub = (getPart s p).scrub ∧
        (getPart t p).active = ((getPart s p).active && cfgEn (getPart s p))) ∧
      ∀ n, (getRouter t n).pcways = (getRouter s n).pcways)

/-- Curfew stops a partition within a tick of its time; an access that its slice sees matches a watchpoint whose range its line lies
in, and the watchpoint reports the match, or stops every team of its partition; without a match it reports nothing (R420, R421). -/
def Sys2Proof.Claims.CurfewAndWatchpoints : Prop :=
  (∀ s (p : Nat), bit (getPart s p).curfew.toNat 0 = true → (getPart s p).active = true → (getPart s p).stopped = false →
    (getPart s p).curfew.toNat / 2 ≤
      corrected s (regionOfSite (siteNo (cfgX0 (getPart s p)) (cfgY0 (getPart s p)))) + 1 →
    ∃ t, exec (.curfewStop p) s = .next t ∧ getPart t p = { getPart s p with stopped := true } ∧ SameMemory s t) ∧
  (∀ s (p cls region line n : Nat) wr w, (memHome (getPart s p) line).isSome → (n, w) ∈ (getPart s p).wps → w.base ≤ line →
    line < w.limit → (if wr then w.write else w.read) = true →
    { part := p, wp := n, write := wr, cls := cls, region := region, stop := w.stop } ∈ (touchSlice s p cls region wr line).wpHits) ∧
  (∀ s (p n cls region : Nat) wr,
    (s.wpHits.find? fun k => k.part == p && k.wp == n && k.write == wr && k.cls == cls && k.region == region) = none →
    exec (.watchpointReport p n wr cls region) s = .next s) ∧
  (∀ s (p n cls region : Nat) wr h,
    (s.wpHits.find? fun k => k.part == p && k.wp == n && k.write == wr && k.cls == cls && k.region == region) = some h →
    (getPart s p).stopped = false →
    (h.stop = false → exec (.watchpointReport p n wr cls region) s =
      .next (traceEvent { s with wpHits := s.wpHits.erase h } p region 7 0 cls region)) ∧
    (h.stop = true → ∃ t, exec (.watchpointReport p n wr cls region) s = .next t ∧ SameMemory s t ∧
      ∀ c tm, teamOf s c = some tm → tm.part = p → activeTeam tm = true → ∃ tn, teamOf t c = some tn ∧ tn.state = .saving))

/-! ## Management registers and SPDM (spec/17, spec/19, spec/20, spec/21) -/

/-- A partition is enabled when its registers are sound and it holds no grid: it is ACTIVE, FEATEN is locked, and the free ways
of its routers are its own; a refused write changes no register and names its error. A scrub leaves the memory of its sites zero
and its ways unused (R374, R376, R377, R379, R417). The model's own choices and readings it rests on: logs 20, 42 (DEDUCED); log
51 (DESIGN CHOICE). -/
def Obligations.PartitionLifecycle : Prop :=
  (∀ s (p : Nat) (v : BitVec 64), p < 64 →
    let w := v &&& 0x003FFFFF0007FFFF#64
    let n := { getPart s p with cfg := w, active := true }
    w.getLsbD 18 = true → (getPart s p).active = false → holdsGrid (getPart s p) = false → (getPart s p).scrub = false →
    cfgErr s p n = 0 →
    ∃ t, exec (.partitionEnable p v) s = .next t ∧ (getPart t p).cfg = w ∧ (getPart t p).active = true ∧ t.featLocked = true ∧
      SameMemory s t ∧ ∀ site ∈ rectSites n, ∀ k, k < 8 → wayOwner (getRouter s site) k = none →
        wayOwner (getRouter t site) k = some p) ∧
  (∀ s (p : Nat) (v : BitVec 64), p < 64 → v.getLsbD 18 = true → holdsGrid (getPart s p) = true →
    ∃ t, exec (.partitionEnable p v) s = .next t ∧ getPart t p = { getPart s p with err := 4 } ∧ SameMemory s t) ∧
  (∀ s (p : Nat), cfgEn (getPart s p) = true → holdsGrid (getPart s p) = false →
    ∃ t, exec (.partitionDisable p) s = .next t ∧ cfgEn (getPart t p) = false ∧ (getPart t p).active = false ∧
      (getPart t p).scrub = true ∧ (getPart t p).scrubCfg = (getPart s p).cfg ∧ (getPart t p).scrubFar = (getPart s p).far ∧
      (getPart t p).keys = [] ∧ SameMemory s t) ∧
  (∀ s (p : Nat), (getPart s p).scrub = true →
    let v := laid (getPart s p)
    let ours := fun a => match memKeySite a with | some ms => inRect v (msSite ms) | none => false
    ∃ t, exec (.scrubComplete p) s = .next t ∧ (∀ a, ours a = true → readByte t.mem a = 0) ∧
      ((∀ m ∈ s.net, m.part = p → carried m = none) → (getPart s p).aons = [] →
        (∀ q ∈ s.cores, ∀ tm, q.2.team = some tm → tm.part = p → ∀ l ∈ q.2.l1, dirty l.state = false) →
        ∀ a, ours a = false → readByte t.mem a = readByte s.mem a) ∧
      (getPart t p).scrub = false ∧ (getPart t p).grids = [] ∧
      (getPart t p).keys = [] ∧ (∀ m ∈ t.net, m.part ≠ p) ∧ (∀ m ∈ t.msgs, m.part ≠ p) ∧
      (∀ site k, k < 8 → wayOwner (getRouter t site) k ≠ some p) ∧
      ∀ c, inRect v (coreSite c) = true → teamOf t c = none ∧ (getCore t c).l1 = []) ∧
  (∀ s (p k : Nat) (v : BitVec 64), p < 64 → holdsGrid (getPart s p) = false → (getPart s p).scrub = false →
    cfgEn (getPart s p) = false →
    (∃ t, exec (.partedgeWrite p v) s = .next t ∧ (getPart t p).edge = v &&& 0xFFFFFFFF0000FFFF#64 ∧ SameMemory s t) ∧
    (k < 4 → ∃ t, exec (.panapWrite p k v) s = .next t ∧ mget? (getPart t p).aps k = some (v &&& 0xFFFFFFFF3FFFFFFF#64) ∧
      SameMemory s t) ∧
    (∃ t, exec (.partfarWrite p v) s = .next t ∧ (getPart t p).far = v &&& 0x3FFFFF#64 ∧ SameMemory s t))

/-- A write of a router's PCWAYS or PCVAL, `r` being the router with it pending: it takes effect at once when no entry stands in a
set or way that it takes out of use, and waits for the cuts of those that do (R250, R377). -/
def Sys2Proof.Claims.RouterWrite (s : State) (site : Nat) (i : Instr) (r : Router) : Prop :=
  ∃ t, exec i s = .next t ∧ SameMemory s t ∧
    let out := fun (e : Entry) => leaving s r site e.part e.set e.way
    let q := getRouter t site
    ((∀ e ∈ r.entries, out e = false) →
      q.pcways = (nextRegs r).pcways ∧ q.pcval = (nextRegs r).pcval ∧ q.pcwaysNext = none ∧ q.pcvalNext = none) ∧
    ((∃ e ∈ r.entries, out e = true) →
      (∀ e ∈ r.entries, out e = true → e.state = .stable → holderPorts (isAnchor s site e.part e.line) e ≠ []) →
      q.pcways = r.pcways ∧ q.pcval = r.pcval ∧ q.pcwaysNext = r.pcwaysNext ∧ q.pcvalNext = r.pcvalNext)

/-- PCWAYS and PCVAL take their value once the entries it takes out of use are cut, and PCWAYS is refused while a partition that a
field names holds a grid; FQCFG takes EN only with a ring of 2^6 to 2^16 records; FQHEAD moves the head; CTXAREA lies inside the
near window; FEATEN takes the features of FEATCAP while it is not locked; NBCTL arms a Noon context whose image it can read; a grant
gives its page to the task of the record, and while one is busy another is ignored (R374, R250, R328, R377, R397, R417, R422). -/
def Sys2Proof.Claims.ManagementWrites : Prop :=
  ∀ s (p site k : Nat) (v : BitVec 64) (w : BitVec 32),
    (site < 512 →
      let x := v &&& 0x00FFFFFFFFFFFFFF#64
      let old := (getRouter s site).pcways
      let due := (getRouter s site).pcwaysNext.getD old
      let named := fun q => ∃ i, i < 8 ∧ (wayIn old i = some q ∨ wayIn due i = some q ∨ wayIn x i = some q)
      ((∀ q, named q → holdsGrid (getPart s q) = false) →
        RouterWrite s site (.pcwaysWrite site v) { getRouter s site with pcwaysNext := some x }) ∧
      ((∃ q, named q ∧ holdsGrid (getPart s q) = true) →
        ∃ t, exec (.pcwaysWrite site v) s = .next t ∧ t.routers = s.routers ∧ SameMemory s t ∧
          ∀ q, named q → holdsGrid (getPart s q) = true → (getPart t q).err = 4)) ∧
    (site < 512 → RouterWrite s site (.pcvalWrite site w) { getRouter s site with pcvalNext := some (w &&& 0x1FF#32) }) ∧
    (let x := v &&& 0x000FFFFFFFFFF03F#64
     let n := fld x.toNat 1 5
     ∃ t, exec (.fqcfgWrite p v) s = .next t ∧ SameMemory s t ∧
      (6 ≤ n → n ≤ 16 → (getPart t p).fqcfg = x) ∧ ((n < 6 ∨ 16 < n) → bit (getPart t p).fqcfg.toNat 0 = false)) ∧
    (∃ t, exec (.fqheadWrite p w) s = .next t ∧ (getPart t p).fqhead = w.extractLsb' 0 16 ∧ SameMemory s t) ∧
    (let x := v &&& 0xFFFFFFFF#64
     let base := fld x.toNat 0 22 * GiB
     let size := fld x.toNat 22 10 * GiB
     let q := getPart s p
     ((size = 0 ∨ (nearBase q ≤ base ∧ base + size ≤ nearBase q + nearSize q)) →
       ∃ t, exec (.ctxareaWrite p v) s = .next t ∧ (getPart t p).ctxarea = x ∧ SameMemory s t) ∧
     (size ≠ 0 → (base < nearBase q ∨ nearBase q + nearSize q < base + size) →
       exec (.ctxareaWrite p v) s = .next { s with outbox := s.outbox ++ [.refused] })) ∧
    (∀ f : BitVec 256, (s.featLocked = true → exec (.featenWrite f) s = .next s) ∧
      (s.featLocked = false → exec (.featenWrite f) s = .next { s with featEn := f &&& s.featCap })) ∧
    (let n := mget {} (getPart s p).noon k
     let a := n.addr.toNat
     let away := (pagesOf a 1024).any fun j =>
       ((lookup s p n.pasid.toNat (if j = a / 4096 then a else 4096 * j)).bind (tierOf s p)) == some 3
     k < 4 → w.getLsbD 0 = true → w.getLsbD 3 = false →
       ((a % 64 ≠ 0 ∨ unitRead s p n.pasid.toNat a 1024 = none ∨ away = true) →
         exec (.nbctlArm p k w) s = .next (refuseArm s p k)) ∧
       (∀ img, a % 64 = 0 → unitRead s p n.pasid.toNat a 1024 = some img → away = false →
         unitQuiet s p n.pasid.toNat a 1024 = true →
         exec (.nbctlArm p k w) s = .next (armNoon (unitFill s p n.pasid.toNat a 1024) p k img))) ∧
    (v.getLsbD 32 = true → (getPart s p).granting.isSome → exec (.cfgrantGo p v) s = .next s) ∧
    (∀ r q, v.getLsbD 32 = true → (getPart s p).granting = none → ((getPart s p).parkRecs.find? fun r => r.seq == v.toNat % 2 ^ 32) = some r →
      taskRuns (getPart s p) r.task = true → ((getPart s p).granted.filter fun g => g.task == r.task).length < 64 →
      walkPage s p r.pasid (r.page * 4096) = some q → (pageTouches r.page r.dstLo r.dstLen = true → q.w = true) →
      leafQuiet s p r.pasid r.page = true →
      ((pinOf (getPart s p) r.pasid r.page).isSome = true ∨ (getPart s p).pins.length < pinCapacity) →
      ∃ t, exec (.cfgrantGo p v) s = .next t ∧ fld (getPart t p).grant.toNat 33 2 = 0 ∧
        fld (getPart t p).grant.toNat 0 32 = v.toNat % 2 ^ 32 ∧ (getPart t p).granting = none ∧
        { task := r.task, page := r.page, r := pageTouches r.page r.srcLo r.srcLen,
          w := pageTouches r.page r.dstLo r.dstLen } ∈ (getPart t p).granted)

/-- A write to any other management register sets the fields the spec gives it; that the root of a PASID's tables is bits 51 to 12
is the model's reading, log 36 (R328, R351, R361, R376, R412, R416, R419 - R421). -/
def Sys2Proof.Claims.OtherRegisterWrites : Prop :=
  ∀ s (p k g : Nat) (v : BitVec 64),
    (∃ t, exec (.mgmtRegisterWrite (.partstat p) v) s = .next t ∧
      (getPart t p).err = (getPart s p).err &&& ~~~(v.extractLsb' 4 4) ∧ SameMemory s t) ∧
    (k < 4 → ∃ t u, exec (.mgmtRegisterWrite (.nbaddr p k) v) s = .next t ∧ (mget {} (getPart t p).noon k).addr = v.setWidth 57 ∧
      exec (.mgmtRegisterWrite (.nbpasid p k) v) s = .next u ∧ (mget {} (getPart u p).noon k).pasid = v.setWidth 20) ∧
    (∃ t u r, exec (.mgmtRegisterWrite (.pwrcfg g) v) s = .next t ∧ (getRegion t g).pwrcfg = v.setWidth 32 &&& 0x03FFFFFF#32 ∧
      exec (.mgmtRegisterWrite (.thermcfg g) v) s = .next u ∧ (getRegion u g).thermcfg = v.setWidth 32 &&& 0x00007FFF#32 ∧
      exec (.mgmtRegisterWrite (.pwrevt g) v) s = .next r ∧ (getRegion r g).pwrevt = (v.setWidth 32).setWidth 24 ∧
      ∀ q ∈ partsOver s g, (mget {} (getRegion r g).power q).stepViol = v.extractLsb' 24 8 ∧
        (mget {} (getRegion r g).power q).evt = v.setWidth 24) ∧
    (∃ t, exec (.mgmtRegisterWrite .merrcnt v) s = .next t ∧ t.merr.trans = v.setWidth 32 ∧ t.merr.last = s.merr.last) ∧
    (∃ t, exec (.mgmtRegisterWrite .startctl v) s = .next t ∧ t.start.warm = v.getLsbD 0 ∧ t.start.keep = v.getLsbD 1) ∧
    (∃ t, exec (.mgmtRegisterWrite (.trccfg p) v) s = .next t ∧ (getPart t p).trc = v ∧ (getPart t p).trcFull = false ∧
      (getPart t p).trace = [] ∧ (getPart t p).trcNext = 0) ∧
    (∃ t, exec (.mgmtRegisterWrite (.curfew p) v) s = .next t ∧ (getPart t p).curfew = v) ∧
    (∃ t, exec (.mgmtRegisterWrite (.dbgctl p) v) s = .next t ∧ (getPart t p).dbg = v.getLsbD 0) ∧
    (k < 8 → ∃ t u r, exec (.mgmtRegisterWrite (.wpBase p k) v) s = .next t ∧
      (mget {} (getPart t p).wps k).base = v.toNat / 128 * 128 ∧
      exec (.mgmtRegisterWrite (.wpLimit p k) v) s = .next u ∧ (mget {} (getPart u p).wps k).limit = v.toNat / 128 * 128 ∧
      exec (.mgmtRegisterWrite (.wpCtl p k) v) s = .next r ∧ (mget {} (getPart r p).wps k).read = v.getLsbD 0 ∧
      (mget {} (getPart r p).wps k).write = v.getLsbD 1 ∧ (mget {} (getPart r p).wps k).stop = v.getLsbD 2) ∧
    (k < 2 ^ 20 → ∃ t, exec (.mgmtRegisterWrite (.pasidRoot k) v) s = .next t ∧
      mget? t.pasids k = some (fld v.toNat 12 40 * 4096))

/-- The SPDM responder negotiates version, capabilities and algorithms in order, and answers reports only then; a signature uses up
one leaf of the key (R383, R384, R387). -/
def Sys2Proof.Claims.SpdmNegotiation : Prop :=
  ∀ s (port i : Nat) (nonce share : List Byte),
    (port < 8 → ∃ t, exec (.getVersion port) s = .next t ∧ t.outbox = s.outbox ++ [.spdmVersion 0x13] ∧
      t.spdm.version.contains port = true ∧ t.spdm.caps.contains port = false ∧ t.spdm.algs.contains port = false) ∧
    (s.spdm.version.contains port = true → ∃ t, exec (.getCapabilities port) s = .next t ∧
      t.outbox = s.outbox ++ [.spdmCapabilities] ∧ t.spdm.caps.contains port = true) ∧
    (s.spdm.caps.contains port = true → ∀ offer : SpdmOffer,
      ((offer.sha3_384 && offer.xmssmt && offer.secp384r1 && offer.aes256gcm && offer.dmtf) = true →
        ∃ t, exec (.negotiateAlgorithms port offer) s = .next t ∧ t.outbox = s.outbox ++ [.spdmAlgorithms true] ∧
          t.spdm.algs.contains port = true) ∧
      ((offer.sha3_384 && offer.xmssmt && offer.secp384r1 && offer.aes256gcm && offer.dmtf) = false →
        exec (.negotiateAlgorithms port offer) s = .next { s with outbox := s.outbox ++ [.spdmAlgorithms false] })) ∧
    (s.spdm.algs.contains port = false →
      ∀ e ∈ [Instr.getDigests port, .getCertificate port i, .challenge port nonce, .getMeasurements port i nonce true,
        .keyExchange port share], exec e s = .next { s with outbox := s.outbox ++ [.refused] }) ∧
    (s.spdm.algs.contains port = true →
      exec (.getDigests port) s = .next { s with outbox := s.outbox ++ [.digests (sha3_384 Config.certificate)] } ∧
      exec (.getCertificate port 0) s = .next { s with outbox := s.outbox ++ [.certificate Config.certificate] } ∧
      (∀ d, digestOf s i = some d → exec (.getMeasurements port i nonce false) s =
        .next { s with outbox := s.outbox ++ [.measurement i d] }) ∧
      (s.leaf < 2 ^ 40 → ∃ t, exec (.challenge port nonce) s = .next t ∧ t.leaf = s.leaf + 1 ∧
        t.leafFuses = (if (s.leaf + 1) % 2 ^ 30 = 0 then s.leafFuses + 1 else s.leafFuses) ∧
        t.outbox = s.outbox ++ [.signed (sha3_384 Config.certificate ++ nonce) s.leaf
          (Config.signature s.leaf (sha3_384 Config.certificate ++ nonce))]) ∧
      (64 ≤ s.spdm.sessions.length → exec (.keyExchange port share) s = .next { s with outbox := s.outbox ++ [.busy] }) ∧
      (s.spdm.sessions.length < 64 → s.leaf < 2 ^ 40 → ∃ t, exec (.keyExchange port share) s = .next t ∧ t.leaf = s.leaf + 1 ∧
        t.spdm.sessions = s.spdm.sessions ++ [{ id := s.spdm.nextId, port := port, key := Config.sessionKey share (Config.keyShare share) }]))

/-- A session is secure after FINISH; only then it serves heartbeats, key updates, its end, its binding to an ACTIVE partition, and
the loading and clearing of that partition's key slots, which a slot held by another session refuses (R383, R385, R386). -/
def Sys2Proof.Claims.SpdmSessions : Prop :=
  ∀ s (id : Nat) q, sessionOf s id = some q →
    (q.secure = false →
      (∃ t r, exec (.finishSession id true) s = .next t ∧ sessionOf t id = some r ∧ r.secure = true ∧
        t.outbox = s.outbox ++ [.ack]) ∧
      (∃ t, exec (.finishSession id false) s = .next t ∧ sessionOf t id = none) ∧
      ∀ p slot key, ∀ e ∈ [Instr.heartbeat id, .keyUpdate id, .endSession id, .bindSession id p, .keyset id slot key,
        .keyclr id slot], exec e s = .next { s with outbox := s.outbox ++ [.refused] }) ∧
    (q.secure = true →
      exec (.heartbeat id) s = .next { s with outbox := s.outbox ++ [.ack] } ∧
      (∃ t r, exec (.keyUpdate id) s = .next t ∧ sessionOf t id = some r ∧ r = { q with key := Config.updatedKey q.key } ∧
        t.outbox = s.outbox ++ [.ack]) ∧
      (∃ t, exec (.endSession id) s = .next t ∧ sessionOf t id = none ∧ t.parts = s.parts ∧ t.outbox = s.outbox ++ [.ack]) ∧
      (∀ p, p < 64 → (getPart s p).active = true → q.bound = none → ∃ t r d, exec (.bindSession id p) s = .next t ∧
        sessionOf t id = some r ∧ r.bound = some p ∧ digestOf s (0x40 + p) = some d ∧
        t.outbox = s.outbox ++ [.measurement (0x40 + p) d]) ∧
      (∀ p slot key, q.bound = some p → slot < 16 →
        ((∀ k, mget? (getPart s p).keys slot = some k → k.session = id) →
          ∃ t, exec (.keyset id slot key) s = .next t ∧ t.outbox = s.outbox ++ [.ack] ∧
            mget? (getPart t p).keys slot = some { key := key, session := id }) ∧
        (∀ k, mget? (getPart s p).keys slot = some k →
          (k.session ≠ id → exec (.keyset id slot key) s = .next { s with outbox := s.outbox ++ [.refused] } ∧
            exec (.keyclr id slot) s = .next { s with outbox := s.outbox ++ [.refused] }) ∧
          (k.session = id → ∃ t, exec (.keyclr id slot) s = .next t ∧ (getPart t p).keys = mdel (getPart s p).keys slot ∧
            t.outbox = s.outbox ++ [.ack]))))

/-! The statements made of several parts. -/

/-- R104, R105, R106: every three- and two-register scalar instruction answers the next state its row gives, for every operand
value; the division and remainder values satisfy the identity of R106. -/
def Obligations.ScalarAluResult : Prop :=
  ScalarAluValues ∧ ScalarDivisionIdentity

/-- R104, R107 to R109: the immediate forms, the constant forms and the bit-field forms answer the next states their rows give. -/
def Obligations.ScalarImmediates : Prop :=
  ScalarImmediateResult ∧ ScalarBitFieldResult

/-- R104, R72: what the scalar arithmetic leaves unchanged, and that a word naming a register a load has not filled issues as no
word and changes nothing but the wait. The model's own choices and readings it rests on: log 24 (DEDUCED). -/
def Obligations.ScalarFrameAndInterlock : Prop :=
  ScalarAluFrame ∧ ScalarInterlock

/-- The local loads, stores and atomics answer the next states their rules give. The model's own choices and readings it rests
on: log 25 (DEDUCED). -/
def Obligations.LocalAccesses : Prop :=
  LocalLoadResult ∧ LocalStoreResult ∧ LocalAtomicResult

/-- The global loads, stores and atomics issue, and which faults the tests at issue deliver. The model's own choices and
readings it rests on: logs 5, 25 (DEDUCED). -/
def Obligations.GlobalAccesses : Prop :=
  GlobalAccessIssues ∧ AccessFaults

/-- `fence`, `wait`, `pause` and `wait.ln`. The model's own choices and readings it rests on: logs 15, 16, 18 (DEDUCED). -/
def Obligations.WaitingInstructions : Prop :=
  FenceWaitPauseResult ∧ WaitlnResult

/-- The matrix instructions queue their command, and which faults their issuer takes. The model's own choices and readings it
rests on: logs 27, 28 (DEDUCED). -/
def Obligations.MatrixCommandsIssue : Prop :=
  MatrixCommandsQueue ∧ MatrixDrainQueues ∧ MatrixIssuerFaults

/-- The semaphore instructions and the barriers. The model's own choices and readings it rests on: logs 5, 20, 30 (DEDUCED). -/
def Obligations.SemaphoreAndBarrierInstructions : Prop :=
  SemaphoreInstructions ∧ BarrierInstructions

/-- The lane stream's control words and hints. The model's own choices and readings it rests on: logs 23, 24 (DEDUCED); log 46
(DESIGN CHOICE). -/
def Obligations.LaneControlAndHints : Prop :=
  LaneControlResult ∧ LaneHintResult

/-- The steps of the schedulers and the timers, and which stream a scheduler grants. The model's own choices and readings it
rests on: log 34 (DEDUCED); logs 1, 4 (DESIGN CHOICE). -/
def Obligations.SchedulerSteps : Prop :=
  TimedStepsComplete ∧ IssueSelection

/-- Path switches, the entry, the end and the inside of Schuss episodes, and the delivery of an asynchronous fault. The model's
own choices and readings it rests on: logs 24, 35 (DEDUCED). -/
def Obligations.StreamSteps : Prop :=
  PathSwitchResult ∧ SchussEntryAndExpiry ∧ SchussEpisodeRules ∧ AsynchronousFaultDelivery

/-- Spawned groups, the placing of a team and its retirement. The model's own choices and readings it rests on: logs 5, 29, 32
(DEDUCED); logs 50, 52 (DESIGN CHOICE). -/
def Obligations.TeamsComeAndGo : Prop :=
  SpawnBinBecomesGroup ∧ TeamPlacementResult ∧ RetirementResult

/-- Leasing, and the launches of the management path. The model's own choices and readings it rests on: logs 5, 29, 36
(DEDUCED); logs 12, 50 (DESIGN CHOICE). -/
def Obligations.GridsStart : Prop :=
  LeasingResult ∧ ManagementLaunch

/-- The copy engine and the matrix unit carry out what they were given. The model's own choices and readings it rests on: logs
5, 18, 25, 26, 28, 32, 35 (DEDUCED); logs 2, 9 (DESIGN CHOICE). -/
def Obligations.AsyncUnitsComplete : Prop :=
  CopyProgress ∧ CopyMoves ∧ CopyEnds ∧ MatrixProgress ∧ MatrixResult

/-- Collectives meet and answer; messages are sent, matched and received. The model's own choices and readings it rests on: logs
27, 35 (DEDUCED). -/
def Obligations.CollectivesAndMessagesComplete : Prop :=
  CollectiveMeeting ∧ CollectiveResult ∧ MessageProgress

/-- Semaphore increments arrive and waiters go on, Noon releases, and records reach the partition's ring. The model's own
choices and readings it rests on: logs 5, 30, 43 (DEDUCED). -/
def Obligations.SemaphoresNoonAndRecords : Prop :=
  SemaphoreProgress ∧ NoonReleaseResult ∧ RecordReachesRing

/-- Write requests, stores and teardowns cross a router as its virtual tree says. The model's own choices and readings it rests
on: logs 11, 14, 20, 43 (DEDUCED); log 4 (DESIGN CHOICE). -/
def Obligations.WritesAndTeardownsTravel : Prop :=
  WritesTravel ∧ TeardownsTravel

/-- What a line's anchor and its endpoints do with the messages that reach them. The model's own choices and readings it rests
on: logs 11, 17, 19, 21, 39 (DEDUCED); log 52 (DESIGN CHOICE). -/
def Obligations.AnchorsAndEndpoints : Prop :=
  AnchorsAnswer ∧ EndpointsAnswer

/-- Accesses of the host and of other panels. The model's own choices and readings it rests on: logs 5, 20, 21, 45 (DEDUCED);
log 9 (DESIGN CHOICE). -/
def Obligations.HostAndPanels : Prop :=
  HostAccesses ∧ PanelAccesses

/-- Translation, migration and revocation. The model's own choices and readings it rests on: logs 5, 20, 36 (DEDUCED); log 50
(DESIGN CHOICE). -/
def Obligations.TranslationAndMigration : Prop :=
  TranslationSteps ∧ MigrationAndRevocation

/-- Hops between operating points, and the steps of the power controller. The model's own choices and readings it rests on: logs
37, 38 (DEDUCED); logs 9, 52 (DESIGN CHOICE). -/
def Obligations.PowerAndClocks : Prop :=
  ClockHops ∧ PowerSteps

/-- Errors and resets, the device's start, the curfew and watchpoints. The model's own choices and readings it rests on: logs
37, 39, 40, 41 (DEDUCED); logs 2, 8, 51 (DESIGN CHOICE); log 31 (PRESUMED). -/
def Obligations.ErrorsResetsAndStarts : Prop :=
  ErrorsAndResets ∧ StartResult ∧ CurfewAndWatchpoints

/-- Writes to the management registers. The model's own choices and readings it rests on: logs 36, 42, 43 (DEDUCED); log 51
(DESIGN CHOICE); log 31 (PRESUMED). -/
def Obligations.ManagementRegisters : Prop :=
  ManagementWrites ∧ OtherRegisterWrites

/-- The SPDM responder. The model's own choices and readings it rests on: log 44 (DEDUCED); log 8 (DESIGN CHOICE); log 13
(PRESUMED). -/
def Obligations.SpdmResponder : Prop :=
  SpdmNegotiation ∧ SpdmSessions

/-- `dclk` writes DC.g of the issuing core's region, its low half to sd and its high half to sd+1 (nothing to s0), and changes
no other register and no memory (R405, R350); an sd other than s0 and the even registers s2 to s58 is illegal (R404). -/
def Obligations.DclkResult : Prop :=
  ∀ s x (d : BitVec 6), ctx? s = some x →
    (pairOrZero d = false → exec (.dclk d) s = .next (raise s x { code := 0x01 })) ∧
    (pairOrZero d = true → waitsS s x [d.toNat, d.toNat + 1] = false →
      let v := (mget 0 s.dcBase (coreRegion x.core)).toNat + s.now / 4
      ∃ t g, exec (.dclk d) s = .next t ∧ t = setGroup s x.core x.gi g ∧ g.spc = x.g.spc + 4 ∧
        SameScalars x.g g [d.toNat, d.toNat + 1] ∧ SameButScalars x.g g ∧
        (d ≠ 0 → rdS g d.toNat = BitVec.ofNat 32 v ∧ rdS g (d.toNat + 1) = BitVec.ofNat 32 (v / 2 ^ 32)) ∧
        (d = 0 → SameScalars x.g g []))

/-! ## The whole machine -/

namespace Sys2Proof.Claims

/-- The state in which the first turn of the agenda is taken: the agenda without it, its link cycles passed. -/
def turnTaken (s : State) (dt : Nat) (rest : List Turn) : State := { s with agenda := rest, now := s.now + dt }

/-- The same with the cursor on the stream that issues. -/
def turnIssues (s : State) (dt : Nat) (rest : List Turn) (c gi : Nat) (lane : Bool) : State :=
  { turnTaken s dt rest with cur := { core := c, group := gi, lane := lane } }

/-- A lane word with every field 0. -/
def blank : LaneWord :=
  { dst := 0, srcA := 0, rtA := 0, srcB := 0, rtB := 0, srcC := 0, rtC := 0, pred := 0, neg := 0, u := 0, mod := 0 }

/-- Scalar words as the spec's examples write them out, with the instructions they stand for. -/
def scalarWords : List (Nat × Instr) :=
  [(0x04518700, .add 5 6 7), (0x04518789, .sel 5 6 7 9), (0x08413FF0, .addi 4 4 0x3FF0), (0x2430FFFE, .li 3 0xFFFE),
   (0x24321234, .lui 3 0x1234), (0x28416308, .bfeS 4 5 12 8), (0x447FFFFD, .bnez 7 0xFFFFD), (0x580F0000, .jmpr 0 60 0),
   (0x68010020, .mskN 32), (0x70000000, .yield), (0x80812282, .ldScalar 8 4 2 0 0 1 2 2),
   (0x8544A141, .stScalar 20 18 2 0 0 5 1), (0x889107B8, .atomScalar 9 4 7 5 3 0), (0x90010053, .fence 1 5 3),
   (0x9400F0FF, .waitCounts 15 0 15 15), (0x98018000, .waitln 0 6 0), (0x9C0007D0, .pause 2000),
   (0xA0A60003, .cpySeal 10 24), (0xA8A1063F, .send 10 4 6 63), (0xACC51500, .recvpost 12 20 21), (0xB4518002, .locBand 5 6),
   (0xC0A1067A, .mma 10 4 6 3 1 1 2), (0xC8A30D2A, .mdrain 10 12 13 1 0 1 2), (0xD0928005, .seminc 9 10 5),
   (0xDC810011, .barwait 8 17), (0xE0918000, .launch 9 6), (0xE4010500, .spawn 4 5), (0xE8000000, .joinc), (0xEC000003, .xacq 3),
   (0xF0020BB8, .schussBud 3000), (0xFAB01001, .syswr 43 0x010), (0xF8000702, .trap 7), (0xF9000004, .dclk 16)]

/-- Lane words as the spec's examples write them out. -/
def laneWords : List (Nat × Instr) :=
  [(0x002020000000000000000000, .tidx { blank with dst := 4 }),
   (0x008020140002104000000000, .addI32 { blank with dst := 4, srcA := 5, srcB := 4, rtB := 0x082 }),
   (0x0E2A560C0000000000000000, .ballot { blank with dst := 330, srcA := 387 }),
   (0x0C10500400010000A000002B, .qpack { blank with dst := 10, srcA := 1, srcB := 2, srcC := 10, mod := 0x02B }),
   (0x0E4A601000A4800000000000, .smpl { blank with dst := 332, srcA := 4, srcB := 329 }),
   (0x1000282000000000004001A2, .ldLane { blank with dst := 5, srcA := 8, rtC := 16, mod := 0x1A2 }),
   (0x182000000000000000000000, .lend blank),
   (0x4401010010002A0303806C80,
    .lanePairedWord { op := 0x08, dst := 4, srcA := 8, srcB := 1, rtB := 0, pred := 0 }
      { op := 0x2A, dst := 6, srcA := 14, srcB := 3, rtB := 0x190, pred := 0 })]

end Sys2Proof.Claims

/-- The decoder reads each of the spec's example words as the instruction the example says. The model's own choices and readings
it rests on: log 10 (DEDUCED). -/
def Obligations.DecodedWords : Prop :=
  (∀ q ∈ scalarWords, decodeTableWord 32 q.1 = some q.2) ∧ (∀ q ∈ laneWords, decodeTableWord 96 q.1 = some q.2)

/-- Decoding what the encoder writes for a well-formed instruction gives it back, every operand as it was; and whatever
instruction the decoder reads from a word, the encoder has some word of its length for it. The model's own choices and readings
it rests on: logs 10, 22 (DEDUCED). -/
def Obligations.EncodingsRoundTrip : Prop :=
  (∀ i n w, i.wf = true → encode i = some (n, w) → decodeWord (versionOf i) n w = some i) ∧
  (∀ v n w i, decodeWord v n w = some i → ∃ w', encode i = some (if n ≤ 32 then 32 else 96, w'))

/-- The registers whose reset value the spec states hold it after reset, and nothing is held that a start leaves empty: every
compute die is Nominal, no partition is enabled, the caches hold nothing (R15, R16, R44, R331, R335, R351, R376, R377, R397,
R412, R416, R422). That FEATCAP offers every feature of the table and that FEATEN is 0 after reset is the model's choice: logs 3
and 40 (R417). The model's own choices and readings it rests on: log 40 (DEDUCED); log 3 (DESIGN CHOICE). -/
def Obligations.ResetValues : Prop :=
  (∀ d, (getDie State.reset d).cls = .nominal ∧ (getDie State.reset d).tlb = []) ∧
  (∀ c, teamOf State.reset c = none ∧ (getCore State.reset c).spwcfg = 250 ∧ (getCore State.reset c).l1 = [] ∧
    (getCore State.reset c).tlb = [] ∧ (getCore State.reset c).emul = 0 ∧
    ∀ n, mget 0 (getCore State.reset c).scalarSched.elig n = 0 ∧ mget 0 (getCore State.reset c).laneSched.stall n = 0) ∧
  (∀ g, (getRegion State.reset g).pwrcfg = 0x00840000 ∧ (getRegion State.reset g).thermcfg = 0x00002069 ∧
    (getRegion State.reset g).pwrevt = 0 ∧ mget 0 State.reset.dcOff g = 0) ∧
  (∀ n, (mget {} State.reset.routers n).pcval = 0 ∧ (mget {} State.reset.routers n).pcways = 0 ∧
    (mget {} State.reset.routers n).entries = []) ∧
  (∀ p, let v := getPart State.reset p
    v.cfg = 0 ∧ v.far = 0 ∧ v.edge = 0 ∧ v.aps = [] ∧ v.active = false ∧ v.scrub = false ∧ v.err = 0 ∧ v.fqcfg = 0 ∧ v.fqhead = 0 ∧
      v.fqtail = 0 ∧ v.ctxarea = 0 ∧ v.grant = 0 ∧ v.keys = [] ∧ v.grids = []) ∧
  State.reset.featCap = 0x3F#256 ∧ State.reset.featEn = 0 ∧ State.reset.merr.trans = 0 ∧ State.reset.merr.last = 0 ∧
  State.reset.start.warm = false ∧ State.reset.start.keep = false ∧
  State.reset.start.kind = false ∧ State.reset.start.fstep = 0

/-- A turn in which a stream issues fetches the word at its program counter, decodes it and executes it; a step of the hardware
or of the outside world is executed as it stands. A word outside its section, on an unreadable page, without a meaning, or met
by an uncorrectable error raises the fault the spec names instead, unless the word fails a decode check, which comes first
(R76); a word whose page is in motion, or whose scheduler has no cycle for it, waits, and a lane word whose bank reads the
window does not cover gathers what is left of it; a stream that may not issue does nothing. Around exec the step charges a lane
word's reads, takes a scalar instruction's cycle, and strikes the words that it replaced from the list of uncorrectable ones.
The model's own choices and readings it rests on: logs 34, 35 (DEDUCED); logs 1, 9 (DESIGN CHOICE). -/
def Obligations.StepRunsDecodedInstruction : Prop :=
  ∀ s dt rest,
    (∀ c gi lane bad x, s.agenda = { dt := dt, who := .issue c gi lane bad } :: rest →
      let s1 := turnIssues s dt rest c gi lane
      issuable s1 = some x →
      let met := fun (f : FaultInfo) => if bad then { code := 0x12 } else f
      (fetchMoving s1 x = true ∨ schedulerHeld (turnTaken s dt rest) c gi lane = true → step s = .next (turnTaken s dt rest)) ∧
      (fetchMoving s1 x = false → schedulerHeld (turnTaken s dt rest) c gi lane = false →
        ((wordAt x).2.2 = false → step s = .next (raise s1 x (met { code := 0x04 }))) ∧
        ((wordAt x).2.2 = true →
          (fetchBytes s1 x = none → step s = .next (raise s1 x (met { code := fetchFault s1 x, addr := (wordAt x).1 }))) ∧
          (∀ bs, fetchBytes s1 x = some bs →
            ((∀ i, decodeBytes x.grid.hdr.version x.lane bs ≠ .ok i) →
              step s = .next (raise s1 x (met { code := 0x01, slot := 2 }))) ∧
            (∀ i, decodeBytes x.grid.hdr.version x.lane bs = .ok i →
              (bad = true → isPref i = false → decodeFaulted s1 x i = false →
                step s = .next (raise s1 x (badFault x i (laneReads x (laneUse i)).2))) ∧
              (bad = false ∨ isPref i = true ∨ decodeFaulted s1 x i = true →
                (readsBad x i = true → decodeFaulted s1 x i = false →
                  step s = .next (raise s1 x (badFault x i (laneBad x (laneUse i))))) ∧
                (readsBad x i = false ∨ decodeFaulted s1 x i = true → ∀ t, exec i s1 = .next t →
                  (rationed s1 t x i = true → step s = .next (gatherLane s1 x)) ∧
                  (rationed s1 t x i = false → step s = .next (afterIssue t x i) ∧
                    (x.lane = false → x.team.bad = [] →
                      step s = .next (modCore t x.core fun k => { k with scalarBusy := t.now + coreDiv t x.core })))))))))) ∧
    (∀ c gi lane bad, s.agenda = { dt := dt, who := .issue c gi lane bad } :: rest →
      issuable (turnIssues s dt rest c gi lane) = none → step s = .next (turnTaken s dt rest)) ∧
    (∀ e, s.agenda = { dt := dt, who := .event e } :: rest → step s = exec e (turnTaken s dt rest))

/-- No instruction and no step stops the machine: every one gives a next state. The model's own choices and readings it rests
on: logs 1, 9 (DESIGN CHOICE). -/
def Obligations.StepAnswers : Prop :=
  (∀ i s, ∃ t, exec i s = .next t) ∧
  (∀ s, SafeStep s)

/-- Memory is in its canonical form after reset. The model's own choices and readings it rests on: log 2 (DESIGN CHOICE). -/
def Obligations.ResetInvariant : Prop := Sys2Proof.Inv State.reset

/-- Every step keeps memory in its canonical form. The model's own choices and readings it rests on: logs 1, 2, 9 (DESIGN
CHOICE). -/
def Obligations.StepKeepsMemory : Prop := ∀ s t, Sys2Proof.Inv s → step s = .next t → Sys2Proof.Inv t
end

