-- ==== Sys2Proof/Laws/Dispatch.lean ====
section
/-! SUPPORT. The meaning `exec` calls for each instruction: one equation per instruction, so that no proof unfolds `exec`. -/

namespace Sys2Proof.Machine

open Sys2Proof

@[simp] theorem exec_add (x1 : BitVec 6) (x2 : BitVec 6) (x3 : BitVec 6) (s : State) : exec (.add x1 x2 x3) s = execAdd x1 x2 x3 s := rfl
@[simp] theorem exec_sub (x1 : BitVec 6) (x2 : BitVec 6) (x3 : BitVec 6) (s : State) : exec (.sub x1 x2 x3) s = execSub x1 x2 x3 s := rfl
@[simp] theorem exec_andR (x1 : BitVec 6) (x2 : BitVec 6) (x3 : BitVec 6) (s : State) : exec (.andR x1 x2 x3) s = execAndR x1 x2 x3 s := rfl
@[simp] theorem exec_orR (x1 : BitVec 6) (x2 : BitVec 6) (x3 : BitVec 6) (s : State) : exec (.orR x1 x2 x3) s = execOrR x1 x2 x3 s := rfl
@[simp] theorem exec_xorR (x1 : BitVec 6) (x2 : BitVec 6) (x3 : BitVec 6) (s : State) : exec (.xorR x1 x2 x3) s = execXorR x1 x2 x3 s := rfl
@[simp] theorem exec_andn (x1 : BitVec 6) (x2 : BitVec 6) (x3 : BitVec 6) (s : State) : exec (.andn x1 x2 x3) s = execAndn x1 x2 x3 s := rfl
@[simp] theorem exec_shl (x1 : BitVec 6) (x2 : BitVec 6) (x3 : BitVec 6) (s : State) : exec (.shl x1 x2 x3) s = execShl x1 x2 x3 s := rfl
@[simp] theorem exec_shrZ (x1 : BitVec 6) (x2 : BitVec 6) (x3 : BitVec 6) (s : State) : exec (.shrZ x1 x2 x3) s = execShrZ x1 x2 x3 s := rfl
@[simp] theorem exec_shrS (x1 : BitVec 6) (x2 : BitVec 6) (x3 : BitVec 6) (s : State) : exec (.shrS x1 x2 x3) s = execShrS x1 x2 x3 s := rfl
@[simp] theorem exec_rotr (x1 : BitVec 6) (x2 : BitVec 6) (x3 : BitVec 6) (s : State) : exec (.rotr x1 x2 x3) s = execRotr x1 x2 x3 s := rfl
@[simp] theorem exec_slt (x1 : BitVec 6) (x2 : BitVec 6) (x3 : BitVec 6) (s : State) : exec (.slt x1 x2 x3) s = execSlt x1 x2 x3 s := rfl
@[simp] theorem exec_sltu (x1 : BitVec 6) (x2 : BitVec 6) (x3 : BitVec 6) (s : State) : exec (.sltu x1 x2 x3) s = execSltu x1 x2 x3 s := rfl
@[simp] theorem exec_seq (x1 : BitVec 6) (x2 : BitVec 6) (x3 : BitVec 6) (s : State) : exec (.seq x1 x2 x3) s = execSeq x1 x2 x3 s := rfl
@[simp] theorem exec_sne (x1 : BitVec 6) (x2 : BitVec 6) (x3 : BitVec 6) (s : State) : exec (.sne x1 x2 x3) s = execSne x1 x2 x3 s := rfl
@[simp] theorem exec_minS (x1 : BitVec 6) (x2 : BitVec 6) (x3 : BitVec 6) (s : State) : exec (.minS x1 x2 x3) s = execMinS x1 x2 x3 s := rfl
@[simp] theorem exec_minZ (x1 : BitVec 6) (x2 : BitVec 6) (x3 : BitVec 6) (s : State) : exec (.minZ x1 x2 x3) s = execMinZ x1 x2 x3 s := rfl
@[simp] theorem exec_maxS (x1 : BitVec 6) (x2 : BitVec 6) (x3 : BitVec 6) (s : State) : exec (.maxS x1 x2 x3) s = execMaxS x1 x2 x3 s := rfl
@[simp] theorem exec_maxZ (x1 : BitVec 6) (x2 : BitVec 6) (x3 : BitVec 6) (s : State) : exec (.maxZ x1 x2 x3) s = execMaxZ x1 x2 x3 s := rfl
@[simp] theorem exec_mul (x1 : BitVec 6) (x2 : BitVec 6) (x3 : BitVec 6) (s : State) : exec (.mul x1 x2 x3) s = execMul x1 x2 x3 s := rfl
@[simp] theorem exec_mulhS (x1 : BitVec 6) (x2 : BitVec 6) (x3 : BitVec 6) (s : State) : exec (.mulhS x1 x2 x3) s = execMulhS x1 x2 x3 s := rfl
@[simp] theorem exec_mulhZ (x1 : BitVec 6) (x2 : BitVec 6) (x3 : BitVec 6) (s : State) : exec (.mulhZ x1 x2 x3) s = execMulhZ x1 x2 x3 s := rfl
@[simp] theorem exec_divS (x1 : BitVec 6) (x2 : BitVec 6) (x3 : BitVec 6) (s : State) : exec (.divS x1 x2 x3) s = execDivS x1 x2 x3 s := rfl
@[simp] theorem exec_divZ (x1 : BitVec 6) (x2 : BitVec 6) (x3 : BitVec 6) (s : State) : exec (.divZ x1 x2 x3) s = execDivZ x1 x2 x3 s := rfl
@[simp] theorem exec_remS (x1 : BitVec 6) (x2 : BitVec 6) (x3 : BitVec 6) (s : State) : exec (.remS x1 x2 x3) s = execRemS x1 x2 x3 s := rfl
@[simp] theorem exec_remZ (x1 : BitVec 6) (x2 : BitVec 6) (x3 : BitVec 6) (s : State) : exec (.remZ x1 x2 x3) s = execRemZ x1 x2 x3 s := rfl
@[simp] theorem exec_popc (x1 : BitVec 6) (x2 : BitVec 6) (s : State) : exec (.popc x1 x2) s = execPopc x1 x2 s := rfl
@[simp] theorem exec_clz (x1 : BitVec 6) (x2 : BitVec 6) (s : State) : exec (.clz x1 x2) s = execClz x1 x2 s := rfl
@[simp] theorem exec_brev (x1 : BitVec 6) (x2 : BitVec 6) (s : State) : exec (.brev x1 x2) s = execBrev x1 x2 s := rfl
@[simp] theorem exec_sel (x1 : BitVec 6) (x2 : BitVec 6) (x3 : BitVec 6) (x4 : BitVec 6) (s : State) : exec (.sel x1 x2 x3 x4) s = execSel x1 x2 x3 x4 s := rfl
@[simp] theorem exec_addi (x1 : BitVec 6) (x2 : BitVec 6) (x3 : BitVec 14) (s : State) : exec (.addi x1 x2 x3) s = execAddi x1 x2 x3 s := rfl
@[simp] theorem exec_andi (x1 : BitVec 6) (x2 : BitVec 6) (x3 : BitVec 14) (s : State) : exec (.andi x1 x2 x3) s = execAndi x1 x2 x3 s := rfl
@[simp] theorem exec_ori (x1 : BitVec 6) (x2 : BitVec 6) (x3 : BitVec 14) (s : State) : exec (.ori x1 x2 x3) s = execOri x1 x2 x3 s := rfl
@[simp] theorem exec_xori (x1 : BitVec 6) (x2 : BitVec 6) (x3 : BitVec 14) (s : State) : exec (.xori x1 x2 x3) s = execXori x1 x2 x3 s := rfl
@[simp] theorem exec_slti (x1 : BitVec 6) (x2 : BitVec 6) (x3 : BitVec 14) (s : State) : exec (.slti x1 x2 x3) s = execSlti x1 x2 x3 s := rfl
@[simp] theorem exec_sltiu (x1 : BitVec 6) (x2 : BitVec 6) (x3 : BitVec 14) (s : State) : exec (.sltiu x1 x2 x3) s = execSltiu x1 x2 x3 s := rfl
@[simp] theorem exec_shli (x1 : BitVec 6) (x2 : BitVec 6) (x3 : BitVec 5) (s : State) : exec (.shli x1 x2 x3) s = execShli x1 x2 x3 s := rfl
@[simp] theorem exec_shriZ (x1 : BitVec 6) (x2 : BitVec 6) (x3 : BitVec 5) (s : State) : exec (.shriZ x1 x2 x3) s = execShriZ x1 x2 x3 s := rfl
@[simp] theorem exec_shriS (x1 : BitVec 6) (x2 : BitVec 6) (x3 : BitVec 5) (s : State) : exec (.shriS x1 x2 x3) s = execShriS x1 x2 x3 s := rfl
@[simp] theorem exec_rotri (x1 : BitVec 6) (x2 : BitVec 6) (x3 : BitVec 5) (s : State) : exec (.rotri x1 x2 x3) s = execRotri x1 x2 x3 s := rfl
@[simp] theorem exec_li (x1 : BitVec 6) (x2 : BitVec 16) (s : State) : exec (.li x1 x2) s = execLi x1 x2 s := rfl
@[simp] theorem exec_liz (x1 : BitVec 6) (x2 : BitVec 16) (s : State) : exec (.liz x1 x2) s = execLiz x1 x2 s := rfl
@[simp] theorem exec_lui (x1 : BitVec 6) (x2 : BitVec 16) (s : State) : exec (.lui x1 x2) s = execLui x1 x2 s := rfl
@[simp] theorem exec_lih (x1 : BitVec 6) (x2 : BitVec 16) (s : State) : exec (.lih x1 x2) s = execLih x1 x2 s := rfl
@[simp] theorem exec_bfeZ (x1 : BitVec 6) (x2 : BitVec 6) (x3 : BitVec 6) (x4 : BitVec 5) (s : State) : exec (.bfeZ x1 x2 x3 x4) s = execBfeZ x1 x2 x3 x4 s := rfl
@[simp] theorem exec_bfeS (x1 : BitVec 6) (x2 : BitVec 6) (x3 : BitVec 6) (x4 : BitVec 5) (s : State) : exec (.bfeS x1 x2 x3 x4) s = execBfeS x1 x2 x3 x4 s := rfl
@[simp] theorem exec_bfi (x1 : BitVec 6) (x2 : BitVec 6) (x3 : BitVec 6) (x4 : BitVec 5) (s : State) : exec (.bfi x1 x2 x3 x4) s = execBfi x1 x2 x3 x4 s := rfl
@[simp] theorem exec_beqz (x1 : BitVec 6) (x2 : BitVec 20) (s : State) : exec (.beqz x1 x2) s = execBeqz x1 x2 s := rfl
@[simp] theorem exec_bnez (x1 : BitVec 6) (x2 : BitVec 20) (s : State) : exec (.bnez x1 x2) s = execBnez x1 x2 s := rfl
@[simp] theorem exec_bltz (x1 : BitVec 6) (x2 : BitVec 20) (s : State) : exec (.bltz x1 x2) s = execBltz x1 x2 s := rfl
@[simp] theorem exec_bgez (x1 : BitVec 6) (x2 : BitVec 20) (s : State) : exec (.bgez x1 x2) s = execBgez x1 x2 s := rfl
@[simp] theorem exec_br (x1 : BitVec 20) (s : State) : exec (.br x1) s = execBr x1 s := rfl
@[simp] theorem exec_call (x1 : BitVec 6) (x2 : BitVec 20) (s : State) : exec (.call x1 x2) s = execCall x1 x2 s := rfl
@[simp] theorem exec_jmpr (x1 : BitVec 6) (x2 : BitVec 6) (x3 : BitVec 14) (s : State) : exec (.jmpr x1 x2 x3) s = execJmpr x1 x2 x3 s := rfl
@[simp] theorem exec_lgo (x1 : BitVec 20) (s : State) : exec (.lgo x1) s = execLgo x1 s := rfl
@[simp] theorem exec_ljoin (s : State) : exec (.ljoin) s = execLjoin s := rfl
@[simp] theorem exec_mskLive (s : State) : exec (.mskLive) s = execMskLive s := rfl
@[simp] theorem exec_mskN (x1 : BitVec 16) (s : State) : exec (.mskN x1) s = execMskN x1 s := rfl
@[simp] theorem exec_exitScalar (s : State) : exec (.exitScalar) s = execExitScalar s := rfl
@[simp] theorem exec_yield (s : State) : exec (.yield) s = execYield s := rfl
@[simp] theorem exec_ldScalar (x1 : BitVec 6) (x2 : BitVec 6) (x3 : BitVec 2) (x4 : BitVec 1) (x5 : BitVec 1) (x6 : BitVec 1) (x7 : BitVec 3) (x8 : BitVec 6) (s : State) : exec (.ldScalar x1 x2 x3 x4 x5 x6 x7 x8) s = execLdScalar x1 x2 x3 x4 x5 x6 x7 x8 s := rfl
@[simp] theorem exec_stScalar (x1 : BitVec 6) (x2 : BitVec 6) (x3 : BitVec 2) (x4 : BitVec 1) (x5 : BitVec 1) (x6 : BitVec 3) (x7 : BitVec 6) (s : State) : exec (.stScalar x1 x2 x3 x4 x5 x6 x7) s = execStScalar x1 x2 x3 x4 x5 x6 x7 s := rfl
@[simp] theorem exec_atomScalar (x1 : BitVec 6) (x2 : BitVec 6) (x3 : BitVec 6) (x4 : BitVec 3) (x5 : BitVec 2) (x6 : BitVec 3) (s : State) : exec (.atomScalar x1 x2 x3 x4 x5 x6) s = execAtomScalar x1 x2 x3 x4 x5 x6 s := rfl
@[simp] theorem exec_casScalar (x1 : BitVec 6) (x2 : BitVec 6) (x3 : BitVec 6) (x4 : BitVec 3) (x5 : BitVec 2) (x6 : BitVec 1) (s : State) : exec (.casScalar x1 x2 x3 x4 x5 x6) s = execCasScalar x1 x2 x3 x4 x5 x6 s := rfl
@[simp] theorem exec_fence (x1 : BitVec 4) (x2 : BitVec 3) (x3 : BitVec 4) (s : State) : exec (.fence x1 x2 x3) s = execFence x1 x2 x3 s := rfl
@[simp] theorem exec_waitCounts (x1 : BitVec 4) (x2 : BitVec 4) (x3 : BitVec 4) (x4 : BitVec 4) (s : State) : exec (.waitCounts x1 x2 x3 x4) s = execWaitCounts x1 x2 x3 x4 s := rfl
@[simp] theorem exec_waitln (x1 : BitVec 6) (x2 : BitVec 6) (x3 : BitVec 14) (s : State) : exec (.waitln x1 x2 x3) s = execWaitln x1 x2 x3 s := rfl
@[simp] theorem exec_waitlnV1 (x1 : BitVec 6) (x2 : BitVec 6) (x3 : BitVec 14) (s : State) : exec (.waitlnV1 x1 x2 x3) s = execWaitlnV1 x1 x2 x3 s := rfl
@[simp] theorem exec_pause (x1 : BitVec 16) (s : State) : exec (.pause x1) s = execPause x1 s := rfl
@[simp] theorem exec_pauseV1v2 (x1 : BitVec 16) (s : State) : exec (.pauseV1v2 x1) s = execPauseV1v2 x1 s := rfl
@[simp] theorem exec_cpy1d (x1 : BitVec 6) (x2 : BitVec 6) (s : State) : exec (.cpy1d x1 x2) s = execCpy1d x1 x2 s := rfl
@[simp] theorem exec_cpy1dFt (x1 : BitVec 6) (x2 : BitVec 6) (s : State) : exec (.cpy1dFt x1 x2) s = execCpy1dFt x1 x2 s := rfl
@[simp] theorem exec_cpy2d (x1 : BitVec 6) (x2 : BitVec 6) (s : State) : exec (.cpy2d x1 x2) s = execCpy2d x1 x2 s := rfl
@[simp] theorem exec_cpyGather (x1 : BitVec 6) (x2 : BitVec 6) (s : State) : exec (.cpyGather x1 x2) s = execCpyGather x1 x2 s := rfl
@[simp] theorem exec_cpySeal (x1 : BitVec 6) (x2 : BitVec 6) (s : State) : exec (.cpySeal x1 x2) s = execCpySeal x1 x2 s := rfl
@[simp] theorem exec_cpyAon (x1 : BitVec 6) (x2 : BitVec 6) (s : State) : exec (.cpyAon x1 x2) s = execCpyAon x1 x2 s := rfl
@[simp] theorem exec_cpyVer (x1 : BitVec 6) (x2 : BitVec 6) (s : State) : exec (.cpyVer x1 x2) s = execCpyVer x1 x2 s := rfl
@[simp] theorem exec_cpyReplay (x1 : BitVec 6) (x2 : BitVec 6) (s : State) : exec (.cpyReplay x1 x2) s = execCpyReplay x1 x2 s := rfl
@[simp] theorem exec_collRadd (x1 : BitVec 6) (x2 : BitVec 6) (x3 : BitVec 3) (s : State) : exec (.collRadd x1 x2 x3) s = execCollRadd x1 x2 x3 s := rfl
@[simp] theorem exec_collBcast (x1 : BitVec 6) (x2 : BitVec 6) (s : State) : exec (.collBcast x1 x2) s = execCollBcast x1 x2 s := rfl
@[simp] theorem exec_collAgath (x1 : BitVec 6) (x2 : BitVec 6) (s : State) : exec (.collAgath x1 x2) s = execCollAgath x1 x2 s := rfl
@[simp] theorem exec_send (x1 : BitVec 6) (x2 : BitVec 6) (x3 : BitVec 6) (x4 : BitVec 8) (s : State) : exec (.send x1 x2 x3 x4) s = execSend x1 x2 x3 x4 s := rfl
@[simp] theorem exec_recvpost (x1 : BitVec 6) (x2 : BitVec 6) (x3 : BitVec 6) (s : State) : exec (.recvpost x1 x2 x3) s = execRecvpost x1 x2 x3 s := rfl
@[simp] theorem exec_recvtst (x1 : BitVec 6) (x2 : BitVec 6) (s : State) : exec (.recvtst x1 x2) s = execRecvtst x1 x2 s := rfl
@[simp] theorem exec_locSelf (x1 : BitVec 6) (s : State) : exec (.locSelf x1) s = execLocSelf x1 s := rfl
@[simp] theorem exec_locHome (x1 : BitVec 6) (x2 : BitVec 6) (s : State) : exec (.locHome x1 x2) s = execLocHome x1 x2 s := rfl
@[simp] theorem exec_locBand (x1 : BitVec 6) (x2 : BitVec 6) (s : State) : exec (.locBand x1 x2) s = execLocBand x1 x2 s := rfl
@[simp] theorem exec_mma (x1 : BitVec 6) (x2 : BitVec 6) (x3 : BitVec 6) (x4 : BitVec 3) (x5 : BitVec 1) (x6 : BitVec 1) (x7 : BitVec 3) (s : State) : exec (.mma x1 x2 x3 x4 x5 x6 x7) s = execMma x1 x2 x3 x4 x5 x6 x7 s := rfl
@[simp] theorem exec_mlb (x1 : BitVec 6) (x2 : BitVec 6) (x3 : BitVec 6) (x4 : BitVec 1) (x5 : BitVec 1) (s : State) : exec (.mlb x1 x2 x3 x4 x5) s = execMlb x1 x2 x3 x4 x5 s := rfl
@[simp] theorem exec_mdrain (x1 : BitVec 6) (x2 : BitVec 6) (x3 : BitVec 6) (x4 : BitVec 1) (x5 : BitVec 1) (x6 : BitVec 1) (x7 : BitVec 3) (s : State) : exec (.mdrain x1 x2 x3 x4 x5 x6 x7) s = execMdrain x1 x2 x3 x4 x5 x6 x7 s := rfl
@[simp] theorem exec_acccpySt (x1 : BitVec 6) (x2 : BitVec 6) (x3 : BitVec 6) (x4 : BitVec 1) (x5 : BitVec 3) (s : State) : exec (.acccpySt x1 x2 x3 x4 x5) s = execAcccpySt x1 x2 x3 x4 x5 s := rfl
@[simp] theorem exec_acccpyLd (x1 : BitVec 6) (x2 : BitVec 6) (x3 : BitVec 6) (x4 : BitVec 1) (x5 : BitVec 3) (s : State) : exec (.acccpyLd x1 x2 x3 x4 x5) s = execAcccpyLd x1 x2 x3 x4 x5 s := rfl
@[simp] theorem exec_seminc (x1 : BitVec 6) (x2 : BitVec 6) (x3 : BitVec 3) (s : State) : exec (.seminc x1 x2 x3) s = execSeminc x1 x2 x3 s := rfl
@[simp] theorem exec_semwait (x1 : BitVec 6) (x2 : BitVec 6) (x3 : BitVec 3) (s : State) : exec (.semwait x1 x2 x3) s = execSemwait x1 x2 x3 s := rfl
@[simp] theorem exec_semtst (x1 : BitVec 6) (x2 : BitVec 6) (x3 : BitVec 3) (s : State) : exec (.semtst x1 x2 x3) s = execSemtst x1 x2 x3 s := rfl
@[simp] theorem exec_bararr (x1 : BitVec 5) (s : State) : exec (.bararr x1) s = execBararr x1 s := rfl
@[simp] theorem exec_barwait (x1 : BitVec 6) (x2 : BitVec 5) (s : State) : exec (.barwait x1 x2) s = execBarwait x1 x2 s := rfl
@[simp] theorem exec_launch (x1 : BitVec 6) (x2 : BitVec 6) (s : State) : exec (.launch x1 x2) s = execLaunch x1 x2 s := rfl
@[simp] theorem exec_spawn (x1 : BitVec 6) (x2 : BitVec 6) (s : State) : exec (.spawn x1 x2) s = execSpawn x1 x2 s := rfl
@[simp] theorem exec_joinc (s : State) : exec (.joinc) s = execJoinc s := rfl
@[simp] theorem exec_xacq (x1 : BitVec 4) (s : State) : exec (.xacq x1) s = execXacq x1 s := rfl
@[simp] theorem exec_xrel (x1 : BitVec 4) (s : State) : exec (.xrel x1) s = execXrel x1 s := rfl
@[simp] theorem exec_schussOff (s : State) : exec (.schussOff) s = execSchussOff s := rfl
@[simp] theorem exec_schussOn (s : State) : exec (.schussOn) s = execSchussOn s := rfl
@[simp] theorem exec_schussBud (x1 : BitVec 16) (s : State) : exec (.schussBud x1) s = execSchussBud x1 s := rfl
@[simp] theorem exec_schussOffV2 (s : State) : exec (.schussOffV2) s = execSchussOffV2 s := rfl
@[simp] theorem exec_schussOnV2 (s : State) : exec (.schussOnV2) s = execSchussOnV2 s := rfl
@[simp] theorem exec_schussBudV2 (x1 : BitVec 16) (s : State) : exec (.schussBudV2 x1) s = execSchussBudV2 x1 s := rfl
@[simp] theorem exec_sysrd (x1 : BitVec 6) (x2 : BitVec 12) (s : State) : exec (.sysrd x1 x2) s = execSysrd x1 x2 s := rfl
@[simp] theorem exec_syswr (x1 : BitVec 6) (x2 : BitVec 12) (s : State) : exec (.syswr x1 x2) s = execSyswr x1 x2 s := rfl
@[simp] theorem exec_trap (x1 : BitVec 12) (s : State) : exec (.trap x1) s = execTrap x1 s := rfl
@[simp] theorem exec_tret (s : State) : exec (.tret) s = execTret s := rfl
@[simp] theorem exec_dclk (x1 : BitVec 6) (s : State) : exec (.dclk x1) s = execDclk x1 s := rfl
@[simp] theorem exec_brk (x1 : BitVec 12) (s : State) : exec (.brk x1) s = execBrk x1 s := rfl
@[simp] theorem exec_nopScalar (x1 : BitVec 6) (x2 : BitVec 14) (s : State) : exec (.nopScalar x1 x2) s = execNopScalar x1 x2 s := rfl
@[simp] theorem exec_prefL1 (x1 : BitVec 6) (x2 : BitVec 14) (s : State) : exec (.prefL1 x1 x2) s = execPrefL1 x1 x2 s := rfl
@[simp] theorem exec_prefSl (x1 : BitVec 6) (x2 : BitVec 14) (s : State) : exec (.prefSl x1 x2) s = execPrefSl x1 x2 s := rfl
@[simp] theorem exec_prefTr (x1 : BitVec 6) (x2 : BitVec 14) (s : State) : exec (.prefTr x1 x2) s = execPrefTr x1 x2 s := rfl
@[simp] theorem exec_shintSkip (x1 : BitVec 6) (x2 : BitVec 14) (s : State) : exec (.shintSkip x1 x2) s = execShintSkip x1 x2 s := rfl
@[simp] theorem exec_nopLane (x1 : LaneWord) (s : State) : exec (.nopLane x1) s = execNopLane x1 s := rfl
@[simp] theorem exec_mov (x1 : LaneWord) (s : State) : exec (.mov x1) s = execMov x1 s := rfl
@[simp] theorem exec_tidx (x1 : LaneWord) (s : State) : exec (.tidx x1) s = execTidx x1 s := rfl
@[simp] theorem exec_addI32 (x1 : LaneWord) (s : State) : exec (.addI32 x1) s = execAddI32 x1 s := rfl
@[simp] theorem exec_subI32 (x1 : LaneWord) (s : State) : exec (.subI32 x1) s = execSubI32 x1 s := rfl
@[simp] theorem exec_mulI32 (x1 : LaneWord) (s : State) : exec (.mulI32 x1) s = execMulI32 x1 s := rfl
@[simp] theorem exec_mulhS32 (x1 : LaneWord) (s : State) : exec (.mulhS32 x1) s = execMulhS32 x1 s := rfl
@[simp] theorem exec_mulhZ32 (x1 : LaneWord) (s : State) : exec (.mulhZ32 x1) s = execMulhZ32 x1 s := rfl
@[simp] theorem exec_minS32 (x1 : LaneWord) (s : State) : exec (.minS32 x1) s = execMinS32 x1 s := rfl
@[simp] theorem exec_minZ32 (x1 : LaneWord) (s : State) : exec (.minZ32 x1) s = execMinZ32 x1 s := rfl
@[simp] theorem exec_maxS32 (x1 : LaneWord) (s : State) : exec (.maxS32 x1) s = execMaxS32 x1 s := rfl
@[simp] theorem exec_maxZ32 (x1 : LaneWord) (s : State) : exec (.maxZ32 x1) s = execMaxZ32 x1 s := rfl
@[simp] theorem exec_absS32 (x1 : LaneWord) (s : State) : exec (.absS32 x1) s = execAbsS32 x1 s := rfl
@[simp] theorem exec_negS32 (x1 : LaneWord) (s : State) : exec (.negS32 x1) s = execNegS32 x1 s := rfl
@[simp] theorem exec_andB32 (x1 : LaneWord) (s : State) : exec (.andB32 x1) s = execAndB32 x1 s := rfl
@[simp] theorem exec_orB32 (x1 : LaneWord) (s : State) : exec (.orB32 x1) s = execOrB32 x1 s := rfl
@[simp] theorem exec_xorB32 (x1 : LaneWord) (s : State) : exec (.xorB32 x1) s = execXorB32 x1 s := rfl
@[simp] theorem exec_andnB32 (x1 : LaneWord) (s : State) : exec (.andnB32 x1) s = execAndnB32 x1 s := rfl
@[simp] theorem exec_notB32 (x1 : LaneWord) (s : State) : exec (.notB32 x1) s = execNotB32 x1 s := rfl
@[simp] theorem exec_shlB32 (x1 : LaneWord) (s : State) : exec (.shlB32 x1) s = execShlB32 x1 s := rfl
@[simp] theorem exec_shrZ32 (x1 : LaneWord) (s : State) : exec (.shrZ32 x1) s = execShrZ32 x1 s := rfl
@[simp] theorem exec_shrS32 (x1 : LaneWord) (s : State) : exec (.shrS32 x1) s = execShrS32 x1 s := rfl
@[simp] theorem exec_popcB32 (x1 : LaneWord) (s : State) : exec (.popcB32 x1) s = execPopcB32 x1 s := rfl
@[simp] theorem exec_clzB32 (x1 : LaneWord) (s : State) : exec (.clzB32 x1) s = execClzB32 x1 s := rfl
@[simp] theorem exec_brevB32 (x1 : LaneWord) (s : State) : exec (.brevB32 x1) s = execBrevB32 x1 s := rfl
@[simp] theorem exec_cmpEqI32 (x1 : LaneWord) (s : State) : exec (.cmpEqI32 x1) s = execCmpEqI32 x1 s := rfl
@[simp] theorem exec_cmpNeI32 (x1 : LaneWord) (s : State) : exec (.cmpNeI32 x1) s = execCmpNeI32 x1 s := rfl
@[simp] theorem exec_cmpLtS32 (x1 : LaneWord) (s : State) : exec (.cmpLtS32 x1) s = execCmpLtS32 x1 s := rfl
@[simp] theorem exec_cmpLeS32 (x1 : LaneWord) (s : State) : exec (.cmpLeS32 x1) s = execCmpLeS32 x1 s := rfl
@[simp] theorem exec_cmpLtZ32 (x1 : LaneWord) (s : State) : exec (.cmpLtZ32 x1) s = execCmpLtZ32 x1 s := rfl
@[simp] theorem exec_cmpLeZ32 (x1 : LaneWord) (s : State) : exec (.cmpLeZ32 x1) s = execCmpLeZ32 x1 s := rfl
@[simp] theorem exec_addF32 (x1 : LaneWord) (s : State) : exec (.addF32 x1) s = execAddF32 x1 s := rfl
@[simp] theorem exec_subF32 (x1 : LaneWord) (s : State) : exec (.subF32 x1) s = execSubF32 x1 s := rfl
@[simp] theorem exec_mulF32 (x1 : LaneWord) (s : State) : exec (.mulF32 x1) s = execMulF32 x1 s := rfl
@[simp] theorem exec_minF32 (x1 : LaneWord) (s : State) : exec (.minF32 x1) s = execMinF32 x1 s := rfl
@[simp] theorem exec_maxF32 (x1 : LaneWord) (s : State) : exec (.maxF32 x1) s = execMaxF32 x1 s := rfl
@[simp] theorem exec_cmpEqF32 (x1 : LaneWord) (s : State) : exec (.cmpEqF32 x1) s = execCmpEqF32 x1 s := rfl
@[simp] theorem exec_cmpLtF32 (x1 : LaneWord) (s : State) : exec (.cmpLtF32 x1) s = execCmpLtF32 x1 s := rfl
@[simp] theorem exec_cmpLeF32 (x1 : LaneWord) (s : State) : exec (.cmpLeF32 x1) s = execCmpLeF32 x1 s := rfl
@[simp] theorem exec_addF16x2 (x1 : LaneWord) (s : State) : exec (.addF16x2 x1) s = execAddF16x2 x1 s := rfl
@[simp] theorem exec_subF16x2 (x1 : LaneWord) (s : State) : exec (.subF16x2 x1) s = execSubF16x2 x1 s := rfl
@[simp] theorem exec_mulF16x2 (x1 : LaneWord) (s : State) : exec (.mulF16x2 x1) s = execMulF16x2 x1 s := rfl
@[simp] theorem exec_minF16x2 (x1 : LaneWord) (s : State) : exec (.minF16x2 x1) s = execMinF16x2 x1 s := rfl
@[simp] theorem exec_maxF16x2 (x1 : LaneWord) (s : State) : exec (.maxF16x2 x1) s = execMaxF16x2 x1 s := rfl
@[simp] theorem exec_addBf16x2 (x1 : LaneWord) (s : State) : exec (.addBf16x2 x1) s = execAddBf16x2 x1 s := rfl
@[simp] theorem exec_subBf16x2 (x1 : LaneWord) (s : State) : exec (.subBf16x2 x1) s = execSubBf16x2 x1 s := rfl
@[simp] theorem exec_mulBf16x2 (x1 : LaneWord) (s : State) : exec (.mulBf16x2 x1) s = execMulBf16x2 x1 s := rfl
@[simp] theorem exec_minBf16x2 (x1 : LaneWord) (s : State) : exec (.minBf16x2 x1) s = execMinBf16x2 x1 s := rfl
@[simp] theorem exec_maxBf16x2 (x1 : LaneWord) (s : State) : exec (.maxBf16x2 x1) s = execMaxBf16x2 x1 s := rfl
@[simp] theorem exec_classF32 (x1 : LaneWord) (s : State) : exec (.classF32 x1) s = execClassF32 x1 s := rfl
@[simp] theorem exec_rcpF32 (x1 : LaneWord) (s : State) : exec (.rcpF32 x1) s = execRcpF32 x1 s := rfl
@[simp] theorem exec_rsqF32 (x1 : LaneWord) (s : State) : exec (.rsqF32 x1) s = execRsqF32 x1 s := rfl
@[simp] theorem exec_sqrtF32 (x1 : LaneWord) (s : State) : exec (.sqrtF32 x1) s = execSqrtF32 x1 s := rfl
@[simp] theorem exec_ex2F32 (x1 : LaneWord) (s : State) : exec (.ex2F32 x1) s = execEx2F32 x1 s := rfl
@[simp] theorem exec_lg2F32 (x1 : LaneWord) (s : State) : exec (.lg2F32 x1) s = execLg2F32 x1 s := rfl
@[simp] theorem exec_sinF32 (x1 : LaneWord) (s : State) : exec (.sinF32 x1) s = execSinF32 x1 s := rfl
@[simp] theorem exec_cosF32 (x1 : LaneWord) (s : State) : exec (.cosF32 x1) s = execCosF32 x1 s := rfl
@[simp] theorem exec_tanhF32 (x1 : LaneWord) (s : State) : exec (.tanhF32 x1) s = execTanhF32 x1 s := rfl
@[simp] theorem exec_cvtF32S32 (x1 : LaneWord) (s : State) : exec (.cvtF32S32 x1) s = execCvtF32S32 x1 s := rfl
@[simp] theorem exec_cvtS32F32 (x1 : LaneWord) (s : State) : exec (.cvtS32F32 x1) s = execCvtS32F32 x1 s := rfl
@[simp] theorem exec_cvtF32Z32 (x1 : LaneWord) (s : State) : exec (.cvtF32Z32 x1) s = execCvtF32Z32 x1 s := rfl
@[simp] theorem exec_cvtZ32F32 (x1 : LaneWord) (s : State) : exec (.cvtZ32F32 x1) s = execCvtZ32F32 x1 s := rfl
@[simp] theorem exec_cvtF16x2F32 (x1 : LaneWord) (s : State) : exec (.cvtF16x2F32 x1) s = execCvtF16x2F32 x1 s := rfl
@[simp] theorem exec_cvtBf16x2F32 (x1 : LaneWord) (s : State) : exec (.cvtBf16x2F32 x1) s = execCvtBf16x2F32 x1 s := rfl
@[simp] theorem exec_pand (x1 : LaneWord) (s : State) : exec (.pand x1) s = execPand x1 s := rfl
@[simp] theorem exec_por (x1 : LaneWord) (s : State) : exec (.por x1) s = execPor x1 s := rfl
@[simp] theorem exec_pxor (x1 : LaneWord) (s : State) : exec (.pxor x1) s = execPxor x1 s := rfl
@[simp] theorem exec_pandn (x1 : LaneWord) (s : State) : exec (.pandn x1) s = execPandn x1 s := rfl
@[simp] theorem exec_madI32 (x1 : LaneWord) (s : State) : exec (.madI32 x1) s = execMadI32 x1 s := rfl
@[simp] theorem exec_mulhMadS32 (x1 : LaneWord) (s : State) : exec (.mulhMadS32 x1) s = execMulhMadS32 x1 s := rfl
@[simp] theorem exec_fshRB32 (x1 : LaneWord) (s : State) : exec (.fshRB32 x1) s = execFshRB32 x1 s := rfl
@[simp] theorem exec_fshLB32 (x1 : LaneWord) (s : State) : exec (.fshLB32 x1) s = execFshLB32 x1 s := rfl
@[simp] theorem exec_bfeZ32 (x1 : LaneWord) (s : State) : exec (.bfeZ32 x1) s = execBfeZ32 x1 s := rfl
@[simp] theorem exec_bfeS32 (x1 : LaneWord) (s : State) : exec (.bfeS32 x1) s = execBfeS32 x1 s := rfl
@[simp] theorem exec_bfiB32 (x1 : LaneWord) (s : State) : exec (.bfiB32 x1) s = execBfiB32 x1 s := rfl
@[simp] theorem exec_selB32 (x1 : LaneWord) (s : State) : exec (.selB32 x1) s = execSelB32 x1 s := rfl
@[simp] theorem exec_dot4S8 (x1 : LaneWord) (s : State) : exec (.dot4S8 x1) s = execDot4S8 x1 s := rfl
@[simp] theorem exec_dot4Z8 (x1 : LaneWord) (s : State) : exec (.dot4Z8 x1) s = execDot4Z8 x1 s := rfl
@[simp] theorem exec_dot2S16 (x1 : LaneWord) (s : State) : exec (.dot2S16 x1) s = execDot2S16 x1 s := rfl
@[simp] theorem exec_dot2Z16 (x1 : LaneWord) (s : State) : exec (.dot2Z16 x1) s = execDot2Z16 x1 s := rfl
@[simp] theorem exec_cmpI32 (x1 : LaneWord) (s : State) : exec (.cmpI32 x1) s = execCmpI32 x1 s := rfl
@[simp] theorem exec_fmaF32 (x1 : LaneWord) (s : State) : exec (.fmaF32 x1) s = execFmaF32 x1 s := rfl
@[simp] theorem exec_cmpF32 (x1 : LaneWord) (s : State) : exec (.cmpF32 x1) s = execCmpF32 x1 s := rfl
@[simp] theorem exec_rndF32 (x1 : LaneWord) (s : State) : exec (.rndF32 x1) s = execRndF32 x1 s := rfl
@[simp] theorem exec_fmaF16x2 (x1 : LaneWord) (s : State) : exec (.fmaF16x2 x1) s = execFmaF16x2 x1 s := rfl
@[simp] theorem exec_fmaBf16x2 (x1 : LaneWord) (s : State) : exec (.fmaBf16x2 x1) s = execFmaBf16x2 x1 s := rfl
@[simp] theorem exec_cmpF16x2 (x1 : LaneWord) (s : State) : exec (.cmpF16x2 x1) s = execCmpF16x2 x1 s := rfl
@[simp] theorem exec_cmpBf16x2 (x1 : LaneWord) (s : State) : exec (.cmpBf16x2 x1) s = execCmpBf16x2 x1 s := rfl
@[simp] theorem exec_rndF16x2 (x1 : LaneWord) (s : State) : exec (.rndF16x2 x1) s = execRndF16x2 x1 s := rfl
@[simp] theorem exec_rndBf16x2 (x1 : LaneWord) (s : State) : exec (.rndBf16x2 x1) s = execRndBf16x2 x1 s := rfl
@[simp] theorem exec_cvt (x1 : LaneWord) (s : State) : exec (.cvt x1) s = execCvt x1 s := rfl
@[simp] theorem exec_qpack (x1 : LaneWord) (s : State) : exec (.qpack x1) s = execQpack x1 s := rfl
@[simp] theorem exec_qpackScale (x1 : LaneWord) (s : State) : exec (.qpackScale x1) s = execQpackScale x1 s := rfl
@[simp] theorem exec_qunpkF32 (x1 : LaneWord) (s : State) : exec (.qunpkF32 x1) s = execQunpkF32 x1 s := rfl
@[simp] theorem exec_voteAny (x1 : LaneWord) (s : State) : exec (.voteAny x1) s = execVoteAny x1 s := rfl
@[simp] theorem exec_voteAll (x1 : LaneWord) (s : State) : exec (.voteAll x1) s = execVoteAll x1 s := rfl
@[simp] theorem exec_ballot (x1 : LaneWord) (s : State) : exec (.ballot x1) s = execBallot x1 s := rfl
@[simp] theorem exec_firstThread (x1 : LaneWord) (s : State) : exec (.firstThread x1) s = execFirstThread x1 s := rfl
@[simp] theorem exec_smpl (x1 : LaneWord) (s : State) : exec (.smpl x1) s = execSmpl x1 s := rfl
@[simp] theorem exec_randB32 (x1 : LaneWord) (s : State) : exec (.randB32 x1) s = execRandB32 x1 s := rfl
@[simp] theorem exec_randCoF32 (x1 : LaneWord) (s : State) : exec (.randCoF32 x1) s = execRandCoF32 x1 s := rfl
@[simp] theorem exec_randOcF32 (x1 : LaneWord) (s : State) : exec (.randOcF32 x1) s = execRandOcF32 x1 s := rfl
@[simp] theorem exec_randV1v2 (x1 : LaneWord) (s : State) : exec (.randV1v2 x1) s = execRandV1v2 x1 s := rfl
@[simp] theorem exec_ldLane (x1 : LaneWord) (s : State) : exec (.ldLane x1) s = execLdLane x1 s := rfl
@[simp] theorem exec_ldVer (x1 : LaneWord) (s : State) : exec (.ldVer x1) s = execLdVer x1 s := rfl
@[simp] theorem exec_stLane (x1 : LaneWord) (s : State) : exec (.stLane x1) s = execStLane x1 s := rfl
@[simp] theorem exec_atomLane (x1 : LaneWord) (s : State) : exec (.atomLane x1) s = execAtomLane x1 s := rfl
@[simp] theorem exec_casLane (x1 : LaneWord) (s : State) : exec (.casLane x1) s = execCasLane x1 s := rfl
@[simp] theorem exec_ll (x1 : LaneWord) (s : State) : exec (.ll x1) s = execLl x1 s := rfl
@[simp] theorem exec_sc (x1 : LaneWord) (s : State) : exec (.sc x1) s = execSc x1 s := rfl
@[simp] theorem exec_bra (x1 : LaneWord) (s : State) : exec (.bra x1) s = execBra x1 s := rfl
@[simp] theorem exec_brx (x1 : LaneWord) (s : State) : exec (.brx x1) s = execBrx x1 s := rfl
@[simp] theorem exec_lend (x1 : LaneWord) (s : State) : exec (.lend x1) s = execLend x1 s := rfl
@[simp] theorem exec_exitLane (x1 : LaneWord) (s : State) : exec (.exitLane x1) s = execExitLane x1 s := rfl
@[simp] theorem exec_prefL1Lane (x1 : LaneWord) (s : State) : exec (.prefL1Lane x1) s = execPrefL1Lane x1 s := rfl
@[simp] theorem exec_prefSlLane (x1 : LaneWord) (s : State) : exec (.prefSlLane x1) s = execPrefSlLane x1 s := rfl
@[simp] theorem exec_prefTrLane (x1 : LaneWord) (s : State) : exec (.prefTrLane x1) s = execPrefTrLane x1 s := rfl
@[simp] theorem exec_shintSkipLane (x1 : LaneWord) (s : State) : exec (.shintSkipLane x1) s = execShintSkipLane x1 s := rfl
@[simp] theorem exec_lanePairedWord (x1 : ShortOp) (x2 : ShortOp) (s : State) : exec (.lanePairedWord x1 x2) s = execLanePairedWord x1 x2 s := rfl
@[simp] theorem exec_issueSelect (x1 : Nat) (x2 : Bool) (s : State) : exec (.issueSelect x1 x2) s = execIssueSelect x1 x2 s := rfl
@[simp] theorem exec_grantWindow (x1 : Nat) (s : State) : exec (.grantWindow x1) s = execGrantWindow x1 s := rfl
@[simp] theorem exec_issueBoost (x1 : Nat) (x2 : Nat) (s : State) : exec (.issueBoost x1 x2) s = execIssueBoost x1 x2 s := rfl
@[simp] theorem exec_pathSwitch (x1 : Nat) (x2 : Nat) (s : State) : exec (.pathSwitch x1 x2) s = execPathSwitch x1 x2 s := rfl
@[simp] theorem exec_pauseExpiry (x1 : Nat) (x2 : Nat) (s : State) : exec (.pauseExpiry x1 x2) s = execPauseExpiry x1 x2 s := rfl
@[simp] theorem exec_waitlnTimeout (x1 : Nat) (x2 : Nat) (s : State) : exec (.waitlnTimeout x1 x2) s = execWaitlnTimeout x1 x2 s := rfl
@[simp] theorem exec_loadValueReturn (x1 : Nat) (x2 : Nat) (s : State) : exec (.loadValueReturn x1 x2) s = execLoadValueReturn x1 x2 s := rfl
@[simp] theorem exec_loadJudgedLong (x1 : Nat) (x2 : Nat) (s : State) : exec (.loadJudgedLong x1 x2) s = execLoadJudgedLong x1 x2 s := rfl
@[simp] theorem exec_schussEntry (x1 : Nat) (x2 : Nat) (x3 : Bool) (s : State) : exec (.schussEntry x1 x2 x3) s = execSchussEntry x1 x2 x3 s := rfl
@[simp] theorem exec_schussBudgetExpiry (x1 : Nat) (x2 : Nat) (s : State) : exec (.schussBudgetExpiry x1 x2) s = execSchussBudgetExpiry x1 x2 s := rfl
@[simp] theorem exec_asyncUncorrectableDelivery (x1 : Nat) (x2 : Nat) (s : State) : exec (.asyncUncorrectableDelivery x1 x2) s = execAsyncUncorrectableDelivery x1 x2 s := rfl
@[simp] theorem exec_spawnTimerExpiry (x1 : Nat) (x2 : Nat) (s : State) : exec (.spawnTimerExpiry x1 x2) s = execSpawnTimerExpiry x1 x2 s := rfl
@[simp] theorem exec_spawnBinLaunch (x1 : Nat) (x2 : Nat) (s : State) : exec (.spawnBinLaunch x1 x2) s = execSpawnBinLaunch x1 x2 s := rfl
@[simp] theorem exec_teamPlacement (x1 : Nat) (x2 : Nat) (x3 : Nat) (x4 : Nat) (s : State) : exec (.teamPlacement x1 x2 x3 x4) s = execTeamPlacement x1 x2 x3 x4 s := rfl
@[simp] theorem exec_teamRetirement (x1 : Nat) (s : State) : exec (.teamRetirement x1) s = execTeamRetirement x1 s := rfl
@[simp] theorem exec_gridLeasingComplete (x1 : Nat) (x2 : Nat) (s : State) : exec (.gridLeasingComplete x1 x2) s = execGridLeasingComplete x1 x2 s := rfl
@[simp] theorem exec_gridRetirement (x1 : Nat) (x2 : Nat) (s : State) : exec (.gridRetirement x1 x2) s = execGridRetirement x1 x2 s := rfl
@[simp] theorem exec_matrixCommandStart (x1 : Nat) (s : State) : exec (.matrixCommandStart x1) s = execMatrixCommandStart x1 s := rfl
@[simp] theorem exec_matrixCommandComplete (x1 : Nat) (x2 : Nat) (s : State) : exec (.matrixCommandComplete x1 x2) s = execMatrixCommandComplete x1 x2 s := rfl
@[simp] theorem exec_copyComplete (x1 : Nat) (x2 : Nat) (x3 : Nat) (s : State) : exec (.copyComplete x1 x2 x3) s = execCopyComplete x1 x2 x3 s := rfl
@[simp] theorem exec_faultRecordWritten (x1 : Nat) (s : State) : exec (.faultRecordWritten x1) s = execFaultRecordWritten x1 s := rfl
@[simp] theorem exec_collectiveMeet (x1 : Nat) (x2 : Nat) (s : State) : exec (.collectiveMeet x1 x2) s = execCollectiveMeet x1 x2 s := rfl
@[simp] theorem exec_messageArrival (x1 : Nat) (s : State) : exec (.messageArrival x1) s = execMessageArrival x1 s := rfl
@[simp] theorem exec_messageRetry (x1 : Nat) (s : State) : exec (.messageRetry x1) s = execMessageRetry x1 s := rfl
@[simp] theorem exec_messageDrop (x1 : Nat) (s : State) : exec (.messageDrop x1) s = execMessageDrop x1 s := rfl
@[simp] theorem exec_semaphoreIncrement (x1 : Nat) (s : State) : exec (.semaphoreIncrement x1) s = execSemaphoreIncrement x1 s := rfl
@[simp] theorem exec_semwaitListRetry (x1 : Nat) (x2 : Nat) (s : State) : exec (.semwaitListRetry x1 x2) s = execSemwaitListRetry x1 x2 s := rfl
@[simp] theorem exec_noonRelease (x1 : Nat) (x2 : Nat) (s : State) : exec (.noonRelease x1 x2) s = execNoonRelease x1 x2 s := rfl
@[simp] theorem exec_routerHomeBoundRead (x1 : Nat) (s : State) : exec (.routerHomeBoundRead x1) s = execRouterHomeBoundRead x1 s := rfl
@[simp] theorem exec_routerSteeredRead (x1 : Nat) (s : State) : exec (.routerSteeredRead x1) s = execRouterSteeredRead x1 s := rfl
@[simp] theorem exec_routerReadReply (x1 : Nat) (s : State) : exec (.routerReadReply x1) s = execRouterReadReply x1 s := rfl
@[simp] theorem exec_routerWriteRequest (x1 : Nat) (s : State) : exec (.routerWriteRequest x1) s = execRouterWriteRequest x1 s := rfl
@[simp] theorem exec_routerUpgrade (x1 : Nat) (s : State) : exec (.routerUpgrade x1) s = execRouterUpgrade x1 s := rfl
@[simp] theorem exec_routerInvalidation (x1 : Nat) (s : State) : exec (.routerInvalidation x1) s = execRouterInvalidation x1 s := rfl
@[simp] theorem exec_routerCut (x1 : Nat) (s : State) : exec (.routerCut x1) s = execRouterCut x1 s := rfl
@[simp] theorem exec_routerAck (x1 : Nat) (s : State) : exec (.routerAck x1) s = execRouterAck x1 s := rfl
@[simp] theorem exec_routerDataAck (x1 : Nat) (s : State) : exec (.routerDataAck x1) s = execRouterDataAck x1 s := rfl
@[simp] theorem exec_routerPrune (x1 : Nat) (s : State) : exec (.routerPrune x1) s = execRouterPrune x1 s := rfl
@[simp] theorem exec_routerGrant (x1 : Nat) (s : State) : exec (.routerGrant x1) s = execRouterGrant x1 s := rfl
@[simp] theorem exec_anchorWriteBack (x1 : Nat) (s : State) : exec (.anchorWriteBack x1) s = execAnchorWriteBack x1 s := rfl
@[simp] theorem exec_anchorAtomic (x1 : Nat) (s : State) : exec (.anchorAtomic x1) s = execAnchorAtomic x1 s := rfl
@[simp] theorem exec_l1SteeredRead (x1 : Nat) (s : State) : exec (.l1SteeredRead x1) s = execL1SteeredRead x1 s := rfl
@[simp] theorem exec_l1Invalidation (x1 : Nat) (s : State) : exec (.l1Invalidation x1) s = execL1Invalidation x1 s := rfl
@[simp] theorem exec_requesterFill (x1 : Nat) (s : State) : exec (.requesterFill x1) s = execRequesterFill x1 s := rfl
@[simp] theorem exec_writerGrant (x1 : Nat) (s : State) : exec (.writerGrant x1) s = execWriterGrant x1 s := rfl
@[simp] theorem exec_endToEndRetransmission (x1 : Nat) (s : State) : exec (.endToEndRetransmission x1) s = execEndToEndRetransmission x1 s := rfl
@[simp] theorem exec_hostCxlMemRead (x1 : Nat) (x2 : Nat) (x3 : Nat) (s : State) : exec (.hostCxlMemRead x1 x2 x3) s = execHostCxlMemRead x1 x2 x3 s := rfl
@[simp] theorem exec_hostCxlMemWrite (x1 : Nat) (x2 : Nat) (x3 : List Byte) (s : State) : exec (.hostCxlMemWrite x1 x2 x3) s = execHostCxlMemWrite x1 x2 x3 s := rfl
@[simp] theorem exec_hostSnoop (x1 : Nat) (s : State) : exec (.hostSnoop x1) s = execHostSnoop x1 s := rfl
@[simp] theorem exec_hostLineResponse (x1 : Nat) (x2 : Option Line) (s : State) : exec (.hostLineResponse x1 x2) s = execHostLineResponse x1 x2 s := rfl
@[simp] theorem exec_remotePanelRequest (x1 : Nat) (x2 : Nat) (x3 : Nat) (x4 : Bool) (s : State) : exec (.remotePanelRequest x1 x2 x3 x4) s = execRemotePanelRequest x1 x2 x3 x4 s := rfl
@[simp] theorem exec_remotePanelRecall (x1 : Nat) (x2 : Nat) (s : State) : exec (.remotePanelRecall x1 x2) s = execRemotePanelRecall x1 x2 s := rfl
@[simp] theorem exec_remoteTileResponse (x1 : Nat) (x2 : Nat) (x3 : Bool) (x4 : List Line) (s : State) : exec (.remoteTileResponse x1 x2 x3 x4) s = execRemoteTileResponse x1 x2 x3 x4 s := rfl
@[simp] theorem exec_translationWalkComplete (x1 : Nat) (s : State) : exec (.translationWalkComplete x1) s = execTranslationWalkComplete x1 s := rfl
@[simp] theorem exec_translationInvalidation (x1 : Nat) (x2 : Nat) (x3 : Nat) (x4 : Nat) (s : State) : exec (.translationInvalidation x1 x2 x3 x4) s = execTranslationInvalidation x1 x2 x3 x4 s := rfl
@[simp] theorem exec_shootdown (x1 : Nat) (x2 : Nat) (x3 : Nat) (s : State) : exec (.shootdown x1 x2 x3) s = execShootdown x1 x2 x3 s := rfl
@[simp] theorem exec_shootdownAck (x1 : Nat) (x2 : Nat) (x3 : Nat) (s : State) : exec (.shootdownAck x1 x2 x3) s = execShootdownAck x1 x2 x3 s := rfl
@[simp] theorem exec_migrate (x1 : Nat) (x2 : Nat) (x3 : Nat) (x4 : Nat) (s : State) : exec (.migrate x1 x2 x3 x4) s = execMigrate x1 x2 x3 x4 s := rfl
@[simp] theorem exec_migrationBackgroundPull (x1 : Nat) (x2 : Nat) (s : State) : exec (.migrationBackgroundPull x1 x2) s = execMigrationBackgroundPull x1 x2 s := rfl
@[simp] theorem exec_revoke (x1 : Nat) (x2 : Nat) (x3 : Nat) (x4 : Nat) (s : State) : exec (.revoke x1 x2 x3 x4) s = execRevoke x1 x2 x3 x4 s := rfl
@[simp] theorem exec_regrant (x1 : Nat) (x2 : Nat) (x3 : Nat) (x4 : Nat) (s : State) : exec (.regrant x1 x2 x3 x4) s = execRegrant x1 x2 x3 x4 s := rfl
@[simp] theorem exec_leaseServiced (x1 : Nat) (x2 : Nat) (x3 : Nat) (s : State) : exec (.leaseServiced x1 x2 x3) s = execLeaseServiced x1 x2 x3 s := rfl
@[simp] theorem exec_leaseUnserviceable (x1 : Nat) (x2 : Nat) (x3 : Nat) (s : State) : exec (.leaseUnserviceable x1 x2 x3) s = execLeaseUnserviceable x1 x2 x3 s := rfl
@[simp] theorem exec_mgmtLaunch (x1 : Nat) (x2 : Nat) (x3 : Nat) (x4 : Nat) (s : State) : exec (.mgmtLaunch x1 x2 x3 x4) s = execMgmtLaunch x1 x2 x3 x4 s := rfl
@[simp] theorem exec_poolMove (x1 : Nat) (x2 : Nat) (s : State) : exec (.poolMove x1 x2) s = execPoolMove x1 x2 s := rfl
@[simp] theorem exec_hopStopBegin (x1 : Nat) (s : State) : exec (.hopStopBegin x1) s = execHopStopBegin x1 s := rfl
@[simp] theorem exec_hopStopEnd (x1 : Nat) (s : State) : exec (.hopStopEnd x1) s = execHopStopEnd x1 s := rfl
@[simp] theorem exec_hopRetry (x1 : Nat) (s : State) : exec (.hopRetry x1) s = execHopRetry x1 s := rfl
@[simp] theorem exec_stepBoundary (x1 : Nat) (s : State) : exec (.stepBoundary x1) s = execStepBoundary x1 s := rfl
@[simp] theorem exec_droopDetect (x1 : Nat) (s : State) : exec (.droopDetect x1) s = execDroopDetect x1 s := rfl
@[simp] theorem exec_droopClear (x1 : Nat) (s : State) : exec (.droopClear x1) s = execDroopClear x1 s := rfl
@[simp] theorem exec_thermalSample (x1 : SMap Byte) (s : State) : exec (.thermalSample x1) s = execThermalSample x1 s := rfl
@[simp] theorem exec_preempt (x1 : Nat) (x2 : Nat) (x3 : Option Nat) (s : State) : exec (.preempt x1 x2 x3) s = execPreempt x1 x2 x3 s := rfl
@[simp] theorem exec_preemptComplete (x1 : Nat) (x2 : Nat) (x3 : Nat) (s : State) : exec (.preemptComplete x1 x2 x3) s = execPreemptComplete x1 x2 x3 s := rfl
@[simp] theorem exec_restore (x1 : Nat) (x2 : Nat) (x3 : Nat) (x4 : Option Nat) (s : State) : exec (.restore x1 x2 x3 x4) s = execRestore x1 x2 x3 x4 s := rfl
@[simp] theorem exec_selfTestStart (x1 : UnitId) (x2 : ErrorKind) (x3 : List BadWord) (s : State) : exec (.selfTestStart x1 x2 x3) s = execSelfTestStart x1 x2 x3 s := rfl
@[simp] theorem exec_selfTestComplete (x1 : UnitId) (x2 : TestResult) (s : State) :
    exec (.selfTestComplete x1 x2) s = execSelfTestComplete x1 x2 s := rfl
@[simp] theorem exec_linkCrcRetry (x1 : Nat) (s : State) : exec (.linkCrcRetry x1) s = execLinkCrcRetry x1 s := rfl
@[simp] theorem exec_dieReset (x1 : Nat) (s : State) : exec (.dieReset x1) s = execDieReset x1 s := rfl
@[simp] theorem exec_dieResetForce (x1 : Nat) (s : State) : exec (.dieResetForce x1) s = execDieResetForce x1 s := rfl
@[simp] theorem exec_deviceStart (x1 : StartReport) (s : State) : exec (.deviceStart x1) s = execDeviceStart x1 s := rfl
@[simp] theorem exec_partitionEnable (x1 : Nat) (x2 : BitVec 64) (s : State) : exec (.partitionEnable x1 x2) s = execPartitionEnable x1 x2 s := rfl
@[simp] theorem exec_partitionDisable (x1 : Nat) (s : State) : exec (.partitionDisable x1) s = execPartitionDisable x1 s := rfl
@[simp] theorem exec_scrubComplete (x1 : Nat) (s : State) : exec (.scrubComplete x1) s = execScrubComplete x1 s := rfl
@[simp] theorem exec_partedgeWrite (x1 : Nat) (x2 : BitVec 64) (s : State) : exec (.partedgeWrite x1 x2) s = execPartedgeWrite x1 x2 s := rfl
@[simp] theorem exec_panapWrite (x1 : Nat) (x2 : Nat) (x3 : BitVec 64) (s : State) : exec (.panapWrite x1 x2 x3) s = execPanapWrite x1 x2 x3 s := rfl
@[simp] theorem exec_pcwaysWrite (x1 : Nat) (x2 : BitVec 64) (s : State) : exec (.pcwaysWrite x1 x2) s = execPcwaysWrite x1 x2 s := rfl
@[simp] theorem exec_pcvalWrite (x1 : Nat) (x2 : BitVec 32) (s : State) : exec (.pcvalWrite x1 x2) s = execPcvalWrite x1 x2 s := rfl
@[simp] theorem exec_nbctlArm (x1 : Nat) (x2 : Nat) (x3 : BitVec 32) (s : State) : exec (.nbctlArm x1 x2 x3) s = execNbctlArm x1 x2 x3 s := rfl
@[simp] theorem exec_fqcfgWrite (x1 : Nat) (x2 : BitVec 64) (s : State) : exec (.fqcfgWrite x1 x2) s = execFqcfgWrite x1 x2 s := rfl
@[simp] theorem exec_fqheadWrite (x1 : Nat) (x2 : BitVec 32) (s : State) : exec (.fqheadWrite x1 x2) s = execFqheadWrite x1 x2 s := rfl
@[simp] theorem exec_cfgrantGo (x1 : Nat) (x2 : BitVec 64) (s : State) : exec (.cfgrantGo x1 x2) s = execCfgrantGo x1 x2 s := rfl
@[simp] theorem exec_featenWrite (x1 : BitVec 256) (s : State) : exec (.featenWrite x1) s = execFeatenWrite x1 s := rfl
@[simp] theorem exec_curfewStop (x1 : Nat) (s : State) : exec (.curfewStop x1) s = execCurfewStop x1 s := rfl
@[simp] theorem exec_watchpointReport (x1 : Nat) (x2 : Nat) (x3 : Bool) (x4 : Nat) (x5 : Nat) (s : State) : exec (.watchpointReport x1 x2 x3 x4 x5) s = execWatchpointReport x1 x2 x3 x4 x5 s := rfl
@[simp] theorem exec_mgmtRegisterWrite (x1 : MgmtReg) (x2 : BitVec 64) (s : State) : exec (.mgmtRegisterWrite x1 x2) s = execMgmtRegisterWrite x1 x2 s := rfl
@[simp] theorem exec_getVersion (x1 : Nat) (s : State) : exec (.getVersion x1) s = execGetVersion x1 s := rfl
@[simp] theorem exec_getCapabilities (x1 : Nat) (s : State) : exec (.getCapabilities x1) s = execGetCapabilities x1 s := rfl
@[simp] theorem exec_negotiateAlgorithms (x1 : Nat) (x2 : SpdmOffer) (s : State) : exec (.negotiateAlgorithms x1 x2) s = execNegotiateAlgorithms x1 x2 s := rfl
@[simp] theorem exec_getDigests (x1 : Nat) (s : State) : exec (.getDigests x1) s = execGetDigests x1 s := rfl
@[simp] theorem exec_getCertificate (x1 : Nat) (x2 : Nat) (s : State) : exec (.getCertificate x1 x2) s = execGetCertificate x1 x2 s := rfl
@[simp] theorem exec_challenge (x1 : Nat) (x2 : List Byte) (s : State) : exec (.challenge x1 x2) s = execChallenge x1 x2 s := rfl
@[simp] theorem exec_getMeasurements (x1 : Nat) (x2 : Nat) (x3 : List Byte) (x4 : Bool) (s : State) : exec (.getMeasurements x1 x2 x3 x4) s = execGetMeasurements x1 x2 x3 x4 s := rfl
@[simp] theorem exec_keyExchange (x1 : Nat) (x2 : List Byte) (s : State) : exec (.keyExchange x1 x2) s = execKeyExchange x1 x2 s := rfl
@[simp] theorem exec_finishSession (x1 : Nat) (x2 : Bool) (s : State) : exec (.finishSession x1 x2) s = execFinishSession x1 x2 s := rfl
@[simp] theorem exec_heartbeat (x1 : Nat) (s : State) : exec (.heartbeat x1) s = execHeartbeat x1 s := rfl
@[simp] theorem exec_keyUpdate (x1 : Nat) (s : State) : exec (.keyUpdate x1) s = execKeyUpdate x1 s := rfl
@[simp] theorem exec_endSession (x1 : Nat) (s : State) : exec (.endSession x1) s = execEndSession x1 s := rfl
@[simp] theorem exec_bindSession (x1 : Nat) (x2 : Nat) (s : State) : exec (.bindSession x1 x2) s = execBindSession x1 x2 s := rfl
@[simp] theorem exec_keyset (x1 : Nat) (x2 : Nat) (x3 : BitVec 256) (s : State) : exec (.keyset x1 x2 x3) s = execKeyset x1 x2 x3 s := rfl
@[simp] theorem exec_keyclr (x1 : Nat) (x2 : Nat) (s : State) : exec (.keyclr x1 x2) s = execKeyclr x1 x2 s := rfl
@[simp] theorem exec_illegalInstruction (x1 : Bool) (x2 : Nat) (s : State) : exec (.illegalInstruction x1 x2) s = execIllegalInstruction x1 x2 s := rfl
@[simp] theorem exec_unassignedLaneHint (x1 : BitVec 10) (x2 : LaneWord) (s : State) : exec (.unassignedLaneHint x1 x2) s = execUnassignedLaneHint x1 x2 s := rfl
@[simp] theorem exec_taskEnd (x1 : Nat) (x2 : Nat) (s : State) : exec (.taskEnd x1 x2) s = execTaskEnd x1 x2 s := rfl
@[simp] theorem exec_copyAccessFault (x1 : Nat) (x2 : Nat) (s : State) : exec (.copyAccessFault x1 x2) s = execCopyAccessFault x1 x2 s := rfl
@[simp] theorem exec_partfarWrite (x1 : Nat) (x2 : BitVec 64) (s : State) : exec (.partfarWrite x1 x2) s = execPartfarWrite x1 x2 s := rfl
@[simp] theorem exec_ctxareaWrite (x1 : Nat) (x2 : BitVec 64) (s : State) : exec (.ctxareaWrite x1 x2) s = execCtxareaWrite x1 x2 s := rfl

end Sys2Proof.Machine
end

