-- ==== Sys2Proof/Laws/PerInstr.lean ====
section
/-! SUPPORT. A fact about every instruction as syntax: the word its encoding gives fits the bits it says (R49: 32 for the scalar
section, 96 for the lane section). One lemma per instruction. -/

namespace Sys2Proof.Laws.EncodeFits

open Sys2Proof

/-- The encoding of `i`, if it has one, is a scalar word below 2^32 or a lane word below 2^96. -/
def Statement (i : Instr) : Prop :=
  ∀ n w, encode i = some (n, w) → n = 32 ∧ w < 2 ^ 32 ∨ n = 96 ∧ w < 2 ^ 96

theorem of_scalar {i : Instr} {v : Nat} (h : encodeScalar i = some v) (hv : v < 2 ^ 32) : Statement i := by
  intro n w hw
  simp only [encode, h, Option.some.injEq, Prod.mk.injEq] at hw
  obtain ⟨rfl, rfl⟩ := hw
  exact .inl ⟨rfl, hv⟩

theorem of_lane {i : Instr} {v : Nat} (hs : encodeScalar i = none) (h : encodeLane i = some v) (hv : v < 2 ^ 96) :
    Statement i := by
  intro n w hw
  simp only [encode, hs, h, Option.map_some, Option.some.injEq, Prod.mk.injEq] at hw
  obtain ⟨rfl, rfl⟩ := hw
  exact .inr ⟨rfl, hv⟩

theorem of_none {i : Instr} (hs : encodeScalar i = none) (h : encodeLane i = none) : Statement i := by
  intro n w hw
  simp [encode, hs, h] at hw

theorem formR_lt (m : Nat) (d a b : BitVec 6) : formR m d a b < m + 2 ^ 26 - 2 ^ 8 + 1 := by
  have := d.isLt; have := a.isLt; have := b.isLt
  simp only [formR]; omega

theorem formI_lt (m : Nat) (d a : BitVec 6) (i : BitVec 14) : formI m d a i < m + 2 ^ 26 := by
  have := d.isLt; have := a.isLt; have := i.isLt
  simp only [formI]; omega

theorem formDA_lt (m : Nat) (d a : BitVec 6) : formDA m d a < m + 2 ^ 26 - 2 ^ 14 + 1 := by
  have := d.isLt; have := a.isLt
  simp only [formDA]; omega

theorem formS_lt (m : Nat) (d : BitVec 6) (i : Nat) (h : i < 2 ^ 20) : formS m d i < m + 2 ^ 26 := by
  have := d.isLt
  simp only [formS]; omega

theorem long_lt (op : Nat) (h : op < 1024) (w : LaneWord) : encodeLong op w < 2 ^ 96 := by
  have := w.dst.isLt; have := w.srcA.isLt; have := w.rtA.isLt; have := w.srcB.isLt; have := w.rtB.isLt
  have := w.srcC.isLt; have := w.rtC.isLt; have := w.pred.isLt; have := w.neg.isLt; have := w.u.isLt; have := w.mod.isLt
  simp only [encodeLong]; omega

theorem slot_lt (s : ShortOp) : encodeSlot s < 2 ^ 47 := by
  have := s.op.isLt; have := s.dst.isLt; have := s.srcA.isLt; have := s.srcB.isLt; have := s.rtB.isLt; have := s.pred.isLt
  simp only [encodeSlot]; omega

theorem add (d : BitVec 6) (a : BitVec 6) (b : BitVec 6) : Statement (.add d a b) := of_scalar rfl (by have := d.isLt; have := a.isLt; have := b.isLt; simp only [formR]; omega)
theorem sub (d : BitVec 6) (a : BitVec 6) (b : BitVec 6) : Statement (.sub d a b) := of_scalar rfl (by have := d.isLt; have := a.isLt; have := b.isLt; simp only [formR]; omega)
theorem andR (d : BitVec 6) (a : BitVec 6) (b : BitVec 6) : Statement (.andR d a b) := of_scalar rfl (by have := d.isLt; have := a.isLt; have := b.isLt; simp only [formR]; omega)
theorem orR (d : BitVec 6) (a : BitVec 6) (b : BitVec 6) : Statement (.orR d a b) := of_scalar rfl (by have := d.isLt; have := a.isLt; have := b.isLt; simp only [formR]; omega)
theorem xorR (d : BitVec 6) (a : BitVec 6) (b : BitVec 6) : Statement (.xorR d a b) := of_scalar rfl (by have := d.isLt; have := a.isLt; have := b.isLt; simp only [formR]; omega)
theorem andn (d : BitVec 6) (a : BitVec 6) (b : BitVec 6) : Statement (.andn d a b) := of_scalar rfl (by have := d.isLt; have := a.isLt; have := b.isLt; simp only [formR]; omega)
theorem shl (d : BitVec 6) (a : BitVec 6) (b : BitVec 6) : Statement (.shl d a b) := of_scalar rfl (by have := d.isLt; have := a.isLt; have := b.isLt; simp only [formR]; omega)
theorem shrZ (d : BitVec 6) (a : BitVec 6) (b : BitVec 6) : Statement (.shrZ d a b) := of_scalar rfl (by have := d.isLt; have := a.isLt; have := b.isLt; simp only [formR]; omega)
theorem shrS (d : BitVec 6) (a : BitVec 6) (b : BitVec 6) : Statement (.shrS d a b) := of_scalar rfl (by have := d.isLt; have := a.isLt; have := b.isLt; simp only [formR]; omega)
theorem rotr (d : BitVec 6) (a : BitVec 6) (b : BitVec 6) : Statement (.rotr d a b) := of_scalar rfl (by have := d.isLt; have := a.isLt; have := b.isLt; simp only [formR]; omega)
theorem slt (d : BitVec 6) (a : BitVec 6) (b : BitVec 6) : Statement (.slt d a b) := of_scalar rfl (by have := d.isLt; have := a.isLt; have := b.isLt; simp only [formR]; omega)
theorem sltu (d : BitVec 6) (a : BitVec 6) (b : BitVec 6) : Statement (.sltu d a b) := of_scalar rfl (by have := d.isLt; have := a.isLt; have := b.isLt; simp only [formR]; omega)
theorem seq (d : BitVec 6) (a : BitVec 6) (b : BitVec 6) : Statement (.seq d a b) := of_scalar rfl (by have := d.isLt; have := a.isLt; have := b.isLt; simp only [formR]; omega)
theorem sne (d : BitVec 6) (a : BitVec 6) (b : BitVec 6) : Statement (.sne d a b) := of_scalar rfl (by have := d.isLt; have := a.isLt; have := b.isLt; simp only [formR]; omega)
theorem minS (d : BitVec 6) (a : BitVec 6) (b : BitVec 6) : Statement (.minS d a b) := of_scalar rfl (by have := d.isLt; have := a.isLt; have := b.isLt; simp only [formR]; omega)
theorem minZ (d : BitVec 6) (a : BitVec 6) (b : BitVec 6) : Statement (.minZ d a b) := of_scalar rfl (by have := d.isLt; have := a.isLt; have := b.isLt; simp only [formR]; omega)
theorem maxS (d : BitVec 6) (a : BitVec 6) (b : BitVec 6) : Statement (.maxS d a b) := of_scalar rfl (by have := d.isLt; have := a.isLt; have := b.isLt; simp only [formR]; omega)
theorem maxZ (d : BitVec 6) (a : BitVec 6) (b : BitVec 6) : Statement (.maxZ d a b) := of_scalar rfl (by have := d.isLt; have := a.isLt; have := b.isLt; simp only [formR]; omega)
theorem mul (d : BitVec 6) (a : BitVec 6) (b : BitVec 6) : Statement (.mul d a b) := of_scalar rfl (by have := d.isLt; have := a.isLt; have := b.isLt; simp only [formR]; omega)
theorem mulhS (d : BitVec 6) (a : BitVec 6) (b : BitVec 6) : Statement (.mulhS d a b) := of_scalar rfl (by have := d.isLt; have := a.isLt; have := b.isLt; simp only [formR]; omega)
theorem mulhZ (d : BitVec 6) (a : BitVec 6) (b : BitVec 6) : Statement (.mulhZ d a b) := of_scalar rfl (by have := d.isLt; have := a.isLt; have := b.isLt; simp only [formR]; omega)
theorem divS (d : BitVec 6) (a : BitVec 6) (b : BitVec 6) : Statement (.divS d a b) := of_scalar rfl (by have := d.isLt; have := a.isLt; have := b.isLt; simp only [formR]; omega)
theorem divZ (d : BitVec 6) (a : BitVec 6) (b : BitVec 6) : Statement (.divZ d a b) := of_scalar rfl (by have := d.isLt; have := a.isLt; have := b.isLt; simp only [formR]; omega)
theorem remS (d : BitVec 6) (a : BitVec 6) (b : BitVec 6) : Statement (.remS d a b) := of_scalar rfl (by have := d.isLt; have := a.isLt; have := b.isLt; simp only [formR]; omega)
theorem remZ (d : BitVec 6) (a : BitVec 6) (b : BitVec 6) : Statement (.remZ d a b) := of_scalar rfl (by have := d.isLt; have := a.isLt; have := b.isLt; simp only [formR]; omega)
theorem popc (d : BitVec 6) (a : BitVec 6) : Statement (.popc d a) := of_scalar rfl (by have := d.isLt; have := a.isLt; simp only [formDA]; omega)
theorem clz (d : BitVec 6) (a : BitVec 6) : Statement (.clz d a) := of_scalar rfl (by have := d.isLt; have := a.isLt; simp only [formDA]; omega)
theorem brev (d : BitVec 6) (a : BitVec 6) : Statement (.brev d a) := of_scalar rfl (by have := d.isLt; have := a.isLt; simp only [formDA]; omega)
theorem sel (d : BitVec 6) (a : BitVec 6) (b : BitVec 6) (c : BitVec 6) : Statement (.sel d a b c) := of_scalar rfl (by have := d.isLt; have := a.isLt; have := b.isLt; have := c.isLt; simp only [formR]; omega)
theorem addi (d : BitVec 6) (a : BitVec 6) (i : BitVec 14) : Statement (.addi d a i) := of_scalar rfl (by have := d.isLt; have := a.isLt; have := i.isLt; simp only [formI]; omega)
theorem andi (d : BitVec 6) (a : BitVec 6) (i : BitVec 14) : Statement (.andi d a i) := of_scalar rfl (by have := d.isLt; have := a.isLt; have := i.isLt; simp only [formI]; omega)
theorem ori (d : BitVec 6) (a : BitVec 6) (i : BitVec 14) : Statement (.ori d a i) := of_scalar rfl (by have := d.isLt; have := a.isLt; have := i.isLt; simp only [formI]; omega)
theorem xori (d : BitVec 6) (a : BitVec 6) (i : BitVec 14) : Statement (.xori d a i) := of_scalar rfl (by have := d.isLt; have := a.isLt; have := i.isLt; simp only [formI]; omega)
theorem slti (d : BitVec 6) (a : BitVec 6) (i : BitVec 14) : Statement (.slti d a i) := of_scalar rfl (by have := d.isLt; have := a.isLt; have := i.isLt; simp only [formI]; omega)
theorem sltiu (d : BitVec 6) (a : BitVec 6) (i : BitVec 14) : Statement (.sltiu d a i) := of_scalar rfl (by have := d.isLt; have := a.isLt; have := i.isLt; simp only [formI]; omega)
theorem shli (d : BitVec 6) (a : BitVec 6) (n : BitVec 5) : Statement (.shli d a n) := of_scalar rfl (by have := d.isLt; have := a.isLt; have := n.isLt; simp only [formDA]; omega)
theorem shriZ (d : BitVec 6) (a : BitVec 6) (n : BitVec 5) : Statement (.shriZ d a n) := of_scalar rfl (by have := d.isLt; have := a.isLt; have := n.isLt; simp only [formDA]; omega)
theorem shriS (d : BitVec 6) (a : BitVec 6) (n : BitVec 5) : Statement (.shriS d a n) := of_scalar rfl (by have := d.isLt; have := a.isLt; have := n.isLt; simp only [formDA]; omega)
theorem rotri (d : BitVec 6) (a : BitVec 6) (n : BitVec 5) : Statement (.rotri d a n) := of_scalar rfl (by have := d.isLt; have := a.isLt; have := n.isLt; simp only [formDA]; omega)
theorem li (d : BitVec 6) (i : BitVec 16) : Statement (.li d i) := of_scalar rfl (by have := d.isLt; have := i.isLt; simp only [formS]; omega)
theorem liz (d : BitVec 6) (i : BitVec 16) : Statement (.liz d i) := of_scalar rfl (by have := d.isLt; have := i.isLt; simp only [formS]; omega)
theorem lui (d : BitVec 6) (i : BitVec 16) : Statement (.lui d i) := of_scalar rfl (by have := d.isLt; have := i.isLt; simp only [formS]; omega)
theorem lih (d : BitVec 6) (i : BitVec 16) : Statement (.lih d i) := of_scalar rfl (by have := d.isLt; have := i.isLt; simp only [formS]; omega)
theorem bfeZ (d : BitVec 6) (a : BitVec 6) (w : BitVec 6) (p : BitVec 5) : Statement (.bfeZ d a w p) := of_scalar rfl (by have := d.isLt; have := a.isLt; have := w.isLt; have := p.isLt; simp only [formDA]; omega)
theorem bfeS (d : BitVec 6) (a : BitVec 6) (w : BitVec 6) (p : BitVec 5) : Statement (.bfeS d a w p) := of_scalar rfl (by have := d.isLt; have := a.isLt; have := w.isLt; have := p.isLt; simp only [formDA]; omega)
theorem bfi (d : BitVec 6) (a : BitVec 6) (w : BitVec 6) (p : BitVec 5) : Statement (.bfi d a w p) := of_scalar rfl (by have := d.isLt; have := a.isLt; have := w.isLt; have := p.isLt; simp only [formDA]; omega)
theorem beqz (a : BitVec 6) (o : BitVec 20) : Statement (.beqz a o) := of_scalar rfl (by have := a.isLt; have := o.isLt; simp only [formS]; omega)
theorem bnez (a : BitVec 6) (o : BitVec 20) : Statement (.bnez a o) := of_scalar rfl (by have := a.isLt; have := o.isLt; simp only [formS]; omega)
theorem bltz (a : BitVec 6) (o : BitVec 20) : Statement (.bltz a o) := of_scalar rfl (by have := a.isLt; have := o.isLt; simp only [formS]; omega)
theorem bgez (a : BitVec 6) (o : BitVec 20) : Statement (.bgez a o) := of_scalar rfl (by have := a.isLt; have := o.isLt; simp only [formS]; omega)
theorem br (o : BitVec 20) : Statement (.br o) := of_scalar rfl (by have := o.isLt; omega)
theorem call (a : BitVec 6) (o : BitVec 20) : Statement (.call a o) := of_scalar rfl (by have := a.isLt; have := o.isLt; simp only [formS]; omega)
theorem jmpr (d : BitVec 6) (a : BitVec 6) (i : BitVec 14) : Statement (.jmpr d a i) := of_scalar rfl (by have := d.isLt; have := a.isLt; have := i.isLt; simp only [formI]; omega)
theorem lgo (o : BitVec 20) : Statement (.lgo o) := of_scalar rfl (by have := o.isLt; omega)
theorem ljoin : Statement (.ljoin) := of_scalar rfl (by  omega)
theorem mskLive : Statement (.mskLive) := of_scalar rfl (by  omega)
theorem mskN (n : BitVec 16) : Statement (.mskN n) := of_scalar rfl (by have := n.isLt; omega)
theorem exitScalar : Statement (.exitScalar) := of_scalar rfl (by  omega)
theorem yield : Statement (.yield) := of_scalar rfl (by  omega)
theorem ldScalar (d : BitVec 6) (a : BitVec 6) (w : BitVec 2) (x : BitVec 1) (l : BitVec 1) (q : BitVec 1) (c : BitVec 3) (f : BitVec 6) : Statement (.ldScalar d a w x l q c f) := of_scalar rfl (by have := d.isLt; have := a.isLt; have := w.isLt; have := x.isLt; have := l.isLt; have := q.isLt; have := c.isLt; have := f.isLt; simp only [formDA]; omega)
theorem stScalar (d : BitVec 6) (a : BitVec 6) (w : BitVec 2) (l : BitVec 1) (q : BitVec 1) (c : BitVec 3) (f : BitVec 6) : Statement (.stScalar d a w l q c f) := of_scalar rfl (by have := d.isLt; have := a.isLt; have := w.isLt; have := l.isLt; have := q.isLt; have := c.isLt; have := f.isLt; simp only [formDA]; omega)
theorem atomScalar (d : BitVec 6) (a : BitVec 6) (b : BitVec 6) (c : BitVec 3) (q : BitVec 2) (o : BitVec 3) : Statement (.atomScalar d a b c q o) := of_scalar rfl (by have := d.isLt; have := a.isLt; have := b.isLt; have := c.isLt; have := q.isLt; have := o.isLt; simp only [formR]; omega)
theorem casScalar (d : BitVec 6) (a : BitVec 6) (b : BitVec 6) (c : BitVec 3) (q : BitVec 2) (w : BitVec 1) : Statement (.casScalar d a b c q w) := of_scalar rfl (by have := d.isLt; have := a.isLt; have := b.isLt; have := c.isLt; have := q.isLt; have := w.isLt; simp only [formR]; omega)
theorem fence (t : BitVec 4) (c : BitVec 3) (m : BitVec 4) : Statement (.fence t c m) := of_scalar rfl (by have := t.isLt; have := c.isLt; have := m.isLt; omega)
theorem waitCounts (t : BitVec 4) (c : BitVec 4) (s : BitVec 4) (l : BitVec 4) : Statement (.waitCounts t c s l) := of_scalar rfl (by have := t.isLt; have := c.isLt; have := s.isLt; have := l.isLt; omega)
theorem waitln (d : BitVec 6) (a : BitVec 6) (i : BitVec 14) : Statement (.waitln d a i) := of_scalar rfl (by have := d.isLt; have := a.isLt; have := i.isLt; simp only [formI]; omega)
theorem waitlnV1 (d : BitVec 6) (a : BitVec 6) (i : BitVec 14) : Statement (.waitlnV1 d a i) := of_scalar rfl (by have := d.isLt; have := a.isLt; have := i.isLt; simp only [formI]; omega)
theorem pause (n : BitVec 16) : Statement (.pause n) := of_scalar rfl (by have := n.isLt; omega)
theorem pauseV1v2 (n : BitVec 16) : Statement (.pauseV1v2 n) := of_scalar rfl (by have := n.isLt; omega)
theorem cpy1d (d : BitVec 6) (a : BitVec 6) : Statement (.cpy1d d a) := of_scalar rfl (by have := d.isLt; have := a.isLt; simp only [formDA]; omega)
theorem cpy1dFt (d : BitVec 6) (a : BitVec 6) : Statement (.cpy1dFt d a) := of_scalar rfl (by have := d.isLt; have := a.isLt; simp only [formDA]; omega)
theorem cpy2d (d : BitVec 6) (a : BitVec 6) : Statement (.cpy2d d a) := of_scalar rfl (by have := d.isLt; have := a.isLt; simp only [formDA]; omega)
theorem cpyGather (d : BitVec 6) (a : BitVec 6) : Statement (.cpyGather d a) := of_scalar rfl (by have := d.isLt; have := a.isLt; simp only [formDA]; omega)
theorem cpySeal (d : BitVec 6) (a : BitVec 6) : Statement (.cpySeal d a) := of_scalar rfl (by have := d.isLt; have := a.isLt; simp only [formDA]; omega)
theorem cpyAon (d : BitVec 6) (a : BitVec 6) : Statement (.cpyAon d a) := of_scalar rfl (by have := d.isLt; have := a.isLt; simp only [formDA]; omega)
theorem cpyVer (d : BitVec 6) (a : BitVec 6) : Statement (.cpyVer d a) := of_scalar rfl (by have := d.isLt; have := a.isLt; simp only [formDA]; omega)
theorem cpyReplay (d : BitVec 6) (a : BitVec 6) : Statement (.cpyReplay d a) := of_scalar rfl (by have := d.isLt; have := a.isLt; simp only [formDA]; omega)
theorem collRadd (d : BitVec 6) (a : BitVec 6) (t : BitVec 3) : Statement (.collRadd d a t) := of_scalar rfl (by have := d.isLt; have := a.isLt; have := t.isLt; simp only [formDA]; omega)
theorem collBcast (d : BitVec 6) (a : BitVec 6) : Statement (.collBcast d a) := of_scalar rfl (by have := d.isLt; have := a.isLt; simp only [formDA]; omega)
theorem collAgath (d : BitVec 6) (a : BitVec 6) : Statement (.collAgath d a) := of_scalar rfl (by have := d.isLt; have := a.isLt; simp only [formDA]; omega)
theorem send (d : BitVec 6) (a : BitVec 6) (b : BitVec 6) (l : BitVec 8) : Statement (.send d a b l) := of_scalar rfl (by have := d.isLt; have := a.isLt; have := b.isLt; have := l.isLt; simp only [formR]; omega)
theorem recvpost (d : BitVec 6) (a : BitVec 6) (b : BitVec 6) : Statement (.recvpost d a b) := of_scalar rfl (by have := d.isLt; have := a.isLt; have := b.isLt; simp only [formR]; omega)
theorem recvtst (d : BitVec 6) (b : BitVec 6) : Statement (.recvtst d b) := of_scalar rfl (by have := d.isLt; have := b.isLt; omega)
theorem locSelf (d : BitVec 6) : Statement (.locSelf d) := of_scalar rfl (by have := d.isLt; simp only [formS]; omega)
theorem locHome (d : BitVec 6) (a : BitVec 6) : Statement (.locHome d a) := of_scalar rfl (by have := d.isLt; have := a.isLt; simp only [formDA]; omega)
theorem locBand (d : BitVec 6) (a : BitVec 6) : Statement (.locBand d a) := of_scalar rfl (by have := d.isLt; have := a.isLt; simp only [formDA]; omega)
theorem mma (d : BitVec 6) (a : BitVec 6) (b : BitVec 6) (k : BitVec 3) (z : BitVec 1) (p : BitVec 1) (t : BitVec 3) : Statement (.mma d a b k z p t) := of_scalar rfl (by have := d.isLt; have := a.isLt; have := b.isLt; have := k.isLt; have := z.isLt; have := p.isLt; have := t.isLt; simp only [formR]; omega)
theorem mlb (d : BitVec 6) (a : BitVec 6) (b : BitVec 6) (l : BitVec 1) (p : BitVec 1) : Statement (.mlb d a b l p) := of_scalar rfl (by have := d.isLt; have := a.isLt; have := b.isLt; have := l.isLt; have := p.isLt; simp only [formR]; omega)
theorem mdrain (d : BitVec 6) (a : BitVec 6) (b : BitVec 6) (z : BitVec 1) (i : BitVec 1) (p : BitVec 1) (t : BitVec 3) : Statement (.mdrain d a b z i p t) := of_scalar rfl (by have := d.isLt; have := a.isLt; have := b.isLt; have := z.isLt; have := i.isLt; have := p.isLt; have := t.isLt; simp only [formR]; omega)
theorem acccpySt (d : BitVec 6) (a : BitVec 6) (b : BitVec 6) (p : BitVec 1) (t : BitVec 3) : Statement (.acccpySt d a b p t) := of_scalar rfl (by have := d.isLt; have := a.isLt; have := b.isLt; have := p.isLt; have := t.isLt; simp only [formR]; omega)
theorem acccpyLd (d : BitVec 6) (a : BitVec 6) (b : BitVec 6) (p : BitVec 1) (t : BitVec 3) : Statement (.acccpyLd d a b p t) := of_scalar rfl (by have := d.isLt; have := a.isLt; have := b.isLt; have := p.isLt; have := t.isLt; simp only [formR]; omega)
theorem seminc (d : BitVec 6) (a : BitVec 6) (c : BitVec 3) : Statement (.seminc d a c) := of_scalar rfl (by have := d.isLt; have := a.isLt; have := c.isLt; simp only [formDA]; omega)
theorem semwait (d : BitVec 6) (a : BitVec 6) (c : BitVec 3) : Statement (.semwait d a c) := of_scalar rfl (by have := d.isLt; have := a.isLt; have := c.isLt; simp only [formDA]; omega)
theorem semtst (d : BitVec 6) (a : BitVec 6) (c : BitVec 3) : Statement (.semtst d a c) := of_scalar rfl (by have := d.isLt; have := a.isLt; have := c.isLt; simp only [formDA]; omega)
theorem bararr (b : BitVec 5) : Statement (.bararr b) := of_scalar rfl (by have := b.isLt; omega)
theorem barwait (d : BitVec 6) (b : BitVec 5) : Statement (.barwait d b) := of_scalar rfl (by have := d.isLt; have := b.isLt; simp only [formS]; omega)
theorem launch (d : BitVec 6) (a : BitVec 6) : Statement (.launch d a) := of_scalar rfl (by have := d.isLt; have := a.isLt; simp only [formDA]; omega)
theorem spawn (a : BitVec 6) (b : BitVec 6) : Statement (.spawn a b) := of_scalar rfl (by have := a.isLt; have := b.isLt; omega)
theorem joinc : Statement (.joinc) := of_scalar rfl (by  omega)
theorem xacq (w : BitVec 4) : Statement (.xacq w) := of_scalar rfl (by have := w.isLt; omega)
theorem xrel (w : BitVec 4) : Statement (.xrel w) := of_scalar rfl (by have := w.isLt; omega)
theorem schussOff : Statement (.schussOff) := of_scalar rfl (by  omega)
theorem schussOn : Statement (.schussOn) := of_scalar rfl (by  omega)
theorem schussBud (n : BitVec 16) : Statement (.schussBud n) := of_scalar rfl (by have := n.isLt; omega)
theorem schussOffV2 : Statement (.schussOffV2) := of_scalar rfl (by  omega)
theorem schussOnV2 : Statement (.schussOnV2) := of_scalar rfl (by  omega)
theorem schussBudV2 (n : BitVec 16) : Statement (.schussBudV2 n) := of_scalar rfl (by have := n.isLt; omega)
theorem sysrd (d : BitVec 6) (n : BitVec 12) : Statement (.sysrd d n) := of_scalar rfl (by have := d.isLt; have := n.isLt; omega)
theorem syswr (d : BitVec 6) (n : BitVec 12) : Statement (.syswr d n) := of_scalar rfl (by have := d.isLt; have := n.isLt; omega)
theorem trap (n : BitVec 12) : Statement (.trap n) := of_scalar rfl (by have := n.isLt; omega)
theorem tret : Statement (.tret) := of_scalar rfl (by  omega)
theorem dclk (d : BitVec 6) : Statement (.dclk d) := of_scalar rfl (by have := d.isLt; simp only [formS]; omega)
theorem brk (n : BitVec 12) : Statement (.brk n) := of_scalar rfl (by have := n.isLt; omega)
theorem nopScalar (x : BitVec 6) (y : BitVec 14) : Statement (.nopScalar x y) := of_scalar rfl (by have := x.isLt; have := y.isLt; omega)
theorem prefL1 (a : BitVec 6) (i : BitVec 14) : Statement (.prefL1 a i) := of_scalar rfl (by have := a.isLt; have := i.isLt; omega)
theorem prefSl (a : BitVec 6) (i : BitVec 14) : Statement (.prefSl a i) := of_scalar rfl (by have := a.isLt; have := i.isLt; omega)
theorem prefTr (a : BitVec 6) (i : BitVec 14) : Statement (.prefTr a i) := of_scalar rfl (by have := a.isLt; have := i.isLt; omega)
theorem shintSkip (x : BitVec 6) (y : BitVec 14) : Statement (.shintSkip x y) := of_scalar rfl (by have := x.isLt; have := y.isLt; omega)
theorem nopLane (w : LaneWord) : Statement (.nopLane w) := of_lane rfl rfl (long_lt _ (by decide) w)
theorem mov (w : LaneWord) : Statement (.mov w) := of_lane rfl rfl (long_lt _ (by decide) w)
theorem tidx (w : LaneWord) : Statement (.tidx w) := of_lane rfl rfl (long_lt _ (by decide) w)
theorem addI32 (w : LaneWord) : Statement (.addI32 w) := of_lane rfl rfl (long_lt _ (by decide) w)
theorem subI32 (w : LaneWord) : Statement (.subI32 w) := of_lane rfl rfl (long_lt _ (by decide) w)
theorem mulI32 (w : LaneWord) : Statement (.mulI32 w) := of_lane rfl rfl (long_lt _ (by decide) w)
theorem mulhS32 (w : LaneWord) : Statement (.mulhS32 w) := of_lane rfl rfl (long_lt _ (by decide) w)
theorem mulhZ32 (w : LaneWord) : Statement (.mulhZ32 w) := of_lane rfl rfl (long_lt _ (by decide) w)
theorem minS32 (w : LaneWord) : Statement (.minS32 w) := of_lane rfl rfl (long_lt _ (by decide) w)
theorem minZ32 (w : LaneWord) : Statement (.minZ32 w) := of_lane rfl rfl (long_lt _ (by decide) w)
theorem maxS32 (w : LaneWord) : Statement (.maxS32 w) := of_lane rfl rfl (long_lt _ (by decide) w)
theorem maxZ32 (w : LaneWord) : Statement (.maxZ32 w) := of_lane rfl rfl (long_lt _ (by decide) w)
theorem absS32 (w : LaneWord) : Statement (.absS32 w) := of_lane rfl rfl (long_lt _ (by decide) w)
theorem negS32 (w : LaneWord) : Statement (.negS32 w) := of_lane rfl rfl (long_lt _ (by decide) w)
theorem andB32 (w : LaneWord) : Statement (.andB32 w) := of_lane rfl rfl (long_lt _ (by decide) w)
theorem orB32 (w : LaneWord) : Statement (.orB32 w) := of_lane rfl rfl (long_lt _ (by decide) w)
theorem xorB32 (w : LaneWord) : Statement (.xorB32 w) := of_lane rfl rfl (long_lt _ (by decide) w)
theorem andnB32 (w : LaneWord) : Statement (.andnB32 w) := of_lane rfl rfl (long_lt _ (by decide) w)
theorem notB32 (w : LaneWord) : Statement (.notB32 w) := of_lane rfl rfl (long_lt _ (by decide) w)
theorem shlB32 (w : LaneWord) : Statement (.shlB32 w) := of_lane rfl rfl (long_lt _ (by decide) w)
theorem shrZ32 (w : LaneWord) : Statement (.shrZ32 w) := of_lane rfl rfl (long_lt _ (by decide) w)
theorem shrS32 (w : LaneWord) : Statement (.shrS32 w) := of_lane rfl rfl (long_lt _ (by decide) w)
theorem popcB32 (w : LaneWord) : Statement (.popcB32 w) := of_lane rfl rfl (long_lt _ (by decide) w)
theorem clzB32 (w : LaneWord) : Statement (.clzB32 w) := of_lane rfl rfl (long_lt _ (by decide) w)
theorem brevB32 (w : LaneWord) : Statement (.brevB32 w) := of_lane rfl rfl (long_lt _ (by decide) w)
theorem cmpEqI32 (w : LaneWord) : Statement (.cmpEqI32 w) := of_lane rfl rfl (long_lt _ (by decide) w)
theorem cmpNeI32 (w : LaneWord) : Statement (.cmpNeI32 w) := of_lane rfl rfl (long_lt _ (by decide) w)
theorem cmpLtS32 (w : LaneWord) : Statement (.cmpLtS32 w) := of_lane rfl rfl (long_lt _ (by decide) w)
theorem cmpLeS32 (w : LaneWord) : Statement (.cmpLeS32 w) := of_lane rfl rfl (long_lt _ (by decide) w)
theorem cmpLtZ32 (w : LaneWord) : Statement (.cmpLtZ32 w) := of_lane rfl rfl (long_lt _ (by decide) w)
theorem cmpLeZ32 (w : LaneWord) : Statement (.cmpLeZ32 w) := of_lane rfl rfl (long_lt _ (by decide) w)
theorem addF32 (w : LaneWord) : Statement (.addF32 w) := of_lane rfl rfl (long_lt _ (by decide) w)
theorem subF32 (w : LaneWord) : Statement (.subF32 w) := of_lane rfl rfl (long_lt _ (by decide) w)
theorem mulF32 (w : LaneWord) : Statement (.mulF32 w) := of_lane rfl rfl (long_lt _ (by decide) w)
theorem minF32 (w : LaneWord) : Statement (.minF32 w) := of_lane rfl rfl (long_lt _ (by decide) w)
theorem maxF32 (w : LaneWord) : Statement (.maxF32 w) := of_lane rfl rfl (long_lt _ (by decide) w)
theorem cmpEqF32 (w : LaneWord) : Statement (.cmpEqF32 w) := of_lane rfl rfl (long_lt _ (by decide) w)
theorem cmpLtF32 (w : LaneWord) : Statement (.cmpLtF32 w) := of_lane rfl rfl (long_lt _ (by decide) w)
theorem cmpLeF32 (w : LaneWord) : Statement (.cmpLeF32 w) := of_lane rfl rfl (long_lt _ (by decide) w)
theorem addF16x2 (w : LaneWord) : Statement (.addF16x2 w) := of_lane rfl rfl (long_lt _ (by decide) w)
theorem subF16x2 (w : LaneWord) : Statement (.subF16x2 w) := of_lane rfl rfl (long_lt _ (by decide) w)
theorem mulF16x2 (w : LaneWord) : Statement (.mulF16x2 w) := of_lane rfl rfl (long_lt _ (by decide) w)
theorem minF16x2 (w : LaneWord) : Statement (.minF16x2 w) := of_lane rfl rfl (long_lt _ (by decide) w)
theorem maxF16x2 (w : LaneWord) : Statement (.maxF16x2 w) := of_lane rfl rfl (long_lt _ (by decide) w)
theorem addBf16x2 (w : LaneWord) : Statement (.addBf16x2 w) := of_lane rfl rfl (long_lt _ (by decide) w)
theorem subBf16x2 (w : LaneWord) : Statement (.subBf16x2 w) := of_lane rfl rfl (long_lt _ (by decide) w)
theorem mulBf16x2 (w : LaneWord) : Statement (.mulBf16x2 w) := of_lane rfl rfl (long_lt _ (by decide) w)
theorem minBf16x2 (w : LaneWord) : Statement (.minBf16x2 w) := of_lane rfl rfl (long_lt _ (by decide) w)
theorem maxBf16x2 (w : LaneWord) : Statement (.maxBf16x2 w) := of_lane rfl rfl (long_lt _ (by decide) w)
theorem classF32 (w : LaneWord) : Statement (.classF32 w) := of_lane rfl rfl (long_lt _ (by decide) w)
theorem rcpF32 (w : LaneWord) : Statement (.rcpF32 w) := of_lane rfl rfl (long_lt _ (by decide) w)
theorem rsqF32 (w : LaneWord) : Statement (.rsqF32 w) := of_lane rfl rfl (long_lt _ (by decide) w)
theorem sqrtF32 (w : LaneWord) : Statement (.sqrtF32 w) := of_lane rfl rfl (long_lt _ (by decide) w)
theorem ex2F32 (w : LaneWord) : Statement (.ex2F32 w) := of_lane rfl rfl (long_lt _ (by decide) w)
theorem lg2F32 (w : LaneWord) : Statement (.lg2F32 w) := of_lane rfl rfl (long_lt _ (by decide) w)
theorem sinF32 (w : LaneWord) : Statement (.sinF32 w) := of_lane rfl rfl (long_lt _ (by decide) w)
theorem cosF32 (w : LaneWord) : Statement (.cosF32 w) := of_lane rfl rfl (long_lt _ (by decide) w)
theorem tanhF32 (w : LaneWord) : Statement (.tanhF32 w) := of_lane rfl rfl (long_lt _ (by decide) w)
theorem cvtF32S32 (w : LaneWord) : Statement (.cvtF32S32 w) := of_lane rfl rfl (long_lt _ (by decide) w)
theorem cvtS32F32 (w : LaneWord) : Statement (.cvtS32F32 w) := of_lane rfl rfl (long_lt _ (by decide) w)
theorem cvtF32Z32 (w : LaneWord) : Statement (.cvtF32Z32 w) := of_lane rfl rfl (long_lt _ (by decide) w)
theorem cvtZ32F32 (w : LaneWord) : Statement (.cvtZ32F32 w) := of_lane rfl rfl (long_lt _ (by decide) w)
theorem cvtF16x2F32 (w : LaneWord) : Statement (.cvtF16x2F32 w) := of_lane rfl rfl (long_lt _ (by decide) w)
theorem cvtBf16x2F32 (w : LaneWord) : Statement (.cvtBf16x2F32 w) := of_lane rfl rfl (long_lt _ (by decide) w)
theorem pand (w : LaneWord) : Statement (.pand w) := of_lane rfl rfl (long_lt _ (by decide) w)
theorem por (w : LaneWord) : Statement (.por w) := of_lane rfl rfl (long_lt _ (by decide) w)
theorem pxor (w : LaneWord) : Statement (.pxor w) := of_lane rfl rfl (long_lt _ (by decide) w)
theorem pandn (w : LaneWord) : Statement (.pandn w) := of_lane rfl rfl (long_lt _ (by decide) w)
theorem madI32 (w : LaneWord) : Statement (.madI32 w) := of_lane rfl rfl (long_lt _ (by decide) w)
theorem mulhMadS32 (w : LaneWord) : Statement (.mulhMadS32 w) := of_lane rfl rfl (long_lt _ (by decide) w)
theorem fshRB32 (w : LaneWord) : Statement (.fshRB32 w) := of_lane rfl rfl (long_lt _ (by decide) w)
theorem fshLB32 (w : LaneWord) : Statement (.fshLB32 w) := of_lane rfl rfl (long_lt _ (by decide) w)
theorem bfeZ32 (w : LaneWord) : Statement (.bfeZ32 w) := of_lane rfl rfl (long_lt _ (by decide) w)
theorem bfeS32 (w : LaneWord) : Statement (.bfeS32 w) := of_lane rfl rfl (long_lt _ (by decide) w)
theorem bfiB32 (w : LaneWord) : Statement (.bfiB32 w) := of_lane rfl rfl (long_lt _ (by decide) w)
theorem selB32 (w : LaneWord) : Statement (.selB32 w) := of_lane rfl rfl (long_lt _ (by decide) w)
theorem dot4S8 (w : LaneWord) : Statement (.dot4S8 w) := of_lane rfl rfl (long_lt _ (by decide) w)
theorem dot4Z8 (w : LaneWord) : Statement (.dot4Z8 w) := of_lane rfl rfl (long_lt _ (by decide) w)
theorem dot2S16 (w : LaneWord) : Statement (.dot2S16 w) := of_lane rfl rfl (long_lt _ (by decide) w)
theorem dot2Z16 (w : LaneWord) : Statement (.dot2Z16 w) := of_lane rfl rfl (long_lt _ (by decide) w)
theorem cmpI32 (w : LaneWord) : Statement (.cmpI32 w) := of_lane rfl rfl (long_lt _ (by decide) w)
theorem fmaF32 (w : LaneWord) : Statement (.fmaF32 w) := of_lane rfl rfl (long_lt _ (by decide) w)
theorem cmpF32 (w : LaneWord) : Statement (.cmpF32 w) := of_lane rfl rfl (long_lt _ (by decide) w)
theorem rndF32 (w : LaneWord) : Statement (.rndF32 w) := of_lane rfl rfl (long_lt _ (by decide) w)
theorem fmaF16x2 (w : LaneWord) : Statement (.fmaF16x2 w) := of_lane rfl rfl (long_lt _ (by decide) w)
theorem fmaBf16x2 (w : LaneWord) : Statement (.fmaBf16x2 w) := of_lane rfl rfl (long_lt _ (by decide) w)
theorem cmpF16x2 (w : LaneWord) : Statement (.cmpF16x2 w) := of_lane rfl rfl (long_lt _ (by decide) w)
theorem cmpBf16x2 (w : LaneWord) : Statement (.cmpBf16x2 w) := of_lane rfl rfl (long_lt _ (by decide) w)
theorem rndF16x2 (w : LaneWord) : Statement (.rndF16x2 w) := of_lane rfl rfl (long_lt _ (by decide) w)
theorem rndBf16x2 (w : LaneWord) : Statement (.rndBf16x2 w) := of_lane rfl rfl (long_lt _ (by decide) w)
theorem cvt (w : LaneWord) : Statement (.cvt w) := of_lane rfl rfl (long_lt _ (by decide) w)
theorem qpack (w : LaneWord) : Statement (.qpack w) := of_lane rfl rfl (long_lt _ (by decide) w)
theorem qpackScale (w : LaneWord) : Statement (.qpackScale w) := of_lane rfl rfl (long_lt _ (by decide) w)
theorem qunpkF32 (w : LaneWord) : Statement (.qunpkF32 w) := of_lane rfl rfl (long_lt _ (by decide) w)
theorem voteAny (w : LaneWord) : Statement (.voteAny w) := of_lane rfl rfl (long_lt _ (by decide) w)
theorem voteAll (w : LaneWord) : Statement (.voteAll w) := of_lane rfl rfl (long_lt _ (by decide) w)
theorem ballot (w : LaneWord) : Statement (.ballot w) := of_lane rfl rfl (long_lt _ (by decide) w)
theorem firstThread (w : LaneWord) : Statement (.firstThread w) := of_lane rfl rfl (long_lt _ (by decide) w)
theorem smpl (w : LaneWord) : Statement (.smpl w) := of_lane rfl rfl (long_lt _ (by decide) w)
theorem randB32 (w : LaneWord) : Statement (.randB32 w) := of_lane rfl rfl (long_lt _ (by decide) w)
theorem randCoF32 (w : LaneWord) : Statement (.randCoF32 w) := of_lane rfl rfl (long_lt _ (by decide) w)
theorem randOcF32 (w : LaneWord) : Statement (.randOcF32 w) := of_lane rfl rfl (long_lt _ (by decide) w)
theorem randV1v2 (w : LaneWord) : Statement (.randV1v2 w) := of_lane rfl rfl (long_lt _ (by decide) w)
theorem ldLane (w : LaneWord) : Statement (.ldLane w) := of_lane rfl rfl (long_lt _ (by decide) w)
theorem ldVer (w : LaneWord) : Statement (.ldVer w) := of_lane rfl rfl (long_lt _ (by decide) w)
theorem stLane (w : LaneWord) : Statement (.stLane w) := of_lane rfl rfl (long_lt _ (by decide) w)
theorem atomLane (w : LaneWord) : Statement (.atomLane w) := of_lane rfl rfl (long_lt _ (by decide) w)
theorem casLane (w : LaneWord) : Statement (.casLane w) := of_lane rfl rfl (long_lt _ (by decide) w)
theorem ll (w : LaneWord) : Statement (.ll w) := of_lane rfl rfl (long_lt _ (by decide) w)
theorem sc (w : LaneWord) : Statement (.sc w) := of_lane rfl rfl (long_lt _ (by decide) w)
theorem bra (w : LaneWord) : Statement (.bra w) := of_lane rfl rfl (long_lt _ (by decide) w)
theorem brx (w : LaneWord) : Statement (.brx w) := of_lane rfl rfl (long_lt _ (by decide) w)
theorem lend (w : LaneWord) : Statement (.lend w) := of_lane rfl rfl (long_lt _ (by decide) w)
theorem exitLane (w : LaneWord) : Statement (.exitLane w) := of_lane rfl rfl (long_lt _ (by decide) w)
theorem prefL1Lane (w : LaneWord) : Statement (.prefL1Lane w) := of_lane rfl rfl (long_lt _ (by decide) w)
theorem prefSlLane (w : LaneWord) : Statement (.prefSlLane w) := of_lane rfl rfl (long_lt _ (by decide) w)
theorem prefTrLane (w : LaneWord) : Statement (.prefTrLane w) := of_lane rfl rfl (long_lt _ (by decide) w)
theorem shintSkipLane (w : LaneWord) : Statement (.shintSkipLane w) := of_lane rfl rfl (long_lt _ (by decide) w)
theorem lanePairedWord (a : ShortOp) (b : ShortOp) : Statement (.lanePairedWord a b) := of_lane rfl rfl (by have := slot_lt a; have := slot_lt b; omega)
theorem unassignedLaneHint (op : BitVec 10) (w : LaneWord) : Statement (.unassignedLaneHint op w) := of_lane rfl rfl (long_lt _ op.isLt w)
theorem issueSelect (core : Nat) (lane : Bool) : Statement (.issueSelect core lane) := of_none rfl rfl
theorem grantWindow (core : Nat) : Statement (.grantWindow core) := of_none rfl rfl
theorem issueBoost (core : Nat) (group : Nat) : Statement (.issueBoost core group) := of_none rfl rfl
theorem pathSwitch (core : Nat) (group : Nat) : Statement (.pathSwitch core group) := of_none rfl rfl
theorem pauseExpiry (core : Nat) (group : Nat) : Statement (.pauseExpiry core group) := of_none rfl rfl
theorem waitlnTimeout (core : Nat) (group : Nat) : Statement (.waitlnTimeout core group) := of_none rfl rfl
theorem loadValueReturn (core : Nat) (op : Nat) : Statement (.loadValueReturn core op) := of_none rfl rfl
theorem loadJudgedLong (core : Nat) (op : Nat) : Statement (.loadJudgedLong core op) := of_none rfl rfl
theorem schussEntry (core : Nat) (group : Nat) (lane : Bool) : Statement (.schussEntry core group lane) := of_none rfl rfl
theorem schussBudgetExpiry (core : Nat) (group : Nat) : Statement (.schussBudgetExpiry core group) := of_none rfl rfl
theorem asyncUncorrectableDelivery (core : Nat) (group : Nat) : Statement (.asyncUncorrectableDelivery core group) := of_none rfl rfl
theorem spawnTimerExpiry (core : Nat) (bin : Nat) : Statement (.spawnTimerExpiry core bin) := of_none rfl rfl
theorem spawnBinLaunch (core : Nat) (bin : Nat) : Statement (.spawnBinLaunch core bin) := of_none rfl rfl
theorem teamPlacement (part : Nat) (grid : Nat) (team : Nat) (core : Nat) : Statement (.teamPlacement part grid team core) := of_none rfl rfl
theorem teamRetirement (core : Nat) : Statement (.teamRetirement core) := of_none rfl rfl
theorem gridLeasingComplete (part : Nat) (grid : Nat) : Statement (.gridLeasingComplete part grid) := of_none rfl rfl
theorem gridRetirement (part : Nat) (grid : Nat) : Statement (.gridRetirement part grid) := of_none rfl rfl
theorem matrixCommandStart (core : Nat) : Statement (.matrixCommandStart core) := of_none rfl rfl
theorem matrixCommandComplete (core : Nat) (units : Nat) : Statement (.matrixCommandComplete core units) := of_none rfl rfl
theorem copyComplete (core : Nat) (copy : Nat) (units : Nat) : Statement (.copyComplete core copy units) := of_none rfl rfl
theorem faultRecordWritten (part : Nat) : Statement (.faultRecordWritten part) := of_none rfl rfl
theorem collectiveMeet (part : Nat) (coll : Nat) : Statement (.collectiveMeet part coll) := of_none rfl rfl
theorem messageArrival (idx : Nat) : Statement (.messageArrival idx) := of_none rfl rfl
theorem messageRetry (idx : Nat) : Statement (.messageRetry idx) := of_none rfl rfl
theorem messageDrop (idx : Nat) : Statement (.messageDrop idx) := of_none rfl rfl
theorem semaphoreIncrement (idx : Nat) : Statement (.semaphoreIncrement idx) := of_none rfl rfl
theorem semwaitListRetry (core : Nat) (group : Nat) : Statement (.semwaitListRetry core group) := of_none rfl rfl
theorem noonRelease (part : Nat) (ctx : Nat) : Statement (.noonRelease part ctx) := of_none rfl rfl
theorem routerHomeBoundRead (idx : Nat) : Statement (.routerHomeBoundRead idx) := of_none rfl rfl
theorem routerSteeredRead (idx : Nat) : Statement (.routerSteeredRead idx) := of_none rfl rfl
theorem routerReadReply (idx : Nat) : Statement (.routerReadReply idx) := of_none rfl rfl
theorem routerWriteRequest (idx : Nat) : Statement (.routerWriteRequest idx) := of_none rfl rfl
theorem routerUpgrade (idx : Nat) : Statement (.routerUpgrade idx) := of_none rfl rfl
theorem routerInvalidation (idx : Nat) : Statement (.routerInvalidation idx) := of_none rfl rfl
theorem routerCut (idx : Nat) : Statement (.routerCut idx) := of_none rfl rfl
theorem routerAck (idx : Nat) : Statement (.routerAck idx) := of_none rfl rfl
theorem routerDataAck (idx : Nat) : Statement (.routerDataAck idx) := of_none rfl rfl
theorem routerPrune (idx : Nat) : Statement (.routerPrune idx) := of_none rfl rfl
theorem routerGrant (idx : Nat) : Statement (.routerGrant idx) := of_none rfl rfl
theorem anchorWriteBack (idx : Nat) : Statement (.anchorWriteBack idx) := of_none rfl rfl
theorem anchorAtomic (line : Nat) : Statement (.anchorAtomic line) := of_none rfl rfl
theorem l1SteeredRead (idx : Nat) : Statement (.l1SteeredRead idx) := of_none rfl rfl
theorem l1Invalidation (idx : Nat) : Statement (.l1Invalidation idx) := of_none rfl rfl
theorem requesterFill (idx : Nat) : Statement (.requesterFill idx) := of_none rfl rfl
theorem writerGrant (idx : Nat) : Statement (.writerGrant idx) := of_none rfl rfl
theorem endToEndRetransmission (idx : Nat) : Statement (.endToEndRetransmission idx) := of_none rfl rfl
theorem hostCxlMemRead (port : Nat) (hpa : Nat) (size : Nat) : Statement (.hostCxlMemRead port hpa size) := of_none rfl rfl
theorem hostCxlMemWrite (port : Nat) (hpa : Nat) (bytes : List Byte) : Statement (.hostCxlMemWrite port hpa bytes) := of_none rfl rfl
theorem hostSnoop (line : Nat) : Statement (.hostSnoop line) := of_none rfl rfl
theorem hostLineResponse (line : Nat) (data : Option Line) : Statement (.hostLineResponse line data) := of_none rfl rfl
theorem remotePanelRequest (part : Nat) (link : Nat) (tile : Nat) (excl : Bool) : Statement (.remotePanelRequest part link tile excl) := of_none rfl rfl
theorem remotePanelRecall (part : Nat) (tile : Nat) : Statement (.remotePanelRecall part tile) := of_none rfl rfl
theorem remoteTileResponse (part : Nat) (tile : Nat) (excl : Bool) (lines : List Line) : Statement (.remoteTileResponse part tile excl lines) := of_none rfl rfl
theorem translationWalkComplete (idx : Nat) : Statement (.translationWalkComplete idx) := of_none rfl rfl
theorem translationInvalidation (part : Nat) (pasid : Nat) (va : Nat) (len : Nat) : Statement (.translationInvalidation part pasid va len) := of_none rfl rfl
theorem shootdown (part : Nat) (shot : Nat) (core : Nat) : Statement (.shootdown part shot core) := of_none rfl rfl
theorem shootdownAck (part : Nat) (shot : Nat) (core : Nat) : Statement (.shootdownAck part shot core) := of_none rfl rfl
theorem migrate (part : Nat) (pasid : Nat) (va : Nat) (hpa : Nat) : Statement (.migrate part pasid va hpa) := of_none rfl rfl
theorem migrationBackgroundPull (part : Nat) (mig : Nat) : Statement (.migrationBackgroundPull part mig) := of_none rfl rfl
theorem revoke (part : Nat) (pasid : Nat) (va : Nat) (len : Nat) : Statement (.revoke part pasid va len) := of_none rfl rfl
theorem regrant (part : Nat) (pasid : Nat) (va : Nat) (len : Nat) : Statement (.regrant part pasid va len) := of_none rfl rfl
theorem leaseServiced (part : Nat) (grid : Nat) (page : Nat) : Statement (.leaseServiced part grid page) := of_none rfl rfl
theorem leaseUnserviceable (part : Nat) (grid : Nat) (page : Nat) : Statement (.leaseUnserviceable part grid page) := of_none rfl rfl
theorem mgmtLaunch (part : Nat) (region : Nat) (pasid : Nat) (lpb : Nat) : Statement (.mgmtLaunch part region pasid lpb) := of_none rfl rfl
theorem poolMove (die : Nat) (cls : Nat) : Statement (.poolMove die cls) := of_none rfl rfl
theorem hopStopBegin (die : Nat) : Statement (.hopStopBegin die) := of_none rfl rfl
theorem hopStopEnd (die : Nat) : Statement (.hopStopEnd die) := of_none rfl rfl
theorem hopRetry (die : Nat) : Statement (.hopRetry die) := of_none rfl rfl
theorem stepBoundary (region : Nat) : Statement (.stepBoundary region) := of_none rfl rfl
theorem droopDetect (region : Nat) : Statement (.droopDetect region) := of_none rfl rfl
theorem droopClear (region : Nat) : Statement (.droopClear region) := of_none rfl rfl
theorem thermalSample (temps : SMap Byte) : Statement (.thermalSample temps) := of_none rfl rfl
theorem preempt (part : Nat) (grid : Nat) (team : Option Nat) : Statement (.preempt part grid team) := of_none rfl rfl
theorem preemptComplete (part : Nat) (grid : Nat) (team : Nat) : Statement (.preemptComplete part grid team) := of_none rfl rfl
theorem restore (part : Nat) (grid : Nat) (team : Nat) (core : Option Nat) : Statement (.restore part grid team core) := of_none rfl rfl
theorem selfTestStart (unit : UnitId) (kind : ErrorKind) (bad : List BadWord) : Statement (.selfTestStart unit kind bad) := of_none rfl rfl
theorem selfTestComplete (unit : UnitId) (result : TestResult) : Statement (.selfTestComplete unit result) := of_none rfl rfl
theorem linkCrcRetry (idx : Nat) : Statement (.linkCrcRetry idx) := of_none rfl rfl
theorem dieReset (die : Nat) : Statement (.dieReset die) := of_none rfl rfl
theorem dieResetForce (die : Nat) : Statement (.dieResetForce die) := of_none rfl rfl
theorem deviceStart (report : StartReport) : Statement (.deviceStart report) := of_none rfl rfl
theorem partitionEnable (part : Nat) (v : BitVec 64) : Statement (.partitionEnable part v) := of_none rfl rfl
theorem partitionDisable (part : Nat) : Statement (.partitionDisable part) := of_none rfl rfl
theorem scrubComplete (part : Nat) : Statement (.scrubComplete part) := of_none rfl rfl
theorem partedgeWrite (part : Nat) (v : BitVec 64) : Statement (.partedgeWrite part v) := of_none rfl rfl
theorem panapWrite (part : Nat) (k : Nat) (v : BitVec 64) : Statement (.panapWrite part k v) := of_none rfl rfl
theorem pcwaysWrite (site : Nat) (v : BitVec 64) : Statement (.pcwaysWrite site v) := of_none rfl rfl
theorem pcvalWrite (site : Nat) (v : BitVec 32) : Statement (.pcvalWrite site v) := of_none rfl rfl
theorem nbctlArm (part : Nat) (ctx : Nat) (v : BitVec 32) : Statement (.nbctlArm part ctx v) := of_none rfl rfl
theorem fqcfgWrite (part : Nat) (v : BitVec 64) : Statement (.fqcfgWrite part v) := of_none rfl rfl
theorem fqheadWrite (part : Nat) (v : BitVec 32) : Statement (.fqheadWrite part v) := of_none rfl rfl
theorem cfgrantGo (part : Nat) (v : BitVec 64) : Statement (.cfgrantGo part v) := of_none rfl rfl
theorem featenWrite (v : BitVec 256) : Statement (.featenWrite v) := of_none rfl rfl
theorem curfewStop (part : Nat) : Statement (.curfewStop part) := of_none rfl rfl
theorem watchpointReport (part : Nat) (wp : Nat) (write : Bool) (cls : Nat) (region : Nat) : Statement (.watchpointReport part wp write cls region) := of_none rfl rfl
theorem mgmtRegisterWrite (reg : MgmtReg) (v : BitVec 64) : Statement (.mgmtRegisterWrite reg v) := of_none rfl rfl
theorem getVersion (port : Nat) : Statement (.getVersion port) := of_none rfl rfl
theorem getCapabilities (port : Nat) : Statement (.getCapabilities port) := of_none rfl rfl
theorem negotiateAlgorithms (port : Nat) (offer : SpdmOffer) : Statement (.negotiateAlgorithms port offer) := of_none rfl rfl
theorem getDigests (port : Nat) : Statement (.getDigests port) := of_none rfl rfl
theorem getCertificate (port : Nat) (slot : Nat) : Statement (.getCertificate port slot) := of_none rfl rfl
theorem challenge (port : Nat) (nonce : List Byte) : Statement (.challenge port nonce) := of_none rfl rfl
theorem getMeasurements (port : Nat) (index : Nat) (nonce : List Byte) (sign : Bool) : Statement (.getMeasurements port index nonce sign) := of_none rfl rfl
theorem keyExchange (port : Nat) (share : List Byte) : Statement (.keyExchange port share) := of_none rfl rfl
theorem finishSession (session : Nat) (ok : Bool) : Statement (.finishSession session ok) := of_none rfl rfl
theorem heartbeat (session : Nat) : Statement (.heartbeat session) := of_none rfl rfl
theorem keyUpdate (session : Nat) : Statement (.keyUpdate session) := of_none rfl rfl
theorem endSession (session : Nat) : Statement (.endSession session) := of_none rfl rfl
theorem bindSession (session : Nat) (part : Nat) : Statement (.bindSession session part) := of_none rfl rfl
theorem keyset (session : Nat) (slot : Nat) (key : BitVec 256) : Statement (.keyset session slot key) := of_none rfl rfl
theorem keyclr (session : Nat) (slot : Nat) : Statement (.keyclr session slot) := of_none rfl rfl
theorem illegalInstruction (lane : Bool) (slot : Nat) : Statement (.illegalInstruction lane slot) := of_none rfl rfl
theorem taskEnd (part : Nat) (grid : Nat) : Statement (.taskEnd part grid) := of_none rfl rfl
theorem copyAccessFault (core : Nat) (copy : Nat) : Statement (.copyAccessFault core copy) := of_none rfl rfl
theorem partfarWrite (part : Nat) (v : BitVec 64) : Statement (.partfarWrite part v) := of_none rfl rfl
theorem ctxareaWrite (part : Nat) (v : BitVec 64) : Statement (.ctxareaWrite part v) := of_none rfl rfl

end Sys2Proof.Laws.EncodeFits
end

