-- ==== Sys2Proof/Laws/Tables.lean ====
section
/-! SUPPORT. What reading a table or memory gives after a write, and that every memory operation keeps the canonical form. -/

namespace Sys2Proof.Machine

open Sys2Proof

/-! ## Tables -/

@[simp] theorem mget_mput_self {α : Type} (d v : α) (m : SMap α) (k : Nat) : mget d (mput m k v) k = v := by
  induction m with
  | nil => simp [mput, mget]
  | cons p r ih =>
    obtain ⟨a, b⟩ := p
    simp only [mput]
    split
    · simp [mget]
    · split
      · simp [mget]
      · next h => simp [mget, Ne.symm h, ih]

theorem mget_mput_other {α : Type} (d v : α) (m : SMap α) {k j : Nat} (h : j ≠ k) :
    mget d (mput m k v) j = mget d m j := by
  induction m with
  | nil => simp [mput, mget, Ne.symm h]
  | cons p r ih =>
    obtain ⟨a, b⟩ := p
    simp only [mput]
    split
    · simp [mget, Ne.symm h]
    · split
      · next h' => subst h'; simp [mget, Ne.symm h]
      · simp [mget, ih]

@[simp] theorem mget?_mput_self {α : Type} (v : α) (m : SMap α) (k : Nat) : mget? (mput m k v) k = some v := by
  induction m with
  | nil => simp [mput, mget?]
  | cons p r ih =>
    obtain ⟨a, b⟩ := p
    simp only [mput]
    split
    · simp [mget?]
    · split
      · simp [mget?]
      · next h => simp [mget?, Ne.symm h, ih]

theorem mget?_mput_other {α : Type} (v : α) (m : SMap α) {k j : Nat} (h : j ≠ k) :
    mget? (mput m k v) j = mget? m j := by
  induction m with
  | nil => simp [mput, mget?, Ne.symm h]
  | cons p r ih =>
    obtain ⟨a, b⟩ := p
    simp only [mput]
    split
    · simp [mget?, Ne.symm h]
    · split
      · next h' => subst h'; simp [mget?, Ne.symm h]
      · simp [mget?, ih]

theorem mget_mdel_other {α : Type} (d : α) (m : SMap α) {k j : Nat} (h : j ≠ k) : mget d (mdel m k) j = mget d m j := by
  induction m with
  | nil => rfl
  | cons p r ih =>
    obtain ⟨a, b⟩ := p
    simp only [mdel]
    split
    · next h' => subst h'; simp [mget, Ne.symm h]
    · simp [mget, ih]

theorem mget?_mmap {α β : Type} (f : α → β) (m : SMap α) (k : Nat) : mget? (mmap f m) k = (mget? m k).map f := by
  induction m with
  | nil => rfl
  | cons p r ih =>
    obtain ⟨a, b⟩ := p
    simp only [mmap, List.map_cons, mget?]
    split
    · rfl
    · exact ih

/-! ## The canonical form of memory -/

/-- `x` lies above the bound. -/
def aboveLo (lo : Option Nat) (x : Nat) : Prop := ∀ l, lo = some l → l < x

theorem cellsWf_cons (lo : Option Nat) (a : Nat) (b : Byte) (r : List Host.Cell) :
    cellsWf lo ((a, b) :: r) = true ↔ aboveLo lo a ∧ b ≠ 0 ∧ cellsWf (some a) r = true := by
  cases lo <;> simp [cellsWf, aboveLo, and_assoc]

theorem cellsWf_weaken {lo lo' : Option Nat} {m : List Host.Cell} (h : cellsWf lo m = true)
    (hl : ∀ x, aboveLo lo x → aboveLo lo' x) : cellsWf lo' m = true := by
  cases m with
  | nil => rfl
  | cons p r =>
    obtain ⟨a, b⟩ := p
    rw [cellsWf_cons] at h ⊢
    exact ⟨hl a h.1, h.2⟩

theorem cellsWf_mput {m : List Host.Cell} {lo : Option Nat} {a : Nat} {b : Byte} (h : cellsWf lo m = true)
    (ha : aboveLo lo a) (hb : b ≠ 0) : cellsWf lo (mput m a b) = true := by
  induction m generalizing lo with
  | nil => simp only [mput]; rw [cellsWf_cons]; exact ⟨ha, hb, rfl⟩
  | cons p r ih =>
    obtain ⟨c, d⟩ := p
    rw [cellsWf_cons] at h
    simp only [mput]
    split
    · next hac =>
      rw [cellsWf_cons]
      refine ⟨ha, hb, ?_⟩
      rw [cellsWf_cons]
      exact ⟨fun l hl => by cases hl; exact hac, h.2⟩
    · split
      · next hac => subst hac; rw [cellsWf_cons]; exact ⟨ha, hb, h.2.2⟩
      · rw [cellsWf_cons]
        exact ⟨h.1, h.2.1, ih h.2.2 fun l hl => by cases hl; omega⟩

theorem cellsWf_mdel {m : List Host.Cell} {lo : Option Nat} (a : Nat) (h : cellsWf lo m = true) :
    cellsWf lo (mdel m a) = true := by
  induction m generalizing lo with
  | nil => exact h
  | cons p r ih =>
    obtain ⟨c, d⟩ := p
    rw [cellsWf_cons] at h
    simp only [mdel]
    split
    · exact cellsWf_weaken h.2.2 fun x hx l hl => Nat.lt_trans (h.1 l hl) (hx c rfl)
    · rw [cellsWf_cons]; exact ⟨h.1, h.2.1, ih h.2.2⟩

theorem cellsWf_filter {m : List Host.Cell} {lo : Option Nat} (f : Host.Cell → Bool) (h : cellsWf lo m = true) :
    cellsWf lo (m.filter f) = true := by
  induction m generalizing lo with
  | nil => exact h
  | cons p r ih =>
    obtain ⟨c, d⟩ := p
    rw [cellsWf_cons] at h
    simp only [List.filter_cons]
    split
    · rw [cellsWf_cons]; exact ⟨h.1, h.2.1, ih h.2.2⟩
    · exact cellsWf_weaken (ih h.2.2) fun x hx l hl => Nat.lt_trans (h.1 l hl) (hx c rfl)

theorem writeByte_wf {m : List Host.Cell} (h : Memory.wf m = true) (a : Nat) (b : Byte) :
    Memory.wf (writeByte m a b) = true := by
  unfold writeByte
  split
  · exact cellsWf_mdel a h
  · next hb => exact cellsWf_mput h (fun l hl => by cases hl) hb

theorem writeBytes_wf (bs : List Byte) : ∀ {m : List Host.Cell}, Memory.wf m = true → ∀ a, Memory.wf (writeBytes m a bs) = true := by
  induction bs with
  | nil => intro m h a; exact h
  | cons b r ih => intro m h a; exact ih (writeByte_wf h a b) (a + 1)

theorem writeLE_wf {m : List Host.Cell} (h : Memory.wf m = true) (a n v : Nat) : Memory.wf (writeLE m a n v) = true :=
  writeBytes_wf _ h a

theorem clearBytes_wf {m : List Host.Cell} (h : Memory.wf m = true) (a n : Nat) : Memory.wf (clearBytes m a n) = true :=
  cellsWf_filter _ h

theorem filter_wf {m : List Host.Cell} (h : Memory.wf m = true) (f : Host.Cell → Bool) : Memory.wf (m.filter f) = true :=
  cellsWf_filter f h

@[simp] theorem nil_wf : Memory.wf [] = true := rfl

/-! ## Reading memory after a write -/

theorem mget_of_above {m : List Host.Cell} {a : Nat} (h : cellsWf (some a) m = true) : mget 0 m a = 0 := by
  have key : ∀ {lo : Nat}, cellsWf (some lo) m = true → a ≤ lo → mget 0 m a = 0 := by
    induction m with
    | nil => intro lo _ _; rfl
    | cons p r ih =>
      obtain ⟨c, d⟩ := p
      intro lo hw hl
      rw [cellsWf_cons] at hw
      have : lo < c := hw.1 lo rfl
      simp only [mget]
      rw [if_neg (by omega)]
      exact ih (cellsWf_weaken hw.2.2 fun x hx l hl => by cases hl; have := hx c rfl; omega) hw.2.2 (by omega)
  exact key h (Nat.le_refl a)

theorem mget_mdel_self {m : List Host.Cell} {lo : Option Nat} (a : Nat) (h : cellsWf lo m = true) : mget 0 (mdel m a) a = 0 := by
  induction m generalizing lo with
  | nil => rfl
  | cons p r ih =>
    obtain ⟨c, d⟩ := p
    rw [cellsWf_cons] at h
    simp only [mdel]
    split
    · next hac => subst hac; exact mget_of_above h.2.2
    · next hac => simp only [mget]; rw [if_neg (Ne.symm hac)]; exact ih h.2.2

theorem readByte_writeByte_self {m : List Host.Cell} (h : Memory.wf m = true) (a : Nat) (b : Byte) :
    readByte (writeByte m a b) a = b := by
  unfold readByte writeByte
  split
  · next hb => rw [hb]; exact mget_mdel_self a h
  · exact mget_mput_self ..

theorem readByte_writeByte_other (m : List Host.Cell) {a c : Nat} (h : c ≠ a) (b : Byte) :
    readByte (writeByte m a b) c = readByte m c := by
  unfold readByte writeByte
  split
  · exact mget_mdel_other 0 m h
  · exact mget_mput_other 0 b m h

theorem readByte_writeBytes_outside (bs : List Byte) (m : List Host.Cell) (a c : Nat) (h : c < a ∨ a + bs.length ≤ c) :
    readByte (writeBytes m a bs) c = readByte m c := by
  induction bs generalizing m a with
  | nil => rfl
  | cons b r ih =>
    simp only [List.length_cons] at h
    simp only [writeBytes]
    rw [ih _ _ (by omega), readByte_writeByte_other m (by omega) b]

theorem readByte_writeBytes_inside (bs : List Byte) {m : List Host.Cell} (hm : Memory.wf m = true) (a i : Nat)
    (h : i < bs.length) : readByte (writeBytes m a bs) (a + i) = bs.getD i 0 := by
  induction bs generalizing m a i with
  | nil => simp at h
  | cons b r ih =>
    simp only [writeBytes]
    cases i with
    | zero => rw [readByte_writeBytes_outside _ _ _ _ (by omega)]; simpa using readByte_writeByte_self hm a b
    | succ i =>
      have := ih (writeByte_wf hm a b) (a + 1) i (by simpa using h)
      rw [show a + (i + 1) = a + 1 + i by omega, this]
      simp

end Sys2Proof.Machine
end

