-- ==== Sys2Proof/Laws/State.lean ====
section
/-! SUPPORT. What each update of the state leaves alone, one lemma per field, and what it makes of the field it writes. -/

namespace Sys2Proof.Machine

open Sys2Proof

@[simp] theorem setCore_now (s : State) (c : Nat) (k : Core) : (setCore s c k).now = s.now := rfl
@[simp] theorem setCore_agenda (s : State) (c : Nat) (k : Core) : (setCore s c k).agenda = s.agenda := rfl
@[simp] theorem setCore_cursor (s : State) (c : Nat) (k : Core) : (setCore s c k).cursor = s.cursor := rfl
@[simp] theorem setCore_fresh (s : State) (c : Nat) (k : Core) : (setCore s c k).fresh = s.fresh := rfl
@[simp] theorem setCore_cur (s : State) (c : Nat) (k : Core) : (setCore s c k).cur = s.cur := rfl
@[simp] theorem setCore_mem (s : State) (c : Nat) (k : Core) : (setCore s c k).mem = s.mem := rfl
@[simp] theorem setCore_dcBase (s : State) (c : Nat) (k : Core) : (setCore s c k).dcBase = s.dcBase := rfl
@[simp] theorem setCore_dcOff (s : State) (c : Nat) (k : Core) : (setCore s c k).dcOff = s.dcOff := rfl
@[simp] theorem setCore_featEn (s : State) (c : Nat) (k : Core) : (setCore s c k).featEn = s.featEn := rfl
@[simp] theorem setCore_featCap (s : State) (c : Nat) (k : Core) : (setCore s c k).featCap = s.featCap := rfl
@[simp] theorem setCore_featLocked (s : State) (c : Nat) (k : Core) : (setCore s c k).featLocked = s.featLocked := rfl
@[simp] theorem setCore_merr (s : State) (c : Nat) (k : Core) : (setCore s c k).merr = s.merr := rfl
@[simp] theorem setCore_start (s : State) (c : Nat) (k : Core) : (setCore s c k).start = s.start := rfl
@[simp] theorem setCore_nvRetired (s : State) (c : Nat) (k : Core) : (setCore s c k).nvRetired = s.nvRetired := rfl
@[simp] theorem setCore_fuseRetired (s : State) (c : Nat) (k : Core) : (setCore s c k).fuseRetired = s.fuseRetired := rfl
@[simp] theorem setCore_flagged (s : State) (c : Nat) (k : Core) : (setCore s c k).flagged = s.flagged := rfl
@[simp] theorem setCore_testing (s : State) (c : Nat) (k : Core) : (setCore s c k).testing = s.testing := rfl
@[simp] theorem setCore_leaf (s : State) (c : Nat) (k : Core) : (setCore s c k).leaf = s.leaf := rfl
@[simp] theorem setCore_leafFuses (s : State) (c : Nat) (k : Core) : (setCore s c k).leafFuses = s.leafFuses := rfl
@[simp] theorem setCore_minVersion (s : State) (c : Nat) (k : Core) : (setCore s c k).minVersion = s.minVersion := rfl
@[simp] theorem setCore_image (s : State) (c : Nat) (k : Core) : (setCore s c k).image = s.image := rfl
@[simp] theorem setCore_spdm (s : State) (c : Nat) (k : Core) : (setCore s c k).spdm = s.spdm := rfl
@[simp] theorem setCore_outbox (s : State) (c : Nat) (k : Core) : (setCore s c k).outbox = s.outbox := rfl
@[simp] theorem setCore_regions (s : State) (c : Nat) (k : Core) : (setCore s c k).regions = s.regions := rfl
@[simp] theorem setCore_dies (s : State) (c : Nat) (k : Core) : (setCore s c k).dies = s.dies := rfl
@[simp] theorem setCore_routers (s : State) (c : Nat) (k : Core) : (setCore s c k).routers = s.routers := rfl
@[simp] theorem setCore_slices (s : State) (c : Nat) (k : Core) : (setCore s c k).slices = s.slices := rfl
@[simp] theorem setCore_parts (s : State) (c : Nat) (k : Core) : (setCore s c k).parts = s.parts := rfl
@[simp] theorem setCore_net (s : State) (c : Nat) (k : Core) : (setCore s c k).net = s.net := rfl
@[simp] theorem setCore_anchors (s : State) (c : Nat) (k : Core) : (setCore s c k).anchors = s.anchors := rfl
@[simp] theorem setCore_outstanding (s : State) (c : Nat) (k : Core) : (setCore s c k).outstanding = s.outstanding := rfl
@[simp] theorem setCore_seqs (s : State) (c : Nat) (k : Core) : (setCore s c k).seqs = s.seqs := rfl
@[simp] theorem setCore_dups (s : State) (c : Nat) (k : Core) : (setCore s c k).dups = s.dups := rfl
@[simp] theorem setCore_proxies (s : State) (c : Nat) (k : Core) : (setCore s c k).proxies = s.proxies := rfl
@[simp] theorem setCore_hostLines (s : State) (c : Nat) (k : Core) : (setCore s c k).hostLines = s.hostLines := rfl
@[simp] theorem setCore_hostReqs (s : State) (c : Nat) (k : Core) : (setCore s c k).hostReqs = s.hostReqs := rfl
@[simp] theorem setCore_tiles (s : State) (c : Nat) (k : Core) : (setCore s c k).tiles = s.tiles := rfl
@[simp] theorem setCore_tileReqs (s : State) (c : Nat) (k : Core) : (setCore s c k).tileReqs = s.tileReqs := rfl
@[simp] theorem setCore_incs (s : State) (c : Nat) (k : Core) : (setCore s c k).incs = s.incs := rfl
@[simp] theorem setCore_semWaits (s : State) (c : Nat) (k : Core) : (setCore s c k).semWaits = s.semWaits := rfl
@[simp] theorem setCore_msgs (s : State) (c : Nat) (k : Core) : (setCore s c k).msgs = s.msgs := rfl
@[simp] theorem setCore_walks (s : State) (c : Nat) (k : Core) : (setCore s c k).walks = s.walks := rfl
@[simp] theorem setCore_wpHits (s : State) (c : Nat) (k : Core) : (setCore s c k).wpHits = s.wpHits := rfl
@[simp] theorem setCore_pasids (s : State) (c : Nat) (k : Core) : (setCore s c k).pasids = s.pasids := rfl
@[simp] theorem setCore_hot (s : State) (c : Nat) (k : Core) : (setCore s c k).hot = s.hot := rfl

@[simp] theorem modCore_now (s : State) (c : Nat) (f : Core → Core) : (modCore s c f).now = s.now := rfl
@[simp] theorem modCore_agenda (s : State) (c : Nat) (f : Core → Core) : (modCore s c f).agenda = s.agenda := rfl
@[simp] theorem modCore_cursor (s : State) (c : Nat) (f : Core → Core) : (modCore s c f).cursor = s.cursor := rfl
@[simp] theorem modCore_fresh (s : State) (c : Nat) (f : Core → Core) : (modCore s c f).fresh = s.fresh := rfl
@[simp] theorem modCore_cur (s : State) (c : Nat) (f : Core → Core) : (modCore s c f).cur = s.cur := rfl
@[simp] theorem modCore_mem (s : State) (c : Nat) (f : Core → Core) : (modCore s c f).mem = s.mem := rfl
@[simp] theorem modCore_dcBase (s : State) (c : Nat) (f : Core → Core) : (modCore s c f).dcBase = s.dcBase := rfl
@[simp] theorem modCore_dcOff (s : State) (c : Nat) (f : Core → Core) : (modCore s c f).dcOff = s.dcOff := rfl
@[simp] theorem modCore_featEn (s : State) (c : Nat) (f : Core → Core) : (modCore s c f).featEn = s.featEn := rfl
@[simp] theorem modCore_featCap (s : State) (c : Nat) (f : Core → Core) : (modCore s c f).featCap = s.featCap := rfl
@[simp] theorem modCore_featLocked (s : State) (c : Nat) (f : Core → Core) : (modCore s c f).featLocked = s.featLocked := rfl
@[simp] theorem modCore_merr (s : State) (c : Nat) (f : Core → Core) : (modCore s c f).merr = s.merr := rfl
@[simp] theorem modCore_start (s : State) (c : Nat) (f : Core → Core) : (modCore s c f).start = s.start := rfl
@[simp] theorem modCore_nvRetired (s : State) (c : Nat) (f : Core → Core) : (modCore s c f).nvRetired = s.nvRetired := rfl
@[simp] theorem modCore_fuseRetired (s : State) (c : Nat) (f : Core → Core) : (modCore s c f).fuseRetired = s.fuseRetired := rfl
@[simp] theorem modCore_flagged (s : State) (c : Nat) (f : Core → Core) : (modCore s c f).flagged = s.flagged := rfl
@[simp] theorem modCore_testing (s : State) (c : Nat) (f : Core → Core) : (modCore s c f).testing = s.testing := rfl
@[simp] theorem modCore_leaf (s : State) (c : Nat) (f : Core → Core) : (modCore s c f).leaf = s.leaf := rfl
@[simp] theorem modCore_leafFuses (s : State) (c : Nat) (f : Core → Core) : (modCore s c f).leafFuses = s.leafFuses := rfl
@[simp] theorem modCore_minVersion (s : State) (c : Nat) (f : Core → Core) : (modCore s c f).minVersion = s.minVersion := rfl
@[simp] theorem modCore_image (s : State) (c : Nat) (f : Core → Core) : (modCore s c f).image = s.image := rfl
@[simp] theorem modCore_spdm (s : State) (c : Nat) (f : Core → Core) : (modCore s c f).spdm = s.spdm := rfl
@[simp] theorem modCore_outbox (s : State) (c : Nat) (f : Core → Core) : (modCore s c f).outbox = s.outbox := rfl
@[simp] theorem modCore_regions (s : State) (c : Nat) (f : Core → Core) : (modCore s c f).regions = s.regions := rfl
@[simp] theorem modCore_dies (s : State) (c : Nat) (f : Core → Core) : (modCore s c f).dies = s.dies := rfl
@[simp] theorem modCore_routers (s : State) (c : Nat) (f : Core → Core) : (modCore s c f).routers = s.routers := rfl
@[simp] theorem modCore_slices (s : State) (c : Nat) (f : Core → Core) : (modCore s c f).slices = s.slices := rfl
@[simp] theorem modCore_parts (s : State) (c : Nat) (f : Core → Core) : (modCore s c f).parts = s.parts := rfl
@[simp] theorem modCore_net (s : State) (c : Nat) (f : Core → Core) : (modCore s c f).net = s.net := rfl
@[simp] theorem modCore_anchors (s : State) (c : Nat) (f : Core → Core) : (modCore s c f).anchors = s.anchors := rfl
@[simp] theorem modCore_outstanding (s : State) (c : Nat) (f : Core → Core) : (modCore s c f).outstanding = s.outstanding := rfl
@[simp] theorem modCore_seqs (s : State) (c : Nat) (f : Core → Core) : (modCore s c f).seqs = s.seqs := rfl
@[simp] theorem modCore_dups (s : State) (c : Nat) (f : Core → Core) : (modCore s c f).dups = s.dups := rfl
@[simp] theorem modCore_proxies (s : State) (c : Nat) (f : Core → Core) : (modCore s c f).proxies = s.proxies := rfl
@[simp] theorem modCore_hostLines (s : State) (c : Nat) (f : Core → Core) : (modCore s c f).hostLines = s.hostLines := rfl
@[simp] theorem modCore_hostReqs (s : State) (c : Nat) (f : Core → Core) : (modCore s c f).hostReqs = s.hostReqs := rfl
@[simp] theorem modCore_tiles (s : State) (c : Nat) (f : Core → Core) : (modCore s c f).tiles = s.tiles := rfl
@[simp] theorem modCore_tileReqs (s : State) (c : Nat) (f : Core → Core) : (modCore s c f).tileReqs = s.tileReqs := rfl
@[simp] theorem modCore_incs (s : State) (c : Nat) (f : Core → Core) : (modCore s c f).incs = s.incs := rfl
@[simp] theorem modCore_semWaits (s : State) (c : Nat) (f : Core → Core) : (modCore s c f).semWaits = s.semWaits := rfl
@[simp] theorem modCore_msgs (s : State) (c : Nat) (f : Core → Core) : (modCore s c f).msgs = s.msgs := rfl
@[simp] theorem modCore_walks (s : State) (c : Nat) (f : Core → Core) : (modCore s c f).walks = s.walks := rfl
@[simp] theorem modCore_wpHits (s : State) (c : Nat) (f : Core → Core) : (modCore s c f).wpHits = s.wpHits := rfl
@[simp] theorem modCore_pasids (s : State) (c : Nat) (f : Core → Core) : (modCore s c f).pasids = s.pasids := rfl
@[simp] theorem modCore_hot (s : State) (c : Nat) (f : Core → Core) : (modCore s c f).hot = s.hot := rfl

@[simp] theorem modTeam_now (s : State) (c : Nat) (f : Team → Team) : (modTeam s c f).now = s.now := rfl
@[simp] theorem modTeam_agenda (s : State) (c : Nat) (f : Team → Team) : (modTeam s c f).agenda = s.agenda := rfl
@[simp] theorem modTeam_cursor (s : State) (c : Nat) (f : Team → Team) : (modTeam s c f).cursor = s.cursor := rfl
@[simp] theorem modTeam_fresh (s : State) (c : Nat) (f : Team → Team) : (modTeam s c f).fresh = s.fresh := rfl
@[simp] theorem modTeam_cur (s : State) (c : Nat) (f : Team → Team) : (modTeam s c f).cur = s.cur := rfl
@[simp] theorem modTeam_mem (s : State) (c : Nat) (f : Team → Team) : (modTeam s c f).mem = s.mem := rfl
@[simp] theorem modTeam_dcBase (s : State) (c : Nat) (f : Team → Team) : (modTeam s c f).dcBase = s.dcBase := rfl
@[simp] theorem modTeam_dcOff (s : State) (c : Nat) (f : Team → Team) : (modTeam s c f).dcOff = s.dcOff := rfl
@[simp] theorem modTeam_featEn (s : State) (c : Nat) (f : Team → Team) : (modTeam s c f).featEn = s.featEn := rfl
@[simp] theorem modTeam_featCap (s : State) (c : Nat) (f : Team → Team) : (modTeam s c f).featCap = s.featCap := rfl
@[simp] theorem modTeam_featLocked (s : State) (c : Nat) (f : Team → Team) : (modTeam s c f).featLocked = s.featLocked := rfl
@[simp] theorem modTeam_merr (s : State) (c : Nat) (f : Team → Team) : (modTeam s c f).merr = s.merr := rfl
@[simp] theorem modTeam_start (s : State) (c : Nat) (f : Team → Team) : (modTeam s c f).start = s.start := rfl
@[simp] theorem modTeam_nvRetired (s : State) (c : Nat) (f : Team → Team) : (modTeam s c f).nvRetired = s.nvRetired := rfl
@[simp] theorem modTeam_fuseRetired (s : State) (c : Nat) (f : Team → Team) : (modTeam s c f).fuseRetired = s.fuseRetired := rfl
@[simp] theorem modTeam_flagged (s : State) (c : Nat) (f : Team → Team) : (modTeam s c f).flagged = s.flagged := rfl
@[simp] theorem modTeam_testing (s : State) (c : Nat) (f : Team → Team) : (modTeam s c f).testing = s.testing := rfl
@[simp] theorem modTeam_leaf (s : State) (c : Nat) (f : Team → Team) : (modTeam s c f).leaf = s.leaf := rfl
@[simp] theorem modTeam_leafFuses (s : State) (c : Nat) (f : Team → Team) : (modTeam s c f).leafFuses = s.leafFuses := rfl
@[simp] theorem modTeam_minVersion (s : State) (c : Nat) (f : Team → Team) : (modTeam s c f).minVersion = s.minVersion := rfl
@[simp] theorem modTeam_image (s : State) (c : Nat) (f : Team → Team) : (modTeam s c f).image = s.image := rfl
@[simp] theorem modTeam_spdm (s : State) (c : Nat) (f : Team → Team) : (modTeam s c f).spdm = s.spdm := rfl
@[simp] theorem modTeam_outbox (s : State) (c : Nat) (f : Team → Team) : (modTeam s c f).outbox = s.outbox := rfl
@[simp] theorem modTeam_regions (s : State) (c : Nat) (f : Team → Team) : (modTeam s c f).regions = s.regions := rfl
@[simp] theorem modTeam_dies (s : State) (c : Nat) (f : Team → Team) : (modTeam s c f).dies = s.dies := rfl
@[simp] theorem modTeam_routers (s : State) (c : Nat) (f : Team → Team) : (modTeam s c f).routers = s.routers := rfl
@[simp] theorem modTeam_slices (s : State) (c : Nat) (f : Team → Team) : (modTeam s c f).slices = s.slices := rfl
@[simp] theorem modTeam_parts (s : State) (c : Nat) (f : Team → Team) : (modTeam s c f).parts = s.parts := rfl
@[simp] theorem modTeam_net (s : State) (c : Nat) (f : Team → Team) : (modTeam s c f).net = s.net := rfl
@[simp] theorem modTeam_anchors (s : State) (c : Nat) (f : Team → Team) : (modTeam s c f).anchors = s.anchors := rfl
@[simp] theorem modTeam_outstanding (s : State) (c : Nat) (f : Team → Team) : (modTeam s c f).outstanding = s.outstanding := rfl
@[simp] theorem modTeam_seqs (s : State) (c : Nat) (f : Team → Team) : (modTeam s c f).seqs = s.seqs := rfl
@[simp] theorem modTeam_dups (s : State) (c : Nat) (f : Team → Team) : (modTeam s c f).dups = s.dups := rfl
@[simp] theorem modTeam_proxies (s : State) (c : Nat) (f : Team → Team) : (modTeam s c f).proxies = s.proxies := rfl
@[simp] theorem modTeam_hostLines (s : State) (c : Nat) (f : Team → Team) : (modTeam s c f).hostLines = s.hostLines := rfl
@[simp] theorem modTeam_hostReqs (s : State) (c : Nat) (f : Team → Team) : (modTeam s c f).hostReqs = s.hostReqs := rfl
@[simp] theorem modTeam_tiles (s : State) (c : Nat) (f : Team → Team) : (modTeam s c f).tiles = s.tiles := rfl
@[simp] theorem modTeam_tileReqs (s : State) (c : Nat) (f : Team → Team) : (modTeam s c f).tileReqs = s.tileReqs := rfl
@[simp] theorem modTeam_incs (s : State) (c : Nat) (f : Team → Team) : (modTeam s c f).incs = s.incs := rfl
@[simp] theorem modTeam_semWaits (s : State) (c : Nat) (f : Team → Team) : (modTeam s c f).semWaits = s.semWaits := rfl
@[simp] theorem modTeam_msgs (s : State) (c : Nat) (f : Team → Team) : (modTeam s c f).msgs = s.msgs := rfl
@[simp] theorem modTeam_walks (s : State) (c : Nat) (f : Team → Team) : (modTeam s c f).walks = s.walks := rfl
@[simp] theorem modTeam_wpHits (s : State) (c : Nat) (f : Team → Team) : (modTeam s c f).wpHits = s.wpHits := rfl
@[simp] theorem modTeam_pasids (s : State) (c : Nat) (f : Team → Team) : (modTeam s c f).pasids = s.pasids := rfl
@[simp] theorem modTeam_hot (s : State) (c : Nat) (f : Team → Team) : (modTeam s c f).hot = s.hot := rfl

@[simp] theorem setGroup_now (s : State) (c g : Nat) (v : Group) : (setGroup s c g v).now = s.now := rfl
@[simp] theorem setGroup_agenda (s : State) (c g : Nat) (v : Group) : (setGroup s c g v).agenda = s.agenda := rfl
@[simp] theorem setGroup_cursor (s : State) (c g : Nat) (v : Group) : (setGroup s c g v).cursor = s.cursor := rfl
@[simp] theorem setGroup_fresh (s : State) (c g : Nat) (v : Group) : (setGroup s c g v).fresh = s.fresh := rfl
@[simp] theorem setGroup_cur (s : State) (c g : Nat) (v : Group) : (setGroup s c g v).cur = s.cur := rfl
@[simp] theorem setGroup_mem (s : State) (c g : Nat) (v : Group) : (setGroup s c g v).mem = s.mem := rfl
@[simp] theorem setGroup_dcBase (s : State) (c g : Nat) (v : Group) : (setGroup s c g v).dcBase = s.dcBase := rfl
@[simp] theorem setGroup_dcOff (s : State) (c g : Nat) (v : Group) : (setGroup s c g v).dcOff = s.dcOff := rfl
@[simp] theorem setGroup_featEn (s : State) (c g : Nat) (v : Group) : (setGroup s c g v).featEn = s.featEn := rfl
@[simp] theorem setGroup_featCap (s : State) (c g : Nat) (v : Group) : (setGroup s c g v).featCap = s.featCap := rfl
@[simp] theorem setGroup_featLocked (s : State) (c g : Nat) (v : Group) : (setGroup s c g v).featLocked = s.featLocked := rfl
@[simp] theorem setGroup_merr (s : State) (c g : Nat) (v : Group) : (setGroup s c g v).merr = s.merr := rfl
@[simp] theorem setGroup_start (s : State) (c g : Nat) (v : Group) : (setGroup s c g v).start = s.start := rfl
@[simp] theorem setGroup_nvRetired (s : State) (c g : Nat) (v : Group) : (setGroup s c g v).nvRetired = s.nvRetired := rfl
@[simp] theorem setGroup_fuseRetired (s : State) (c g : Nat) (v : Group) : (setGroup s c g v).fuseRetired = s.fuseRetired := rfl
@[simp] theorem setGroup_flagged (s : State) (c g : Nat) (v : Group) : (setGroup s c g v).flagged = s.flagged := rfl
@[simp] theorem setGroup_testing (s : State) (c g : Nat) (v : Group) : (setGroup s c g v).testing = s.testing := rfl
@[simp] theorem setGroup_leaf (s : State) (c g : Nat) (v : Group) : (setGroup s c g v).leaf = s.leaf := rfl
@[simp] theorem setGroup_leafFuses (s : State) (c g : Nat) (v : Group) : (setGroup s c g v).leafFuses = s.leafFuses := rfl
@[simp] theorem setGroup_minVersion (s : State) (c g : Nat) (v : Group) : (setGroup s c g v).minVersion = s.minVersion := rfl
@[simp] theorem setGroup_image (s : State) (c g : Nat) (v : Group) : (setGroup s c g v).image = s.image := rfl
@[simp] theorem setGroup_spdm (s : State) (c g : Nat) (v : Group) : (setGroup s c g v).spdm = s.spdm := rfl
@[simp] theorem setGroup_outbox (s : State) (c g : Nat) (v : Group) : (setGroup s c g v).outbox = s.outbox := rfl
@[simp] theorem setGroup_regions (s : State) (c g : Nat) (v : Group) : (setGroup s c g v).regions = s.regions := rfl
@[simp] theorem setGroup_dies (s : State) (c g : Nat) (v : Group) : (setGroup s c g v).dies = s.dies := rfl
@[simp] theorem setGroup_routers (s : State) (c g : Nat) (v : Group) : (setGroup s c g v).routers = s.routers := rfl
@[simp] theorem setGroup_slices (s : State) (c g : Nat) (v : Group) : (setGroup s c g v).slices = s.slices := rfl
@[simp] theorem setGroup_parts (s : State) (c g : Nat) (v : Group) : (setGroup s c g v).parts = s.parts := rfl
@[simp] theorem setGroup_net (s : State) (c g : Nat) (v : Group) : (setGroup s c g v).net = s.net := rfl
@[simp] theorem setGroup_anchors (s : State) (c g : Nat) (v : Group) : (setGroup s c g v).anchors = s.anchors := rfl
@[simp] theorem setGroup_outstanding (s : State) (c g : Nat) (v : Group) : (setGroup s c g v).outstanding = s.outstanding := rfl
@[simp] theorem setGroup_seqs (s : State) (c g : Nat) (v : Group) : (setGroup s c g v).seqs = s.seqs := rfl
@[simp] theorem setGroup_dups (s : State) (c g : Nat) (v : Group) : (setGroup s c g v).dups = s.dups := rfl
@[simp] theorem setGroup_proxies (s : State) (c g : Nat) (v : Group) : (setGroup s c g v).proxies = s.proxies := rfl
@[simp] theorem setGroup_hostLines (s : State) (c g : Nat) (v : Group) : (setGroup s c g v).hostLines = s.hostLines := rfl
@[simp] theorem setGroup_hostReqs (s : State) (c g : Nat) (v : Group) : (setGroup s c g v).hostReqs = s.hostReqs := rfl
@[simp] theorem setGroup_tiles (s : State) (c g : Nat) (v : Group) : (setGroup s c g v).tiles = s.tiles := rfl
@[simp] theorem setGroup_tileReqs (s : State) (c g : Nat) (v : Group) : (setGroup s c g v).tileReqs = s.tileReqs := rfl
@[simp] theorem setGroup_incs (s : State) (c g : Nat) (v : Group) : (setGroup s c g v).incs = s.incs := rfl
@[simp] theorem setGroup_semWaits (s : State) (c g : Nat) (v : Group) : (setGroup s c g v).semWaits = s.semWaits := rfl
@[simp] theorem setGroup_msgs (s : State) (c g : Nat) (v : Group) : (setGroup s c g v).msgs = s.msgs := rfl
@[simp] theorem setGroup_walks (s : State) (c g : Nat) (v : Group) : (setGroup s c g v).walks = s.walks := rfl
@[simp] theorem setGroup_wpHits (s : State) (c g : Nat) (v : Group) : (setGroup s c g v).wpHits = s.wpHits := rfl
@[simp] theorem setGroup_pasids (s : State) (c g : Nat) (v : Group) : (setGroup s c g v).pasids = s.pasids := rfl
@[simp] theorem setGroup_hot (s : State) (c g : Nat) (v : Group) : (setGroup s c g v).hot = s.hot := rfl

@[simp] theorem modGroup_now (s : State) (c g : Nat) (f : Group → Group) : (modGroup s c g f).now = s.now := rfl
@[simp] theorem modGroup_agenda (s : State) (c g : Nat) (f : Group → Group) : (modGroup s c g f).agenda = s.agenda := rfl
@[simp] theorem modGroup_cursor (s : State) (c g : Nat) (f : Group → Group) : (modGroup s c g f).cursor = s.cursor := rfl
@[simp] theorem modGroup_fresh (s : State) (c g : Nat) (f : Group → Group) : (modGroup s c g f).fresh = s.fresh := rfl
@[simp] theorem modGroup_cur (s : State) (c g : Nat) (f : Group → Group) : (modGroup s c g f).cur = s.cur := rfl
@[simp] theorem modGroup_mem (s : State) (c g : Nat) (f : Group → Group) : (modGroup s c g f).mem = s.mem := rfl
@[simp] theorem modGroup_dcBase (s : State) (c g : Nat) (f : Group → Group) : (modGroup s c g f).dcBase = s.dcBase := rfl
@[simp] theorem modGroup_dcOff (s : State) (c g : Nat) (f : Group → Group) : (modGroup s c g f).dcOff = s.dcOff := rfl
@[simp] theorem modGroup_featEn (s : State) (c g : Nat) (f : Group → Group) : (modGroup s c g f).featEn = s.featEn := rfl
@[simp] theorem modGroup_featCap (s : State) (c g : Nat) (f : Group → Group) : (modGroup s c g f).featCap = s.featCap := rfl
@[simp] theorem modGroup_featLocked (s : State) (c g : Nat) (f : Group → Group) : (modGroup s c g f).featLocked = s.featLocked := rfl
@[simp] theorem modGroup_merr (s : State) (c g : Nat) (f : Group → Group) : (modGroup s c g f).merr = s.merr := rfl
@[simp] theorem modGroup_start (s : State) (c g : Nat) (f : Group → Group) : (modGroup s c g f).start = s.start := rfl
@[simp] theorem modGroup_nvRetired (s : State) (c g : Nat) (f : Group → Group) : (modGroup s c g f).nvRetired = s.nvRetired := rfl
@[simp] theorem modGroup_fuseRetired (s : State) (c g : Nat) (f : Group → Group) : (modGroup s c g f).fuseRetired = s.fuseRetired := rfl
@[simp] theorem modGroup_flagged (s : State) (c g : Nat) (f : Group → Group) : (modGroup s c g f).flagged = s.flagged := rfl
@[simp] theorem modGroup_testing (s : State) (c g : Nat) (f : Group → Group) : (modGroup s c g f).testing = s.testing := rfl
@[simp] theorem modGroup_leaf (s : State) (c g : Nat) (f : Group → Group) : (modGroup s c g f).leaf = s.leaf := rfl
@[simp] theorem modGroup_leafFuses (s : State) (c g : Nat) (f : Group → Group) : (modGroup s c g f).leafFuses = s.leafFuses := rfl
@[simp] theorem modGroup_minVersion (s : State) (c g : Nat) (f : Group → Group) : (modGroup s c g f).minVersion = s.minVersion := rfl
@[simp] theorem modGroup_image (s : State) (c g : Nat) (f : Group → Group) : (modGroup s c g f).image = s.image := rfl
@[simp] theorem modGroup_spdm (s : State) (c g : Nat) (f : Group → Group) : (modGroup s c g f).spdm = s.spdm := rfl
@[simp] theorem modGroup_outbox (s : State) (c g : Nat) (f : Group → Group) : (modGroup s c g f).outbox = s.outbox := rfl
@[simp] theorem modGroup_regions (s : State) (c g : Nat) (f : Group → Group) : (modGroup s c g f).regions = s.regions := rfl
@[simp] theorem modGroup_dies (s : State) (c g : Nat) (f : Group → Group) : (modGroup s c g f).dies = s.dies := rfl
@[simp] theorem modGroup_routers (s : State) (c g : Nat) (f : Group → Group) : (modGroup s c g f).routers = s.routers := rfl
@[simp] theorem modGroup_slices (s : State) (c g : Nat) (f : Group → Group) : (modGroup s c g f).slices = s.slices := rfl
@[simp] theorem modGroup_parts (s : State) (c g : Nat) (f : Group → Group) : (modGroup s c g f).parts = s.parts := rfl
@[simp] theorem modGroup_net (s : State) (c g : Nat) (f : Group → Group) : (modGroup s c g f).net = s.net := rfl
@[simp] theorem modGroup_anchors (s : State) (c g : Nat) (f : Group → Group) : (modGroup s c g f).anchors = s.anchors := rfl
@[simp] theorem modGroup_outstanding (s : State) (c g : Nat) (f : Group → Group) : (modGroup s c g f).outstanding = s.outstanding := rfl
@[simp] theorem modGroup_seqs (s : State) (c g : Nat) (f : Group → Group) : (modGroup s c g f).seqs = s.seqs := rfl
@[simp] theorem modGroup_dups (s : State) (c g : Nat) (f : Group → Group) : (modGroup s c g f).dups = s.dups := rfl
@[simp] theorem modGroup_proxies (s : State) (c g : Nat) (f : Group → Group) : (modGroup s c g f).proxies = s.proxies := rfl
@[simp] theorem modGroup_hostLines (s : State) (c g : Nat) (f : Group → Group) : (modGroup s c g f).hostLines = s.hostLines := rfl
@[simp] theorem modGroup_hostReqs (s : State) (c g : Nat) (f : Group → Group) : (modGroup s c g f).hostReqs = s.hostReqs := rfl
@[simp] theorem modGroup_tiles (s : State) (c g : Nat) (f : Group → Group) : (modGroup s c g f).tiles = s.tiles := rfl
@[simp] theorem modGroup_tileReqs (s : State) (c g : Nat) (f : Group → Group) : (modGroup s c g f).tileReqs = s.tileReqs := rfl
@[simp] theorem modGroup_incs (s : State) (c g : Nat) (f : Group → Group) : (modGroup s c g f).incs = s.incs := rfl
@[simp] theorem modGroup_semWaits (s : State) (c g : Nat) (f : Group → Group) : (modGroup s c g f).semWaits = s.semWaits := rfl
@[simp] theorem modGroup_msgs (s : State) (c g : Nat) (f : Group → Group) : (modGroup s c g f).msgs = s.msgs := rfl
@[simp] theorem modGroup_walks (s : State) (c g : Nat) (f : Group → Group) : (modGroup s c g f).walks = s.walks := rfl
@[simp] theorem modGroup_wpHits (s : State) (c g : Nat) (f : Group → Group) : (modGroup s c g f).wpHits = s.wpHits := rfl
@[simp] theorem modGroup_pasids (s : State) (c g : Nat) (f : Group → Group) : (modGroup s c g f).pasids = s.pasids := rfl
@[simp] theorem modGroup_hot (s : State) (c g : Nat) (f : Group → Group) : (modGroup s c g f).hot = s.hot := rfl

@[simp] theorem setPart_now (s : State) (p : Nat) (v : Partition) : (setPart s p v).now = s.now := rfl
@[simp] theorem setPart_agenda (s : State) (p : Nat) (v : Partition) : (setPart s p v).agenda = s.agenda := rfl
@[simp] theorem setPart_cursor (s : State) (p : Nat) (v : Partition) : (setPart s p v).cursor = s.cursor := rfl
@[simp] theorem setPart_fresh (s : State) (p : Nat) (v : Partition) : (setPart s p v).fresh = s.fresh := rfl
@[simp] theorem setPart_cur (s : State) (p : Nat) (v : Partition) : (setPart s p v).cur = s.cur := rfl
@[simp] theorem setPart_mem (s : State) (p : Nat) (v : Partition) : (setPart s p v).mem = s.mem := rfl
@[simp] theorem setPart_dcBase (s : State) (p : Nat) (v : Partition) : (setPart s p v).dcBase = s.dcBase := rfl
@[simp] theorem setPart_dcOff (s : State) (p : Nat) (v : Partition) : (setPart s p v).dcOff = s.dcOff := rfl
@[simp] theorem setPart_featEn (s : State) (p : Nat) (v : Partition) : (setPart s p v).featEn = s.featEn := rfl
@[simp] theorem setPart_featCap (s : State) (p : Nat) (v : Partition) : (setPart s p v).featCap = s.featCap := rfl
@[simp] theorem setPart_featLocked (s : State) (p : Nat) (v : Partition) : (setPart s p v).featLocked = s.featLocked := rfl
@[simp] theorem setPart_merr (s : State) (p : Nat) (v : Partition) : (setPart s p v).merr = s.merr := rfl
@[simp] theorem setPart_start (s : State) (p : Nat) (v : Partition) : (setPart s p v).start = s.start := rfl
@[simp] theorem setPart_nvRetired (s : State) (p : Nat) (v : Partition) : (setPart s p v).nvRetired = s.nvRetired := rfl
@[simp] theorem setPart_fuseRetired (s : State) (p : Nat) (v : Partition) : (setPart s p v).fuseRetired = s.fuseRetired := rfl
@[simp] theorem setPart_flagged (s : State) (p : Nat) (v : Partition) : (setPart s p v).flagged = s.flagged := rfl
@[simp] theorem setPart_testing (s : State) (p : Nat) (v : Partition) : (setPart s p v).testing = s.testing := rfl
@[simp] theorem setPart_leaf (s : State) (p : Nat) (v : Partition) : (setPart s p v).leaf = s.leaf := rfl
@[simp] theorem setPart_leafFuses (s : State) (p : Nat) (v : Partition) : (setPart s p v).leafFuses = s.leafFuses := rfl
@[simp] theorem setPart_minVersion (s : State) (p : Nat) (v : Partition) : (setPart s p v).minVersion = s.minVersion := rfl
@[simp] theorem setPart_image (s : State) (p : Nat) (v : Partition) : (setPart s p v).image = s.image := rfl
@[simp] theorem setPart_spdm (s : State) (p : Nat) (v : Partition) : (setPart s p v).spdm = s.spdm := rfl
@[simp] theorem setPart_outbox (s : State) (p : Nat) (v : Partition) : (setPart s p v).outbox = s.outbox := rfl
@[simp] theorem setPart_regions (s : State) (p : Nat) (v : Partition) : (setPart s p v).regions = s.regions := rfl
@[simp] theorem setPart_dies (s : State) (p : Nat) (v : Partition) : (setPart s p v).dies = s.dies := rfl
@[simp] theorem setPart_cores (s : State) (p : Nat) (v : Partition) : (setPart s p v).cores = s.cores := rfl
@[simp] theorem setPart_routers (s : State) (p : Nat) (v : Partition) : (setPart s p v).routers = s.routers := rfl
@[simp] theorem setPart_slices (s : State) (p : Nat) (v : Partition) : (setPart s p v).slices = s.slices := rfl
@[simp] theorem setPart_net (s : State) (p : Nat) (v : Partition) : (setPart s p v).net = s.net := rfl
@[simp] theorem setPart_anchors (s : State) (p : Nat) (v : Partition) : (setPart s p v).anchors = s.anchors := rfl
@[simp] theorem setPart_outstanding (s : State) (p : Nat) (v : Partition) : (setPart s p v).outstanding = s.outstanding := rfl
@[simp] theorem setPart_seqs (s : State) (p : Nat) (v : Partition) : (setPart s p v).seqs = s.seqs := rfl
@[simp] theorem setPart_dups (s : State) (p : Nat) (v : Partition) : (setPart s p v).dups = s.dups := rfl
@[simp] theorem setPart_proxies (s : State) (p : Nat) (v : Partition) : (setPart s p v).proxies = s.proxies := rfl
@[simp] theorem setPart_hostLines (s : State) (p : Nat) (v : Partition) : (setPart s p v).hostLines = s.hostLines := rfl
@[simp] theorem setPart_hostReqs (s : State) (p : Nat) (v : Partition) : (setPart s p v).hostReqs = s.hostReqs := rfl
@[simp] theorem setPart_tiles (s : State) (p : Nat) (v : Partition) : (setPart s p v).tiles = s.tiles := rfl
@[simp] theorem setPart_tileReqs (s : State) (p : Nat) (v : Partition) : (setPart s p v).tileReqs = s.tileReqs := rfl
@[simp] theorem setPart_incs (s : State) (p : Nat) (v : Partition) : (setPart s p v).incs = s.incs := rfl
@[simp] theorem setPart_semWaits (s : State) (p : Nat) (v : Partition) : (setPart s p v).semWaits = s.semWaits := rfl
@[simp] theorem setPart_msgs (s : State) (p : Nat) (v : Partition) : (setPart s p v).msgs = s.msgs := rfl
@[simp] theorem setPart_walks (s : State) (p : Nat) (v : Partition) : (setPart s p v).walks = s.walks := rfl
@[simp] theorem setPart_wpHits (s : State) (p : Nat) (v : Partition) : (setPart s p v).wpHits = s.wpHits := rfl
@[simp] theorem setPart_pasids (s : State) (p : Nat) (v : Partition) : (setPart s p v).pasids = s.pasids := rfl
@[simp] theorem setPart_hot (s : State) (p : Nat) (v : Partition) : (setPart s p v).hot = s.hot := rfl

@[simp] theorem modPart_now (s : State) (p : Nat) (f : Partition → Partition) : (modPart s p f).now = s.now := rfl
@[simp] theorem modPart_agenda (s : State) (p : Nat) (f : Partition → Partition) : (modPart s p f).agenda = s.agenda := rfl
@[simp] theorem modPart_cursor (s : State) (p : Nat) (f : Partition → Partition) : (modPart s p f).cursor = s.cursor := rfl
@[simp] theorem modPart_fresh (s : State) (p : Nat) (f : Partition → Partition) : (modPart s p f).fresh = s.fresh := rfl
@[simp] theorem modPart_cur (s : State) (p : Nat) (f : Partition → Partition) : (modPart s p f).cur = s.cur := rfl
@[simp] theorem modPart_mem (s : State) (p : Nat) (f : Partition → Partition) : (modPart s p f).mem = s.mem := rfl
@[simp] theorem modPart_dcBase (s : State) (p : Nat) (f : Partition → Partition) : (modPart s p f).dcBase = s.dcBase := rfl
@[simp] theorem modPart_dcOff (s : State) (p : Nat) (f : Partition → Partition) : (modPart s p f).dcOff = s.dcOff := rfl
@[simp] theorem modPart_featEn (s : State) (p : Nat) (f : Partition → Partition) : (modPart s p f).featEn = s.featEn := rfl
@[simp] theorem modPart_featCap (s : State) (p : Nat) (f : Partition → Partition) : (modPart s p f).featCap = s.featCap := rfl
@[simp] theorem modPart_featLocked (s : State) (p : Nat) (f : Partition → Partition) : (modPart s p f).featLocked = s.featLocked := rfl
@[simp] theorem modPart_merr (s : State) (p : Nat) (f : Partition → Partition) : (modPart s p f).merr = s.merr := rfl
@[simp] theorem modPart_start (s : State) (p : Nat) (f : Partition → Partition) : (modPart s p f).start = s.start := rfl
@[simp] theorem modPart_nvRetired (s : State) (p : Nat) (f : Partition → Partition) : (modPart s p f).nvRetired = s.nvRetired := rfl
@[simp] theorem modPart_fuseRetired (s : State) (p : Nat) (f : Partition → Partition) : (modPart s p f).fuseRetired = s.fuseRetired := rfl
@[simp] theorem modPart_flagged (s : State) (p : Nat) (f : Partition → Partition) : (modPart s p f).flagged = s.flagged := rfl
@[simp] theorem modPart_testing (s : State) (p : Nat) (f : Partition → Partition) : (modPart s p f).testing = s.testing := rfl
@[simp] theorem modPart_leaf (s : State) (p : Nat) (f : Partition → Partition) : (modPart s p f).leaf = s.leaf := rfl
@[simp] theorem modPart_leafFuses (s : State) (p : Nat) (f : Partition → Partition) : (modPart s p f).leafFuses = s.leafFuses := rfl
@[simp] theorem modPart_minVersion (s : State) (p : Nat) (f : Partition → Partition) : (modPart s p f).minVersion = s.minVersion := rfl
@[simp] theorem modPart_image (s : State) (p : Nat) (f : Partition → Partition) : (modPart s p f).image = s.image := rfl
@[simp] theorem modPart_spdm (s : State) (p : Nat) (f : Partition → Partition) : (modPart s p f).spdm = s.spdm := rfl
@[simp] theorem modPart_outbox (s : State) (p : Nat) (f : Partition → Partition) : (modPart s p f).outbox = s.outbox := rfl
@[simp] theorem modPart_regions (s : State) (p : Nat) (f : Partition → Partition) : (modPart s p f).regions = s.regions := rfl
@[simp] theorem modPart_dies (s : State) (p : Nat) (f : Partition → Partition) : (modPart s p f).dies = s.dies := rfl
@[simp] theorem modPart_cores (s : State) (p : Nat) (f : Partition → Partition) : (modPart s p f).cores = s.cores := rfl
@[simp] theorem modPart_routers (s : State) (p : Nat) (f : Partition → Partition) : (modPart s p f).routers = s.routers := rfl
@[simp] theorem modPart_slices (s : State) (p : Nat) (f : Partition → Partition) : (modPart s p f).slices = s.slices := rfl
@[simp] theorem modPart_net (s : State) (p : Nat) (f : Partition → Partition) : (modPart s p f).net = s.net := rfl
@[simp] theorem modPart_anchors (s : State) (p : Nat) (f : Partition → Partition) : (modPart s p f).anchors = s.anchors := rfl
@[simp] theorem modPart_outstanding (s : State) (p : Nat) (f : Partition → Partition) : (modPart s p f).outstanding = s.outstanding := rfl
@[simp] theorem modPart_seqs (s : State) (p : Nat) (f : Partition → Partition) : (modPart s p f).seqs = s.seqs := rfl
@[simp] theorem modPart_dups (s : State) (p : Nat) (f : Partition → Partition) : (modPart s p f).dups = s.dups := rfl
@[simp] theorem modPart_proxies (s : State) (p : Nat) (f : Partition → Partition) : (modPart s p f).proxies = s.proxies := rfl
@[simp] theorem modPart_hostLines (s : State) (p : Nat) (f : Partition → Partition) : (modPart s p f).hostLines = s.hostLines := rfl
@[simp] theorem modPart_hostReqs (s : State) (p : Nat) (f : Partition → Partition) : (modPart s p f).hostReqs = s.hostReqs := rfl
@[simp] theorem modPart_tiles (s : State) (p : Nat) (f : Partition → Partition) : (modPart s p f).tiles = s.tiles := rfl
@[simp] theorem modPart_tileReqs (s : State) (p : Nat) (f : Partition → Partition) : (modPart s p f).tileReqs = s.tileReqs := rfl
@[simp] theorem modPart_incs (s : State) (p : Nat) (f : Partition → Partition) : (modPart s p f).incs = s.incs := rfl
@[simp] theorem modPart_semWaits (s : State) (p : Nat) (f : Partition → Partition) : (modPart s p f).semWaits = s.semWaits := rfl
@[simp] theorem modPart_msgs (s : State) (p : Nat) (f : Partition → Partition) : (modPart s p f).msgs = s.msgs := rfl
@[simp] theorem modPart_walks (s : State) (p : Nat) (f : Partition → Partition) : (modPart s p f).walks = s.walks := rfl
@[simp] theorem modPart_wpHits (s : State) (p : Nat) (f : Partition → Partition) : (modPart s p f).wpHits = s.wpHits := rfl
@[simp] theorem modPart_pasids (s : State) (p : Nat) (f : Partition → Partition) : (modPart s p f).pasids = s.pasids := rfl
@[simp] theorem modPart_hot (s : State) (p : Nat) (f : Partition → Partition) : (modPart s p f).hot = s.hot := rfl

@[simp] theorem modGrid_now (s : State) (p q : Nat) (f : Grid → Grid) : (modGrid s p q f).now = s.now := rfl
@[simp] theorem modGrid_agenda (s : State) (p q : Nat) (f : Grid → Grid) : (modGrid s p q f).agenda = s.agenda := rfl
@[simp] theorem modGrid_cursor (s : State) (p q : Nat) (f : Grid → Grid) : (modGrid s p q f).cursor = s.cursor := rfl
@[simp] theorem modGrid_fresh (s : State) (p q : Nat) (f : Grid → Grid) : (modGrid s p q f).fresh = s.fresh := rfl
@[simp] theorem modGrid_cur (s : State) (p q : Nat) (f : Grid → Grid) : (modGrid s p q f).cur = s.cur := rfl
@[simp] theorem modGrid_mem (s : State) (p q : Nat) (f : Grid → Grid) : (modGrid s p q f).mem = s.mem := rfl
@[simp] theorem modGrid_dcBase (s : State) (p q : Nat) (f : Grid → Grid) : (modGrid s p q f).dcBase = s.dcBase := rfl
@[simp] theorem modGrid_dcOff (s : State) (p q : Nat) (f : Grid → Grid) : (modGrid s p q f).dcOff = s.dcOff := rfl
@[simp] theorem modGrid_featEn (s : State) (p q : Nat) (f : Grid → Grid) : (modGrid s p q f).featEn = s.featEn := rfl
@[simp] theorem modGrid_featCap (s : State) (p q : Nat) (f : Grid → Grid) : (modGrid s p q f).featCap = s.featCap := rfl
@[simp] theorem modGrid_featLocked (s : State) (p q : Nat) (f : Grid → Grid) : (modGrid s p q f).featLocked = s.featLocked := rfl
@[simp] theorem modGrid_merr (s : State) (p q : Nat) (f : Grid → Grid) : (modGrid s p q f).merr = s.merr := rfl
@[simp] theorem modGrid_start (s : State) (p q : Nat) (f : Grid → Grid) : (modGrid s p q f).start = s.start := rfl
@[simp] theorem modGrid_nvRetired (s : State) (p q : Nat) (f : Grid → Grid) : (modGrid s p q f).nvRetired = s.nvRetired := rfl
@[simp] theorem modGrid_fuseRetired (s : State) (p q : Nat) (f : Grid → Grid) : (modGrid s p q f).fuseRetired = s.fuseRetired := rfl
@[simp] theorem modGrid_flagged (s : State) (p q : Nat) (f : Grid → Grid) : (modGrid s p q f).flagged = s.flagged := rfl
@[simp] theorem modGrid_testing (s : State) (p q : Nat) (f : Grid → Grid) : (modGrid s p q f).testing = s.testing := rfl
@[simp] theorem modGrid_leaf (s : State) (p q : Nat) (f : Grid → Grid) : (modGrid s p q f).leaf = s.leaf := rfl
@[simp] theorem modGrid_leafFuses (s : State) (p q : Nat) (f : Grid → Grid) : (modGrid s p q f).leafFuses = s.leafFuses := rfl
@[simp] theorem modGrid_minVersion (s : State) (p q : Nat) (f : Grid → Grid) : (modGrid s p q f).minVersion = s.minVersion := rfl
@[simp] theorem modGrid_image (s : State) (p q : Nat) (f : Grid → Grid) : (modGrid s p q f).image = s.image := rfl
@[simp] theorem modGrid_spdm (s : State) (p q : Nat) (f : Grid → Grid) : (modGrid s p q f).spdm = s.spdm := rfl
@[simp] theorem modGrid_outbox (s : State) (p q : Nat) (f : Grid → Grid) : (modGrid s p q f).outbox = s.outbox := rfl
@[simp] theorem modGrid_regions (s : State) (p q : Nat) (f : Grid → Grid) : (modGrid s p q f).regions = s.regions := rfl
@[simp] theorem modGrid_dies (s : State) (p q : Nat) (f : Grid → Grid) : (modGrid s p q f).dies = s.dies := rfl
@[simp] theorem modGrid_cores (s : State) (p q : Nat) (f : Grid → Grid) : (modGrid s p q f).cores = s.cores := rfl
@[simp] theorem modGrid_routers (s : State) (p q : Nat) (f : Grid → Grid) : (modGrid s p q f).routers = s.routers := rfl
@[simp] theorem modGrid_slices (s : State) (p q : Nat) (f : Grid → Grid) : (modGrid s p q f).slices = s.slices := rfl
@[simp] theorem modGrid_net (s : State) (p q : Nat) (f : Grid → Grid) : (modGrid s p q f).net = s.net := rfl
@[simp] theorem modGrid_anchors (s : State) (p q : Nat) (f : Grid → Grid) : (modGrid s p q f).anchors = s.anchors := rfl
@[simp] theorem modGrid_outstanding (s : State) (p q : Nat) (f : Grid → Grid) : (modGrid s p q f).outstanding = s.outstanding := rfl
@[simp] theorem modGrid_seqs (s : State) (p q : Nat) (f : Grid → Grid) : (modGrid s p q f).seqs = s.seqs := rfl
@[simp] theorem modGrid_dups (s : State) (p q : Nat) (f : Grid → Grid) : (modGrid s p q f).dups = s.dups := rfl
@[simp] theorem modGrid_proxies (s : State) (p q : Nat) (f : Grid → Grid) : (modGrid s p q f).proxies = s.proxies := rfl
@[simp] theorem modGrid_hostLines (s : State) (p q : Nat) (f : Grid → Grid) : (modGrid s p q f).hostLines = s.hostLines := rfl
@[simp] theorem modGrid_hostReqs (s : State) (p q : Nat) (f : Grid → Grid) : (modGrid s p q f).hostReqs = s.hostReqs := rfl
@[simp] theorem modGrid_tiles (s : State) (p q : Nat) (f : Grid → Grid) : (modGrid s p q f).tiles = s.tiles := rfl
@[simp] theorem modGrid_tileReqs (s : State) (p q : Nat) (f : Grid → Grid) : (modGrid s p q f).tileReqs = s.tileReqs := rfl
@[simp] theorem modGrid_incs (s : State) (p q : Nat) (f : Grid → Grid) : (modGrid s p q f).incs = s.incs := rfl
@[simp] theorem modGrid_semWaits (s : State) (p q : Nat) (f : Grid → Grid) : (modGrid s p q f).semWaits = s.semWaits := rfl
@[simp] theorem modGrid_msgs (s : State) (p q : Nat) (f : Grid → Grid) : (modGrid s p q f).msgs = s.msgs := rfl
@[simp] theorem modGrid_walks (s : State) (p q : Nat) (f : Grid → Grid) : (modGrid s p q f).walks = s.walks := rfl
@[simp] theorem modGrid_wpHits (s : State) (p q : Nat) (f : Grid → Grid) : (modGrid s p q f).wpHits = s.wpHits := rfl
@[simp] theorem modGrid_pasids (s : State) (p q : Nat) (f : Grid → Grid) : (modGrid s p q f).pasids = s.pasids := rfl
@[simp] theorem modGrid_hot (s : State) (p q : Nat) (f : Grid → Grid) : (modGrid s p q f).hot = s.hot := rfl

@[simp] theorem modDie_now (s : State) (d : Nat) (f : Die → Die) : (modDie s d f).now = s.now := rfl
@[simp] theorem modDie_agenda (s : State) (d : Nat) (f : Die → Die) : (modDie s d f).agenda = s.agenda := rfl
@[simp] theorem modDie_cursor (s : State) (d : Nat) (f : Die → Die) : (modDie s d f).cursor = s.cursor := rfl
@[simp] theorem modDie_fresh (s : State) (d : Nat) (f : Die → Die) : (modDie s d f).fresh = s.fresh := rfl
@[simp] theorem modDie_cur (s : State) (d : Nat) (f : Die → Die) : (modDie s d f).cur = s.cur := rfl
@[simp] theorem modDie_mem (s : State) (d : Nat) (f : Die → Die) : (modDie s d f).mem = s.mem := rfl
@[simp] theorem modDie_dcBase (s : State) (d : Nat) (f : Die → Die) : (modDie s d f).dcBase = s.dcBase := rfl
@[simp] theorem modDie_dcOff (s : State) (d : Nat) (f : Die → Die) : (modDie s d f).dcOff = s.dcOff := rfl
@[simp] theorem modDie_featEn (s : State) (d : Nat) (f : Die → Die) : (modDie s d f).featEn = s.featEn := rfl
@[simp] theorem modDie_featCap (s : State) (d : Nat) (f : Die → Die) : (modDie s d f).featCap = s.featCap := rfl
@[simp] theorem modDie_featLocked (s : State) (d : Nat) (f : Die → Die) : (modDie s d f).featLocked = s.featLocked := rfl
@[simp] theorem modDie_merr (s : State) (d : Nat) (f : Die → Die) : (modDie s d f).merr = s.merr := rfl
@[simp] theorem modDie_start (s : State) (d : Nat) (f : Die → Die) : (modDie s d f).start = s.start := rfl
@[simp] theorem modDie_nvRetired (s : State) (d : Nat) (f : Die → Die) : (modDie s d f).nvRetired = s.nvRetired := rfl
@[simp] theorem modDie_fuseRetired (s : State) (d : Nat) (f : Die → Die) : (modDie s d f).fuseRetired = s.fuseRetired := rfl
@[simp] theorem modDie_flagged (s : State) (d : Nat) (f : Die → Die) : (modDie s d f).flagged = s.flagged := rfl
@[simp] theorem modDie_testing (s : State) (d : Nat) (f : Die → Die) : (modDie s d f).testing = s.testing := rfl
@[simp] theorem modDie_leaf (s : State) (d : Nat) (f : Die → Die) : (modDie s d f).leaf = s.leaf := rfl
@[simp] theorem modDie_leafFuses (s : State) (d : Nat) (f : Die → Die) : (modDie s d f).leafFuses = s.leafFuses := rfl
@[simp] theorem modDie_minVersion (s : State) (d : Nat) (f : Die → Die) : (modDie s d f).minVersion = s.minVersion := rfl
@[simp] theorem modDie_image (s : State) (d : Nat) (f : Die → Die) : (modDie s d f).image = s.image := rfl
@[simp] theorem modDie_spdm (s : State) (d : Nat) (f : Die → Die) : (modDie s d f).spdm = s.spdm := rfl
@[simp] theorem modDie_outbox (s : State) (d : Nat) (f : Die → Die) : (modDie s d f).outbox = s.outbox := rfl
@[simp] theorem modDie_regions (s : State) (d : Nat) (f : Die → Die) : (modDie s d f).regions = s.regions := rfl
@[simp] theorem modDie_cores (s : State) (d : Nat) (f : Die → Die) : (modDie s d f).cores = s.cores := rfl
@[simp] theorem modDie_routers (s : State) (d : Nat) (f : Die → Die) : (modDie s d f).routers = s.routers := rfl
@[simp] theorem modDie_slices (s : State) (d : Nat) (f : Die → Die) : (modDie s d f).slices = s.slices := rfl
@[simp] theorem modDie_parts (s : State) (d : Nat) (f : Die → Die) : (modDie s d f).parts = s.parts := rfl
@[simp] theorem modDie_net (s : State) (d : Nat) (f : Die → Die) : (modDie s d f).net = s.net := rfl
@[simp] theorem modDie_anchors (s : State) (d : Nat) (f : Die → Die) : (modDie s d f).anchors = s.anchors := rfl
@[simp] theorem modDie_outstanding (s : State) (d : Nat) (f : Die → Die) : (modDie s d f).outstanding = s.outstanding := rfl
@[simp] theorem modDie_seqs (s : State) (d : Nat) (f : Die → Die) : (modDie s d f).seqs = s.seqs := rfl
@[simp] theorem modDie_dups (s : State) (d : Nat) (f : Die → Die) : (modDie s d f).dups = s.dups := rfl
@[simp] theorem modDie_proxies (s : State) (d : Nat) (f : Die → Die) : (modDie s d f).proxies = s.proxies := rfl
@[simp] theorem modDie_hostLines (s : State) (d : Nat) (f : Die → Die) : (modDie s d f).hostLines = s.hostLines := rfl
@[simp] theorem modDie_hostReqs (s : State) (d : Nat) (f : Die → Die) : (modDie s d f).hostReqs = s.hostReqs := rfl
@[simp] theorem modDie_tiles (s : State) (d : Nat) (f : Die → Die) : (modDie s d f).tiles = s.tiles := rfl
@[simp] theorem modDie_tileReqs (s : State) (d : Nat) (f : Die → Die) : (modDie s d f).tileReqs = s.tileReqs := rfl
@[simp] theorem modDie_incs (s : State) (d : Nat) (f : Die → Die) : (modDie s d f).incs = s.incs := rfl
@[simp] theorem modDie_semWaits (s : State) (d : Nat) (f : Die → Die) : (modDie s d f).semWaits = s.semWaits := rfl
@[simp] theorem modDie_msgs (s : State) (d : Nat) (f : Die → Die) : (modDie s d f).msgs = s.msgs := rfl
@[simp] theorem modDie_walks (s : State) (d : Nat) (f : Die → Die) : (modDie s d f).walks = s.walks := rfl
@[simp] theorem modDie_wpHits (s : State) (d : Nat) (f : Die → Die) : (modDie s d f).wpHits = s.wpHits := rfl
@[simp] theorem modDie_pasids (s : State) (d : Nat) (f : Die → Die) : (modDie s d f).pasids = s.pasids := rfl
@[simp] theorem modDie_hot (s : State) (d : Nat) (f : Die → Die) : (modDie s d f).hot = s.hot := rfl

@[simp] theorem modRegion_now (s : State) (g : Nat) (f : Region → Region) : (modRegion s g f).now = s.now := rfl
@[simp] theorem modRegion_agenda (s : State) (g : Nat) (f : Region → Region) : (modRegion s g f).agenda = s.agenda := rfl
@[simp] theorem modRegion_cursor (s : State) (g : Nat) (f : Region → Region) : (modRegion s g f).cursor = s.cursor := rfl
@[simp] theorem modRegion_fresh (s : State) (g : Nat) (f : Region → Region) : (modRegion s g f).fresh = s.fresh := rfl
@[simp] theorem modRegion_cur (s : State) (g : Nat) (f : Region → Region) : (modRegion s g f).cur = s.cur := rfl
@[simp] theorem modRegion_mem (s : State) (g : Nat) (f : Region → Region) : (modRegion s g f).mem = s.mem := rfl
@[simp] theorem modRegion_dcBase (s : State) (g : Nat) (f : Region → Region) : (modRegion s g f).dcBase = s.dcBase := rfl
@[simp] theorem modRegion_dcOff (s : State) (g : Nat) (f : Region → Region) : (modRegion s g f).dcOff = s.dcOff := rfl
@[simp] theorem modRegion_featEn (s : State) (g : Nat) (f : Region → Region) : (modRegion s g f).featEn = s.featEn := rfl
@[simp] theorem modRegion_featCap (s : State) (g : Nat) (f : Region → Region) : (modRegion s g f).featCap = s.featCap := rfl
@[simp] theorem modRegion_featLocked (s : State) (g : Nat) (f : Region → Region) : (modRegion s g f).featLocked = s.featLocked := rfl
@[simp] theorem modRegion_merr (s : State) (g : Nat) (f : Region → Region) : (modRegion s g f).merr = s.merr := rfl
@[simp] theorem modRegion_start (s : State) (g : Nat) (f : Region → Region) : (modRegion s g f).start = s.start := rfl
@[simp] theorem modRegion_nvRetired (s : State) (g : Nat) (f : Region → Region) : (modRegion s g f).nvRetired = s.nvRetired := rfl
@[simp] theorem modRegion_fuseRetired (s : State) (g : Nat) (f : Region → Region) : (modRegion s g f).fuseRetired = s.fuseRetired := rfl
@[simp] theorem modRegion_flagged (s : State) (g : Nat) (f : Region → Region) : (modRegion s g f).flagged = s.flagged := rfl
@[simp] theorem modRegion_testing (s : State) (g : Nat) (f : Region → Region) : (modRegion s g f).testing = s.testing := rfl
@[simp] theorem modRegion_leaf (s : State) (g : Nat) (f : Region → Region) : (modRegion s g f).leaf = s.leaf := rfl
@[simp] theorem modRegion_leafFuses (s : State) (g : Nat) (f : Region → Region) : (modRegion s g f).leafFuses = s.leafFuses := rfl
@[simp] theorem modRegion_minVersion (s : State) (g : Nat) (f : Region → Region) : (modRegion s g f).minVersion = s.minVersion := rfl
@[simp] theorem modRegion_image (s : State) (g : Nat) (f : Region → Region) : (modRegion s g f).image = s.image := rfl
@[simp] theorem modRegion_spdm (s : State) (g : Nat) (f : Region → Region) : (modRegion s g f).spdm = s.spdm := rfl
@[simp] theorem modRegion_outbox (s : State) (g : Nat) (f : Region → Region) : (modRegion s g f).outbox = s.outbox := rfl
@[simp] theorem modRegion_dies (s : State) (g : Nat) (f : Region → Region) : (modRegion s g f).dies = s.dies := rfl
@[simp] theorem modRegion_cores (s : State) (g : Nat) (f : Region → Region) : (modRegion s g f).cores = s.cores := rfl
@[simp] theorem modRegion_routers (s : State) (g : Nat) (f : Region → Region) : (modRegion s g f).routers = s.routers := rfl
@[simp] theorem modRegion_slices (s : State) (g : Nat) (f : Region → Region) : (modRegion s g f).slices = s.slices := rfl
@[simp] theorem modRegion_parts (s : State) (g : Nat) (f : Region → Region) : (modRegion s g f).parts = s.parts := rfl
@[simp] theorem modRegion_net (s : State) (g : Nat) (f : Region → Region) : (modRegion s g f).net = s.net := rfl
@[simp] theorem modRegion_anchors (s : State) (g : Nat) (f : Region → Region) : (modRegion s g f).anchors = s.anchors := rfl
@[simp] theorem modRegion_outstanding (s : State) (g : Nat) (f : Region → Region) : (modRegion s g f).outstanding = s.outstanding := rfl
@[simp] theorem modRegion_seqs (s : State) (g : Nat) (f : Region → Region) : (modRegion s g f).seqs = s.seqs := rfl
@[simp] theorem modRegion_dups (s : State) (g : Nat) (f : Region → Region) : (modRegion s g f).dups = s.dups := rfl
@[simp] theorem modRegion_proxies (s : State) (g : Nat) (f : Region → Region) : (modRegion s g f).proxies = s.proxies := rfl
@[simp] theorem modRegion_hostLines (s : State) (g : Nat) (f : Region → Region) : (modRegion s g f).hostLines = s.hostLines := rfl
@[simp] theorem modRegion_hostReqs (s : State) (g : Nat) (f : Region → Region) : (modRegion s g f).hostReqs = s.hostReqs := rfl
@[simp] theorem modRegion_tiles (s : State) (g : Nat) (f : Region → Region) : (modRegion s g f).tiles = s.tiles := rfl
@[simp] theorem modRegion_tileReqs (s : State) (g : Nat) (f : Region → Region) : (modRegion s g f).tileReqs = s.tileReqs := rfl
@[simp] theorem modRegion_incs (s : State) (g : Nat) (f : Region → Region) : (modRegion s g f).incs = s.incs := rfl
@[simp] theorem modRegion_semWaits (s : State) (g : Nat) (f : Region → Region) : (modRegion s g f).semWaits = s.semWaits := rfl
@[simp] theorem modRegion_msgs (s : State) (g : Nat) (f : Region → Region) : (modRegion s g f).msgs = s.msgs := rfl
@[simp] theorem modRegion_walks (s : State) (g : Nat) (f : Region → Region) : (modRegion s g f).walks = s.walks := rfl
@[simp] theorem modRegion_wpHits (s : State) (g : Nat) (f : Region → Region) : (modRegion s g f).wpHits = s.wpHits := rfl
@[simp] theorem modRegion_pasids (s : State) (g : Nat) (f : Region → Region) : (modRegion s g f).pasids = s.pasids := rfl
@[simp] theorem modRegion_hot (s : State) (g : Nat) (f : Region → Region) : (modRegion s g f).hot = s.hot := rfl

@[simp] theorem modRouter_now (s : State) (n : Nat) (f : Router → Router) : (modRouter s n f).now = s.now := rfl
@[simp] theorem modRouter_agenda (s : State) (n : Nat) (f : Router → Router) : (modRouter s n f).agenda = s.agenda := rfl
@[simp] theorem modRouter_cursor (s : State) (n : Nat) (f : Router → Router) : (modRouter s n f).cursor = s.cursor := rfl
@[simp] theorem modRouter_fresh (s : State) (n : Nat) (f : Router → Router) : (modRouter s n f).fresh = s.fresh := rfl
@[simp] theorem modRouter_cur (s : State) (n : Nat) (f : Router → Router) : (modRouter s n f).cur = s.cur := rfl
@[simp] theorem modRouter_mem (s : State) (n : Nat) (f : Router → Router) : (modRouter s n f).mem = s.mem := rfl
@[simp] theorem modRouter_dcBase (s : State) (n : Nat) (f : Router → Router) : (modRouter s n f).dcBase = s.dcBase := rfl
@[simp] theorem modRouter_dcOff (s : State) (n : Nat) (f : Router → Router) : (modRouter s n f).dcOff = s.dcOff := rfl
@[simp] theorem modRouter_featEn (s : State) (n : Nat) (f : Router → Router) : (modRouter s n f).featEn = s.featEn := rfl
@[simp] theorem modRouter_featCap (s : State) (n : Nat) (f : Router → Router) : (modRouter s n f).featCap = s.featCap := rfl
@[simp] theorem modRouter_featLocked (s : State) (n : Nat) (f : Router → Router) : (modRouter s n f).featLocked = s.featLocked := rfl
@[simp] theorem modRouter_merr (s : State) (n : Nat) (f : Router → Router) : (modRouter s n f).merr = s.merr := rfl
@[simp] theorem modRouter_start (s : State) (n : Nat) (f : Router → Router) : (modRouter s n f).start = s.start := rfl
@[simp] theorem modRouter_nvRetired (s : State) (n : Nat) (f : Router → Router) : (modRouter s n f).nvRetired = s.nvRetired := rfl
@[simp] theorem modRouter_fuseRetired (s : State) (n : Nat) (f : Router → Router) : (modRouter s n f).fuseRetired = s.fuseRetired := rfl
@[simp] theorem modRouter_flagged (s : State) (n : Nat) (f : Router → Router) : (modRouter s n f).flagged = s.flagged := rfl
@[simp] theorem modRouter_testing (s : State) (n : Nat) (f : Router → Router) : (modRouter s n f).testing = s.testing := rfl
@[simp] theorem modRouter_leaf (s : State) (n : Nat) (f : Router → Router) : (modRouter s n f).leaf = s.leaf := rfl
@[simp] theorem modRouter_leafFuses (s : State) (n : Nat) (f : Router → Router) : (modRouter s n f).leafFuses = s.leafFuses := rfl
@[simp] theorem modRouter_minVersion (s : State) (n : Nat) (f : Router → Router) : (modRouter s n f).minVersion = s.minVersion := rfl
@[simp] theorem modRouter_image (s : State) (n : Nat) (f : Router → Router) : (modRouter s n f).image = s.image := rfl
@[simp] theorem modRouter_spdm (s : State) (n : Nat) (f : Router → Router) : (modRouter s n f).spdm = s.spdm := rfl
@[simp] theorem modRouter_outbox (s : State) (n : Nat) (f : Router → Router) : (modRouter s n f).outbox = s.outbox := rfl
@[simp] theorem modRouter_regions (s : State) (n : Nat) (f : Router → Router) : (modRouter s n f).regions = s.regions := rfl
@[simp] theorem modRouter_dies (s : State) (n : Nat) (f : Router → Router) : (modRouter s n f).dies = s.dies := rfl
@[simp] theorem modRouter_cores (s : State) (n : Nat) (f : Router → Router) : (modRouter s n f).cores = s.cores := rfl
@[simp] theorem modRouter_slices (s : State) (n : Nat) (f : Router → Router) : (modRouter s n f).slices = s.slices := rfl
@[simp] theorem modRouter_parts (s : State) (n : Nat) (f : Router → Router) : (modRouter s n f).parts = s.parts := rfl
@[simp] theorem modRouter_net (s : State) (n : Nat) (f : Router → Router) : (modRouter s n f).net = s.net := rfl
@[simp] theorem modRouter_anchors (s : State) (n : Nat) (f : Router → Router) : (modRouter s n f).anchors = s.anchors := rfl
@[simp] theorem modRouter_outstanding (s : State) (n : Nat) (f : Router → Router) : (modRouter s n f).outstanding = s.outstanding := rfl
@[simp] theorem modRouter_seqs (s : State) (n : Nat) (f : Router → Router) : (modRouter s n f).seqs = s.seqs := rfl
@[simp] theorem modRouter_dups (s : State) (n : Nat) (f : Router → Router) : (modRouter s n f).dups = s.dups := rfl
@[simp] theorem modRouter_proxies (s : State) (n : Nat) (f : Router → Router) : (modRouter s n f).proxies = s.proxies := rfl
@[simp] theorem modRouter_hostLines (s : State) (n : Nat) (f : Router → Router) : (modRouter s n f).hostLines = s.hostLines := rfl
@[simp] theorem modRouter_hostReqs (s : State) (n : Nat) (f : Router → Router) : (modRouter s n f).hostReqs = s.hostReqs := rfl
@[simp] theorem modRouter_tiles (s : State) (n : Nat) (f : Router → Router) : (modRouter s n f).tiles = s.tiles := rfl
@[simp] theorem modRouter_tileReqs (s : State) (n : Nat) (f : Router → Router) : (modRouter s n f).tileReqs = s.tileReqs := rfl
@[simp] theorem modRouter_incs (s : State) (n : Nat) (f : Router → Router) : (modRouter s n f).incs = s.incs := rfl
@[simp] theorem modRouter_semWaits (s : State) (n : Nat) (f : Router → Router) : (modRouter s n f).semWaits = s.semWaits := rfl
@[simp] theorem modRouter_msgs (s : State) (n : Nat) (f : Router → Router) : (modRouter s n f).msgs = s.msgs := rfl
@[simp] theorem modRouter_walks (s : State) (n : Nat) (f : Router → Router) : (modRouter s n f).walks = s.walks := rfl
@[simp] theorem modRouter_wpHits (s : State) (n : Nat) (f : Router → Router) : (modRouter s n f).wpHits = s.wpHits := rfl
@[simp] theorem modRouter_pasids (s : State) (n : Nat) (f : Router → Router) : (modRouter s n f).pasids = s.pasids := rfl
@[simp] theorem modRouter_hot (s : State) (n : Nat) (f : Router → Router) : (modRouter s n f).hot = s.hot := rfl

@[simp] theorem modSlice_now (s : State) (n : Nat) (f : Slice → Slice) : (modSlice s n f).now = s.now := rfl
@[simp] theorem modSlice_agenda (s : State) (n : Nat) (f : Slice → Slice) : (modSlice s n f).agenda = s.agenda := rfl
@[simp] theorem modSlice_cursor (s : State) (n : Nat) (f : Slice → Slice) : (modSlice s n f).cursor = s.cursor := rfl
@[simp] theorem modSlice_fresh (s : State) (n : Nat) (f : Slice → Slice) : (modSlice s n f).fresh = s.fresh := rfl
@[simp] theorem modSlice_cur (s : State) (n : Nat) (f : Slice → Slice) : (modSlice s n f).cur = s.cur := rfl
@[simp] theorem modSlice_mem (s : State) (n : Nat) (f : Slice → Slice) : (modSlice s n f).mem = s.mem := rfl
@[simp] theorem modSlice_dcBase (s : State) (n : Nat) (f : Slice → Slice) : (modSlice s n f).dcBase = s.dcBase := rfl
@[simp] theorem modSlice_dcOff (s : State) (n : Nat) (f : Slice → Slice) : (modSlice s n f).dcOff = s.dcOff := rfl
@[simp] theorem modSlice_featEn (s : State) (n : Nat) (f : Slice → Slice) : (modSlice s n f).featEn = s.featEn := rfl
@[simp] theorem modSlice_featCap (s : State) (n : Nat) (f : Slice → Slice) : (modSlice s n f).featCap = s.featCap := rfl
@[simp] theorem modSlice_featLocked (s : State) (n : Nat) (f : Slice → Slice) : (modSlice s n f).featLocked = s.featLocked := rfl
@[simp] theorem modSlice_merr (s : State) (n : Nat) (f : Slice → Slice) : (modSlice s n f).merr = s.merr := rfl
@[simp] theorem modSlice_start (s : State) (n : Nat) (f : Slice → Slice) : (modSlice s n f).start = s.start := rfl
@[simp] theorem modSlice_nvRetired (s : State) (n : Nat) (f : Slice → Slice) : (modSlice s n f).nvRetired = s.nvRetired := rfl
@[simp] theorem modSlice_fuseRetired (s : State) (n : Nat) (f : Slice → Slice) : (modSlice s n f).fuseRetired = s.fuseRetired := rfl
@[simp] theorem modSlice_flagged (s : State) (n : Nat) (f : Slice → Slice) : (modSlice s n f).flagged = s.flagged := rfl
@[simp] theorem modSlice_testing (s : State) (n : Nat) (f : Slice → Slice) : (modSlice s n f).testing = s.testing := rfl
@[simp] theorem modSlice_leaf (s : State) (n : Nat) (f : Slice → Slice) : (modSlice s n f).leaf = s.leaf := rfl
@[simp] theorem modSlice_leafFuses (s : State) (n : Nat) (f : Slice → Slice) : (modSlice s n f).leafFuses = s.leafFuses := rfl
@[simp] theorem modSlice_minVersion (s : State) (n : Nat) (f : Slice → Slice) : (modSlice s n f).minVersion = s.minVersion := rfl
@[simp] theorem modSlice_image (s : State) (n : Nat) (f : Slice → Slice) : (modSlice s n f).image = s.image := rfl
@[simp] theorem modSlice_spdm (s : State) (n : Nat) (f : Slice → Slice) : (modSlice s n f).spdm = s.spdm := rfl
@[simp] theorem modSlice_outbox (s : State) (n : Nat) (f : Slice → Slice) : (modSlice s n f).outbox = s.outbox := rfl
@[simp] theorem modSlice_regions (s : State) (n : Nat) (f : Slice → Slice) : (modSlice s n f).regions = s.regions := rfl
@[simp] theorem modSlice_dies (s : State) (n : Nat) (f : Slice → Slice) : (modSlice s n f).dies = s.dies := rfl
@[simp] theorem modSlice_cores (s : State) (n : Nat) (f : Slice → Slice) : (modSlice s n f).cores = s.cores := rfl
@[simp] theorem modSlice_routers (s : State) (n : Nat) (f : Slice → Slice) : (modSlice s n f).routers = s.routers := rfl
@[simp] theorem modSlice_parts (s : State) (n : Nat) (f : Slice → Slice) : (modSlice s n f).parts = s.parts := rfl
@[simp] theorem modSlice_net (s : State) (n : Nat) (f : Slice → Slice) : (modSlice s n f).net = s.net := rfl
@[simp] theorem modSlice_anchors (s : State) (n : Nat) (f : Slice → Slice) : (modSlice s n f).anchors = s.anchors := rfl
@[simp] theorem modSlice_outstanding (s : State) (n : Nat) (f : Slice → Slice) : (modSlice s n f).outstanding = s.outstanding := rfl
@[simp] theorem modSlice_seqs (s : State) (n : Nat) (f : Slice → Slice) : (modSlice s n f).seqs = s.seqs := rfl
@[simp] theorem modSlice_dups (s : State) (n : Nat) (f : Slice → Slice) : (modSlice s n f).dups = s.dups := rfl
@[simp] theorem modSlice_proxies (s : State) (n : Nat) (f : Slice → Slice) : (modSlice s n f).proxies = s.proxies := rfl
@[simp] theorem modSlice_hostLines (s : State) (n : Nat) (f : Slice → Slice) : (modSlice s n f).hostLines = s.hostLines := rfl
@[simp] theorem modSlice_hostReqs (s : State) (n : Nat) (f : Slice → Slice) : (modSlice s n f).hostReqs = s.hostReqs := rfl
@[simp] theorem modSlice_tiles (s : State) (n : Nat) (f : Slice → Slice) : (modSlice s n f).tiles = s.tiles := rfl
@[simp] theorem modSlice_tileReqs (s : State) (n : Nat) (f : Slice → Slice) : (modSlice s n f).tileReqs = s.tileReqs := rfl
@[simp] theorem modSlice_incs (s : State) (n : Nat) (f : Slice → Slice) : (modSlice s n f).incs = s.incs := rfl
@[simp] theorem modSlice_semWaits (s : State) (n : Nat) (f : Slice → Slice) : (modSlice s n f).semWaits = s.semWaits := rfl
@[simp] theorem modSlice_msgs (s : State) (n : Nat) (f : Slice → Slice) : (modSlice s n f).msgs = s.msgs := rfl
@[simp] theorem modSlice_walks (s : State) (n : Nat) (f : Slice → Slice) : (modSlice s n f).walks = s.walks := rfl
@[simp] theorem modSlice_wpHits (s : State) (n : Nat) (f : Slice → Slice) : (modSlice s n f).wpHits = s.wpHits := rfl
@[simp] theorem modSlice_pasids (s : State) (n : Nat) (f : Slice → Slice) : (modSlice s n f).pasids = s.pasids := rfl
@[simp] theorem modSlice_hot (s : State) (n : Nat) (f : Slice → Slice) : (modSlice s n f).hot = s.hot := rfl

@[simp] theorem bumpFresh_now (s : State) : (bumpFresh s).now = s.now := rfl
@[simp] theorem bumpFresh_agenda (s : State) : (bumpFresh s).agenda = s.agenda := rfl
@[simp] theorem bumpFresh_cursor (s : State) : (bumpFresh s).cursor = s.cursor := rfl
@[simp] theorem bumpFresh_cur (s : State) : (bumpFresh s).cur = s.cur := rfl
@[simp] theorem bumpFresh_mem (s : State) : (bumpFresh s).mem = s.mem := rfl
@[simp] theorem bumpFresh_dcBase (s : State) : (bumpFresh s).dcBase = s.dcBase := rfl
@[simp] theorem bumpFresh_dcOff (s : State) : (bumpFresh s).dcOff = s.dcOff := rfl
@[simp] theorem bumpFresh_featEn (s : State) : (bumpFresh s).featEn = s.featEn := rfl
@[simp] theorem bumpFresh_featCap (s : State) : (bumpFresh s).featCap = s.featCap := rfl
@[simp] theorem bumpFresh_featLocked (s : State) : (bumpFresh s).featLocked = s.featLocked := rfl
@[simp] theorem bumpFresh_merr (s : State) : (bumpFresh s).merr = s.merr := rfl
@[simp] theorem bumpFresh_start (s : State) : (bumpFresh s).start = s.start := rfl
@[simp] theorem bumpFresh_nvRetired (s : State) : (bumpFresh s).nvRetired = s.nvRetired := rfl
@[simp] theorem bumpFresh_fuseRetired (s : State) : (bumpFresh s).fuseRetired = s.fuseRetired := rfl
@[simp] theorem bumpFresh_flagged (s : State) : (bumpFresh s).flagged = s.flagged := rfl
@[simp] theorem bumpFresh_testing (s : State) : (bumpFresh s).testing = s.testing := rfl
@[simp] theorem bumpFresh_leaf (s : State) : (bumpFresh s).leaf = s.leaf := rfl
@[simp] theorem bumpFresh_leafFuses (s : State) : (bumpFresh s).leafFuses = s.leafFuses := rfl
@[simp] theorem bumpFresh_minVersion (s : State) : (bumpFresh s).minVersion = s.minVersion := rfl
@[simp] theorem bumpFresh_image (s : State) : (bumpFresh s).image = s.image := rfl
@[simp] theorem bumpFresh_spdm (s : State) : (bumpFresh s).spdm = s.spdm := rfl
@[simp] theorem bumpFresh_outbox (s : State) : (bumpFresh s).outbox = s.outbox := rfl
@[simp] theorem bumpFresh_regions (s : State) : (bumpFresh s).regions = s.regions := rfl
@[simp] theorem bumpFresh_dies (s : State) : (bumpFresh s).dies = s.dies := rfl
@[simp] theorem bumpFresh_cores (s : State) : (bumpFresh s).cores = s.cores := rfl
@[simp] theorem bumpFresh_routers (s : State) : (bumpFresh s).routers = s.routers := rfl
@[simp] theorem bumpFresh_slices (s : State) : (bumpFresh s).slices = s.slices := rfl
@[simp] theorem bumpFresh_parts (s : State) : (bumpFresh s).parts = s.parts := rfl
@[simp] theorem bumpFresh_net (s : State) : (bumpFresh s).net = s.net := rfl
@[simp] theorem bumpFresh_anchors (s : State) : (bumpFresh s).anchors = s.anchors := rfl
@[simp] theorem bumpFresh_outstanding (s : State) : (bumpFresh s).outstanding = s.outstanding := rfl
@[simp] theorem bumpFresh_seqs (s : State) : (bumpFresh s).seqs = s.seqs := rfl
@[simp] theorem bumpFresh_dups (s : State) : (bumpFresh s).dups = s.dups := rfl
@[simp] theorem bumpFresh_proxies (s : State) : (bumpFresh s).proxies = s.proxies := rfl
@[simp] theorem bumpFresh_hostLines (s : State) : (bumpFresh s).hostLines = s.hostLines := rfl
@[simp] theorem bumpFresh_hostReqs (s : State) : (bumpFresh s).hostReqs = s.hostReqs := rfl
@[simp] theorem bumpFresh_tiles (s : State) : (bumpFresh s).tiles = s.tiles := rfl
@[simp] theorem bumpFresh_tileReqs (s : State) : (bumpFresh s).tileReqs = s.tileReqs := rfl
@[simp] theorem bumpFresh_incs (s : State) : (bumpFresh s).incs = s.incs := rfl
@[simp] theorem bumpFresh_semWaits (s : State) : (bumpFresh s).semWaits = s.semWaits := rfl
@[simp] theorem bumpFresh_msgs (s : State) : (bumpFresh s).msgs = s.msgs := rfl
@[simp] theorem bumpFresh_walks (s : State) : (bumpFresh s).walks = s.walks := rfl
@[simp] theorem bumpFresh_wpHits (s : State) : (bumpFresh s).wpHits = s.wpHits := rfl
@[simp] theorem bumpFresh_pasids (s : State) : (bumpFresh s).pasids = s.pasids := rfl
@[simp] theorem bumpFresh_hot (s : State) : (bumpFresh s).hot = s.hot := rfl

@[simp] theorem post_now (s : State) (m : Msg) (l : Loc) (dt : Nat) : (post s m l dt).now = s.now := rfl
@[simp] theorem post_agenda (s : State) (m : Msg) (l : Loc) (dt : Nat) : (post s m l dt).agenda = s.agenda := rfl
@[simp] theorem post_cursor (s : State) (m : Msg) (l : Loc) (dt : Nat) : (post s m l dt).cursor = s.cursor := rfl
@[simp] theorem post_fresh (s : State) (m : Msg) (l : Loc) (dt : Nat) : (post s m l dt).fresh = s.fresh := rfl
@[simp] theorem post_cur (s : State) (m : Msg) (l : Loc) (dt : Nat) : (post s m l dt).cur = s.cur := rfl
@[simp] theorem post_mem (s : State) (m : Msg) (l : Loc) (dt : Nat) : (post s m l dt).mem = s.mem := rfl
@[simp] theorem post_dcBase (s : State) (m : Msg) (l : Loc) (dt : Nat) : (post s m l dt).dcBase = s.dcBase := rfl
@[simp] theorem post_dcOff (s : State) (m : Msg) (l : Loc) (dt : Nat) : (post s m l dt).dcOff = s.dcOff := rfl
@[simp] theorem post_featEn (s : State) (m : Msg) (l : Loc) (dt : Nat) : (post s m l dt).featEn = s.featEn := rfl
@[simp] theorem post_featCap (s : State) (m : Msg) (l : Loc) (dt : Nat) : (post s m l dt).featCap = s.featCap := rfl
@[simp] theorem post_featLocked (s : State) (m : Msg) (l : Loc) (dt : Nat) : (post s m l dt).featLocked = s.featLocked := rfl
@[simp] theorem post_merr (s : State) (m : Msg) (l : Loc) (dt : Nat) : (post s m l dt).merr = s.merr := rfl
@[simp] theorem post_start (s : State) (m : Msg) (l : Loc) (dt : Nat) : (post s m l dt).start = s.start := rfl
@[simp] theorem post_nvRetired (s : State) (m : Msg) (l : Loc) (dt : Nat) : (post s m l dt).nvRetired = s.nvRetired := rfl
@[simp] theorem post_fuseRetired (s : State) (m : Msg) (l : Loc) (dt : Nat) : (post s m l dt).fuseRetired = s.fuseRetired := rfl
@[simp] theorem post_flagged (s : State) (m : Msg) (l : Loc) (dt : Nat) : (post s m l dt).flagged = s.flagged := rfl
@[simp] theorem post_testing (s : State) (m : Msg) (l : Loc) (dt : Nat) : (post s m l dt).testing = s.testing := rfl
@[simp] theorem post_leaf (s : State) (m : Msg) (l : Loc) (dt : Nat) : (post s m l dt).leaf = s.leaf := rfl
@[simp] theorem post_leafFuses (s : State) (m : Msg) (l : Loc) (dt : Nat) : (post s m l dt).leafFuses = s.leafFuses := rfl
@[simp] theorem post_minVersion (s : State) (m : Msg) (l : Loc) (dt : Nat) : (post s m l dt).minVersion = s.minVersion := rfl
@[simp] theorem post_image (s : State) (m : Msg) (l : Loc) (dt : Nat) : (post s m l dt).image = s.image := rfl
@[simp] theorem post_spdm (s : State) (m : Msg) (l : Loc) (dt : Nat) : (post s m l dt).spdm = s.spdm := rfl
@[simp] theorem post_outbox (s : State) (m : Msg) (l : Loc) (dt : Nat) : (post s m l dt).outbox = s.outbox := rfl
@[simp] theorem post_regions (s : State) (m : Msg) (l : Loc) (dt : Nat) : (post s m l dt).regions = s.regions := rfl
@[simp] theorem post_dies (s : State) (m : Msg) (l : Loc) (dt : Nat) : (post s m l dt).dies = s.dies := rfl
@[simp] theorem post_cores (s : State) (m : Msg) (l : Loc) (dt : Nat) : (post s m l dt).cores = s.cores := rfl
@[simp] theorem post_routers (s : State) (m : Msg) (l : Loc) (dt : Nat) : (post s m l dt).routers = s.routers := rfl
@[simp] theorem post_slices (s : State) (m : Msg) (l : Loc) (dt : Nat) : (post s m l dt).slices = s.slices := rfl
@[simp] theorem post_parts (s : State) (m : Msg) (l : Loc) (dt : Nat) : (post s m l dt).parts = s.parts := rfl
@[simp] theorem post_anchors (s : State) (m : Msg) (l : Loc) (dt : Nat) : (post s m l dt).anchors = s.anchors := rfl
@[simp] theorem post_outstanding (s : State) (m : Msg) (l : Loc) (dt : Nat) : (post s m l dt).outstanding = s.outstanding := rfl
@[simp] theorem post_seqs (s : State) (m : Msg) (l : Loc) (dt : Nat) : (post s m l dt).seqs = s.seqs := rfl
@[simp] theorem post_dups (s : State) (m : Msg) (l : Loc) (dt : Nat) : (post s m l dt).dups = s.dups := rfl
@[simp] theorem post_proxies (s : State) (m : Msg) (l : Loc) (dt : Nat) : (post s m l dt).proxies = s.proxies := rfl
@[simp] theorem post_hostLines (s : State) (m : Msg) (l : Loc) (dt : Nat) : (post s m l dt).hostLines = s.hostLines := rfl
@[simp] theorem post_hostReqs (s : State) (m : Msg) (l : Loc) (dt : Nat) : (post s m l dt).hostReqs = s.hostReqs := rfl
@[simp] theorem post_tiles (s : State) (m : Msg) (l : Loc) (dt : Nat) : (post s m l dt).tiles = s.tiles := rfl
@[simp] theorem post_tileReqs (s : State) (m : Msg) (l : Loc) (dt : Nat) : (post s m l dt).tileReqs = s.tileReqs := rfl
@[simp] theorem post_incs (s : State) (m : Msg) (l : Loc) (dt : Nat) : (post s m l dt).incs = s.incs := rfl
@[simp] theorem post_semWaits (s : State) (m : Msg) (l : Loc) (dt : Nat) : (post s m l dt).semWaits = s.semWaits := rfl
@[simp] theorem post_msgs (s : State) (m : Msg) (l : Loc) (dt : Nat) : (post s m l dt).msgs = s.msgs := rfl
@[simp] theorem post_walks (s : State) (m : Msg) (l : Loc) (dt : Nat) : (post s m l dt).walks = s.walks := rfl
@[simp] theorem post_wpHits (s : State) (m : Msg) (l : Loc) (dt : Nat) : (post s m l dt).wpHits = s.wpHits := rfl
@[simp] theorem post_pasids (s : State) (m : Msg) (l : Loc) (dt : Nat) : (post s m l dt).pasids = s.pasids := rfl
@[simp] theorem post_hot (s : State) (m : Msg) (l : Loc) (dt : Nat) : (post s m l dt).hot = s.hot := rfl

@[simp] theorem dropMsg_now (s : State) (i : Nat) : (dropMsg s i).now = s.now := rfl
@[simp] theorem dropMsg_agenda (s : State) (i : Nat) : (dropMsg s i).agenda = s.agenda := rfl
@[simp] theorem dropMsg_cursor (s : State) (i : Nat) : (dropMsg s i).cursor = s.cursor := rfl
@[simp] theorem dropMsg_fresh (s : State) (i : Nat) : (dropMsg s i).fresh = s.fresh := rfl
@[simp] theorem dropMsg_cur (s : State) (i : Nat) : (dropMsg s i).cur = s.cur := rfl
@[simp] theorem dropMsg_mem (s : State) (i : Nat) : (dropMsg s i).mem = s.mem := rfl
@[simp] theorem dropMsg_dcBase (s : State) (i : Nat) : (dropMsg s i).dcBase = s.dcBase := rfl
@[simp] theorem dropMsg_dcOff (s : State) (i : Nat) : (dropMsg s i).dcOff = s.dcOff := rfl
@[simp] theorem dropMsg_featEn (s : State) (i : Nat) : (dropMsg s i).featEn = s.featEn := rfl
@[simp] theorem dropMsg_featCap (s : State) (i : Nat) : (dropMsg s i).featCap = s.featCap := rfl
@[simp] theorem dropMsg_featLocked (s : State) (i : Nat) : (dropMsg s i).featLocked = s.featLocked := rfl
@[simp] theorem dropMsg_merr (s : State) (i : Nat) : (dropMsg s i).merr = s.merr := rfl
@[simp] theorem dropMsg_start (s : State) (i : Nat) : (dropMsg s i).start = s.start := rfl
@[simp] theorem dropMsg_nvRetired (s : State) (i : Nat) : (dropMsg s i).nvRetired = s.nvRetired := rfl
@[simp] theorem dropMsg_fuseRetired (s : State) (i : Nat) : (dropMsg s i).fuseRetired = s.fuseRetired := rfl
@[simp] theorem dropMsg_flagged (s : State) (i : Nat) : (dropMsg s i).flagged = s.flagged := rfl
@[simp] theorem dropMsg_testing (s : State) (i : Nat) : (dropMsg s i).testing = s.testing := rfl
@[simp] theorem dropMsg_leaf (s : State) (i : Nat) : (dropMsg s i).leaf = s.leaf := rfl
@[simp] theorem dropMsg_leafFuses (s : State) (i : Nat) : (dropMsg s i).leafFuses = s.leafFuses := rfl
@[simp] theorem dropMsg_minVersion (s : State) (i : Nat) : (dropMsg s i).minVersion = s.minVersion := rfl
@[simp] theorem dropMsg_image (s : State) (i : Nat) : (dropMsg s i).image = s.image := rfl
@[simp] theorem dropMsg_spdm (s : State) (i : Nat) : (dropMsg s i).spdm = s.spdm := rfl
@[simp] theorem dropMsg_outbox (s : State) (i : Nat) : (dropMsg s i).outbox = s.outbox := rfl
@[simp] theorem dropMsg_regions (s : State) (i : Nat) : (dropMsg s i).regions = s.regions := rfl
@[simp] theorem dropMsg_dies (s : State) (i : Nat) : (dropMsg s i).dies = s.dies := rfl
@[simp] theorem dropMsg_cores (s : State) (i : Nat) : (dropMsg s i).cores = s.cores := rfl
@[simp] theorem dropMsg_routers (s : State) (i : Nat) : (dropMsg s i).routers = s.routers := rfl
@[simp] theorem dropMsg_slices (s : State) (i : Nat) : (dropMsg s i).slices = s.slices := rfl
@[simp] theorem dropMsg_parts (s : State) (i : Nat) : (dropMsg s i).parts = s.parts := rfl
@[simp] theorem dropMsg_anchors (s : State) (i : Nat) : (dropMsg s i).anchors = s.anchors := rfl
@[simp] theorem dropMsg_outstanding (s : State) (i : Nat) : (dropMsg s i).outstanding = s.outstanding := rfl
@[simp] theorem dropMsg_seqs (s : State) (i : Nat) : (dropMsg s i).seqs = s.seqs := rfl
@[simp] theorem dropMsg_dups (s : State) (i : Nat) : (dropMsg s i).dups = s.dups := rfl
@[simp] theorem dropMsg_proxies (s : State) (i : Nat) : (dropMsg s i).proxies = s.proxies := rfl
@[simp] theorem dropMsg_hostLines (s : State) (i : Nat) : (dropMsg s i).hostLines = s.hostLines := rfl
@[simp] theorem dropMsg_hostReqs (s : State) (i : Nat) : (dropMsg s i).hostReqs = s.hostReqs := rfl
@[simp] theorem dropMsg_tiles (s : State) (i : Nat) : (dropMsg s i).tiles = s.tiles := rfl
@[simp] theorem dropMsg_tileReqs (s : State) (i : Nat) : (dropMsg s i).tileReqs = s.tileReqs := rfl
@[simp] theorem dropMsg_incs (s : State) (i : Nat) : (dropMsg s i).incs = s.incs := rfl
@[simp] theorem dropMsg_semWaits (s : State) (i : Nat) : (dropMsg s i).semWaits = s.semWaits := rfl
@[simp] theorem dropMsg_msgs (s : State) (i : Nat) : (dropMsg s i).msgs = s.msgs := rfl
@[simp] theorem dropMsg_walks (s : State) (i : Nat) : (dropMsg s i).walks = s.walks := rfl
@[simp] theorem dropMsg_wpHits (s : State) (i : Nat) : (dropMsg s i).wpHits = s.wpHits := rfl
@[simp] theorem dropMsg_pasids (s : State) (i : Nat) : (dropMsg s i).pasids = s.pasids := rfl
@[simp] theorem dropMsg_hot (s : State) (i : Nat) : (dropMsg s i).hot = s.hot := rfl

@[simp] theorem putG_now (s : State) (x : Ctx) (g : Group) : (putG s x g).now = s.now := rfl
@[simp] theorem putG_agenda (s : State) (x : Ctx) (g : Group) : (putG s x g).agenda = s.agenda := rfl
@[simp] theorem putG_cursor (s : State) (x : Ctx) (g : Group) : (putG s x g).cursor = s.cursor := rfl
@[simp] theorem putG_fresh (s : State) (x : Ctx) (g : Group) : (putG s x g).fresh = s.fresh := rfl
@[simp] theorem putG_cur (s : State) (x : Ctx) (g : Group) : (putG s x g).cur = s.cur := rfl
@[simp] theorem putG_mem (s : State) (x : Ctx) (g : Group) : (putG s x g).mem = s.mem := rfl
@[simp] theorem putG_dcBase (s : State) (x : Ctx) (g : Group) : (putG s x g).dcBase = s.dcBase := rfl
@[simp] theorem putG_dcOff (s : State) (x : Ctx) (g : Group) : (putG s x g).dcOff = s.dcOff := rfl
@[simp] theorem putG_featEn (s : State) (x : Ctx) (g : Group) : (putG s x g).featEn = s.featEn := rfl
@[simp] theorem putG_featCap (s : State) (x : Ctx) (g : Group) : (putG s x g).featCap = s.featCap := rfl
@[simp] theorem putG_featLocked (s : State) (x : Ctx) (g : Group) : (putG s x g).featLocked = s.featLocked := rfl
@[simp] theorem putG_merr (s : State) (x : Ctx) (g : Group) : (putG s x g).merr = s.merr := rfl
@[simp] theorem putG_start (s : State) (x : Ctx) (g : Group) : (putG s x g).start = s.start := rfl
@[simp] theorem putG_nvRetired (s : State) (x : Ctx) (g : Group) : (putG s x g).nvRetired = s.nvRetired := rfl
@[simp] theorem putG_fuseRetired (s : State) (x : Ctx) (g : Group) : (putG s x g).fuseRetired = s.fuseRetired := rfl
@[simp] theorem putG_flagged (s : State) (x : Ctx) (g : Group) : (putG s x g).flagged = s.flagged := rfl
@[simp] theorem putG_testing (s : State) (x : Ctx) (g : Group) : (putG s x g).testing = s.testing := rfl
@[simp] theorem putG_leaf (s : State) (x : Ctx) (g : Group) : (putG s x g).leaf = s.leaf := rfl
@[simp] theorem putG_leafFuses (s : State) (x : Ctx) (g : Group) : (putG s x g).leafFuses = s.leafFuses := rfl
@[simp] theorem putG_minVersion (s : State) (x : Ctx) (g : Group) : (putG s x g).minVersion = s.minVersion := rfl
@[simp] theorem putG_image (s : State) (x : Ctx) (g : Group) : (putG s x g).image = s.image := rfl
@[simp] theorem putG_spdm (s : State) (x : Ctx) (g : Group) : (putG s x g).spdm = s.spdm := rfl
@[simp] theorem putG_outbox (s : State) (x : Ctx) (g : Group) : (putG s x g).outbox = s.outbox := rfl
@[simp] theorem putG_regions (s : State) (x : Ctx) (g : Group) : (putG s x g).regions = s.regions := rfl
@[simp] theorem putG_dies (s : State) (x : Ctx) (g : Group) : (putG s x g).dies = s.dies := rfl
@[simp] theorem putG_routers (s : State) (x : Ctx) (g : Group) : (putG s x g).routers = s.routers := rfl
@[simp] theorem putG_slices (s : State) (x : Ctx) (g : Group) : (putG s x g).slices = s.slices := rfl
@[simp] theorem putG_parts (s : State) (x : Ctx) (g : Group) : (putG s x g).parts = s.parts := rfl
@[simp] theorem putG_net (s : State) (x : Ctx) (g : Group) : (putG s x g).net = s.net := rfl
@[simp] theorem putG_anchors (s : State) (x : Ctx) (g : Group) : (putG s x g).anchors = s.anchors := rfl
@[simp] theorem putG_outstanding (s : State) (x : Ctx) (g : Group) : (putG s x g).outstanding = s.outstanding := rfl
@[simp] theorem putG_seqs (s : State) (x : Ctx) (g : Group) : (putG s x g).seqs = s.seqs := rfl
@[simp] theorem putG_dups (s : State) (x : Ctx) (g : Group) : (putG s x g).dups = s.dups := rfl
@[simp] theorem putG_proxies (s : State) (x : Ctx) (g : Group) : (putG s x g).proxies = s.proxies := rfl
@[simp] theorem putG_hostLines (s : State) (x : Ctx) (g : Group) : (putG s x g).hostLines = s.hostLines := rfl
@[simp] theorem putG_hostReqs (s : State) (x : Ctx) (g : Group) : (putG s x g).hostReqs = s.hostReqs := rfl
@[simp] theorem putG_tiles (s : State) (x : Ctx) (g : Group) : (putG s x g).tiles = s.tiles := rfl
@[simp] theorem putG_tileReqs (s : State) (x : Ctx) (g : Group) : (putG s x g).tileReqs = s.tileReqs := rfl
@[simp] theorem putG_incs (s : State) (x : Ctx) (g : Group) : (putG s x g).incs = s.incs := rfl
@[simp] theorem putG_semWaits (s : State) (x : Ctx) (g : Group) : (putG s x g).semWaits = s.semWaits := rfl
@[simp] theorem putG_msgs (s : State) (x : Ctx) (g : Group) : (putG s x g).msgs = s.msgs := rfl
@[simp] theorem putG_walks (s : State) (x : Ctx) (g : Group) : (putG s x g).walks = s.walks := rfl
@[simp] theorem putG_wpHits (s : State) (x : Ctx) (g : Group) : (putG s x g).wpHits = s.wpHits := rfl
@[simp] theorem putG_pasids (s : State) (x : Ctx) (g : Group) : (putG s x g).pasids = s.pasids := rfl
@[simp] theorem putG_hot (s : State) (x : Ctx) (g : Group) : (putG s x g).hot = s.hot := rfl

/-! ## Reading what was written -/

@[simp] theorem getCore_setCore_self (s : State) (c : Nat) (k : Core) : getCore (setCore s c k) c = k := mget_mput_self ..
theorem getCore_setCore_other (s : State) {c j : Nat} (k : Core) (h : j ≠ c) : getCore (setCore s c k) j = getCore s j :=
  mget_mput_other _ _ _ h
@[simp] theorem getCore_modCore_self (s : State) (c : Nat) (f : Core → Core) : getCore (modCore s c f) c = f (getCore s c) :=
  mget_mput_self ..
theorem getCore_modCore_other (s : State) {c j : Nat} (f : Core → Core) (h : j ≠ c) : getCore (modCore s c f) j = getCore s j :=
  mget_mput_other _ _ _ h
@[simp] theorem getPart_setPart_self (s : State) (p : Nat) (v : Partition) : getPart (setPart s p v) p = v := mget_mput_self ..
theorem getPart_setPart_other (s : State) {p j : Nat} (v : Partition) (h : j ≠ p) : getPart (setPart s p v) j = getPart s j :=
  mget_mput_other _ _ _ h
@[simp] theorem getPart_modPart_self (s : State) (p : Nat) (f : Partition → Partition) :
    getPart (modPart s p f) p = f (getPart s p) := mget_mput_self ..
theorem getPart_modPart_other (s : State) {p j : Nat} (f : Partition → Partition) (h : j ≠ p) :
    getPart (modPart s p f) j = getPart s j := mget_mput_other _ _ _ h
@[simp] theorem getDie_modDie_self (s : State) (d : Nat) (f : Die → Die) : getDie (modDie s d f) d = f (getDie s d) :=
  mget_mput_self ..
theorem getDie_modDie_other (s : State) {d j : Nat} (f : Die → Die) (h : j ≠ d) : getDie (modDie s d f) j = getDie s j :=
  mget_mput_other _ _ _ h
@[simp] theorem getRegion_modRegion_self (s : State) (g : Nat) (f : Region → Region) :
    getRegion (modRegion s g f) g = f (getRegion s g) := mget_mput_self ..
theorem getRegion_modRegion_other (s : State) {g j : Nat} (f : Region → Region) (h : j ≠ g) :
    getRegion (modRegion s g f) j = getRegion s j := mget_mput_other _ _ _ h
@[simp] theorem getRouter_modRouter_self (s : State) (n : Nat) (f : Router → Router) :
    getRouter (modRouter s n f) n = f (getRouter s n) := mget_mput_self ..
theorem getRouter_modRouter_other (s : State) {n j : Nat} (f : Router → Router) (h : j ≠ n) :
    getRouter (modRouter s n f) j = getRouter s j := mget_mput_other _ _ _ h
@[simp] theorem getSlice_modSlice_self (s : State) (n : Nat) (f : Slice → Slice) :
    getSlice (modSlice s n f) n = f (getSlice s n) := mget_mput_self ..
theorem getSlice_modSlice_other (s : State) {n j : Nat} (f : Slice → Slice) (h : j ≠ n) :
    getSlice (modSlice s n f) j = getSlice s j := mget_mput_other _ _ _ h
@[simp] theorem bumpFresh_fresh (s : State) : (bumpFresh s).fresh = s.fresh + 1 := rfl
@[simp] theorem post_net (s : State) (m : Msg) (l : Loc) (dt : Nat) :
    (post s m l dt).net = s.net ++ [{ m with loc := l, ready := s.now + dt, waiting := false }] := rfl

/-- Tables whose readers look only at `cores`, `parts`, `dies`, … are untouched by an update elsewhere. -/
@[simp] theorem getCore_modPart (s : State) (p : Nat) (f : Partition → Partition) (c : Nat) :
    getCore (modPart s p f) c = getCore s c := rfl
@[simp] theorem getPart_modCore (s : State) (c : Nat) (f : Core → Core) (p : Nat) : getPart (modCore s c f) p = getPart s p := rfl
@[simp] theorem getPart_setCore (s : State) (c : Nat) (k : Core) (p : Nat) : getPart (setCore s c k) p = getPart s p := rfl
@[simp] theorem getPart_setGroup (s : State) (c g : Nat) (v : Group) (p : Nat) : getPart (setGroup s c g v) p = getPart s p := rfl

/-- The team of a core whose team is changed. -/
theorem teamOf_modTeam_self (s : State) (c : Nat) (f : Team → Team) : teamOf (modTeam s c f) c = (teamOf s c).map f := by
  simp [teamOf, modTeam]

theorem teamOf_modTeam_other (s : State) {c j : Nat} (f : Team → Team) (h : j ≠ c) : teamOf (modTeam s c f) j = teamOf s j := by
  simp [teamOf, modTeam, getCore_modCore_other s _ h]

/-- The group that was put, where a team stands. -/
theorem groupOf_setGroup_self (s : State) (c g : Nat) (v : Group) (h : (teamOf s c).isSome) :
    groupOf (setGroup s c g v) c g = some v := by
  obtain ⟨t, ht⟩ := Option.isSome_iff_exists.mp h
  simp [groupOf, setGroup, teamOf_modTeam_self, ht, groupIn]

theorem groupOf_setGroup_other (s : State) {c g c' g' : Nat} (v : Group) (h : c' ≠ c ∨ g' ≠ g) :
    groupOf (setGroup s c g v) c' g' = groupOf s c' g' := by
  by_cases hc : c' = c
  · subst hc
    have hg : g' ≠ g := by simpa using h
    cases ht : teamOf s c' with
    | none => simp [groupOf, setGroup, teamOf_modTeam_self, ht]
    | some t => simp [groupOf, setGroup, teamOf_modTeam_self, ht, groupIn, mget?_mput_other _ _ hg]
  · simp [groupOf, setGroup, teamOf_modTeam_other s _ hc]

/-! ## Registers of a group -/

theorem rdS_zero (g : Group) : rdS g 0 = 0 := rfl

/-- A write of a register below s61 is read back. -/
theorem rdS_wrS_self (g : Group) {n : Nat} (v : Word) (h0 : n ≠ 0) (h : n < 61) : rdS (wrS g n v) n = v := by
  simp [rdS, wrS, h0, maskedS, Nat.not_le.mpr h]

theorem rdS_wrS_other (g : Group) {n m : Nat} (v : Word) (h : m ≠ n) : rdS (wrS g n v) m = rdS g m := by
  unfold rdS wrS
  split
  · rfl
  · split
    · rfl
    · simp [mget_mput_other _ _ _ h]

theorem wrS_zero (g : Group) (v : Word) : wrS g 0 v = g := rfl

theorem rdP_zero (g : Group) : rdP g 0 = allThreads := rfl

@[simp] theorem wrS_live (g : Group) (n : Nat) (v : Word) : (wrS g n v).live = g.live := by unfold wrS; split <;> rfl
@[simp] theorem wrS_preds (g : Group) (n : Nat) (v : Word) : (wrS g n v).preds = g.preds := by unfold wrS; split <;> rfl
@[simp] theorem wrS_vregs (g : Group) (n : Nat) (v : Word) : (wrS g n v).vregs = g.vregs := by unfold wrS; split <;> rfl
@[simp] theorem wrS_windows (g : Group) (n : Nat) (v : Word) : (wrS g n v).windows = g.windows := by unfold wrS; split <;> rfl
@[simp] theorem wrS_spc (g : Group) (n : Nat) (v : Word) : (wrS g n v).spc = g.spc := by unfold wrS; split <;> rfl
@[simp] theorem wrS_lane (g : Group) (n : Nat) (v : Word) : (wrS g n v).lane = g.lane := by unfold wrS; split <;> rfl
@[simp] theorem wrS_fps (g : Group) (n : Nat) (v : Word) : (wrS g n v).fps = g.fps := by unfold wrS; split <;> rfl
@[simp] theorem wrS_trap (g : Group) (n : Nat) (v : Word) : (wrS g n v).trap = g.trap := by unfold wrS; split <;> rfl
@[simp] theorem wrS_skip (g : Group) (n : Nat) (v : Word) : (wrS g n v).skip = g.skip := by unfold wrS; split <;> rfl
@[simp] theorem wrS_schussOn (g : Group) (n : Nat) (v : Word) : (wrS g n v).schussOn = g.schussOn := by unfold wrS; split <;> rfl
@[simp] theorem wrS_budget (g : Group) (n : Nat) (v : Word) : (wrS g n v).budget = g.budget := by unfold wrS; split <;> rfl
@[simp] theorem wrS_episode (g : Group) (n : Nat) (v : Word) : (wrS g n v).episode = g.episode := by unfold wrS; split <;> rfl
@[simp] theorem wrS_age (g : Group) (n : Nat) (v : Word) : (wrS g n v).age = g.age := by unfold wrS; split <;> rfl
@[simp] theorem wrS_readySince (g : Group) (n : Nat) (v : Word) : (wrS g n v).readySince = g.readySince := by unfold wrS; split <;> rfl
@[simp] theorem wrS_laneReadySince (g : Group) (n : Nat) (v : Word) : (wrS g n v).laneReadySince = g.laneReadySince := by unfold wrS; split <;> rfl
@[simp] theorem wrS_boosted (g : Group) (n : Nat) (v : Word) : (wrS g n v).boosted = g.boosted := by unfold wrS; split <;> rfl
@[simp] theorem wrS_state (g : Group) (n : Nat) (v : Word) : (wrS g n v).state = g.state := by unfold wrS; split <;> rfl
@[simp] theorem wrS_wait (g : Group) (n : Nat) (v : Word) : (wrS g n v).wait = g.wait := by unfold wrS; split <;> rfl
@[simp] theorem wrS_resv (g : Group) (n : Nat) (v : Word) : (wrS g n v).resv = g.resv := by unfold wrS; split <;> rfl
@[simp] theorem wrS_arrived (g : Group) (n : Nat) (v : Word) : (wrS g n v).arrived = g.arrived := by unfold wrS; split <;> rfl
@[simp] theorem wrS_acquiring (g : Group) (n : Nat) (v : Word) : (wrS g n v).acquiring = g.acquiring := by unfold wrS; split <;> rfl
@[simp] theorem wrS_fenceAt (g : Group) (n : Nat) (v : Word) : (wrS g n v).fenceAt = g.fenceAt := by unfold wrS; split <;> rfl
@[simp] theorem wrS_fences (g : Group) (n : Nat) (v : Word) : (wrS g n v).fences = g.fences := by unfold wrS; split <;> rfl
@[simp] theorem wrS_heard (g : Group) (n : Nat) (v : Word) : (wrS g n v).heard = g.heard := by unfold wrS; split <;> rfl
@[simp] theorem wrS_born (g : Group) (n : Nat) (v : Word) : (wrS g n v).born = g.born := by unfold wrS; split <;> rfl

@[simp] theorem wrV_live (g : Group) (n : Nat) (v : Word) : (wrV g n v).live = g.live := by unfold wrV; split <;> rfl
@[simp] theorem wrV_sregs (g : Group) (n : Nat) (v : Word) : (wrV g n v).sregs = g.sregs := by unfold wrV; split <;> rfl
@[simp] theorem wrV_preds (g : Group) (n : Nat) (v : Word) : (wrV g n v).preds = g.preds := by unfold wrV; split <;> rfl
@[simp] theorem wrV_vregs (g : Group) (n : Nat) (v : Word) : (wrV g n v).vregs = g.vregs := by unfold wrV; split <;> rfl
@[simp] theorem wrV_windows (g : Group) (n : Nat) (v : Word) : (wrV g n v).windows = g.windows := by unfold wrV; split <;> rfl
@[simp] theorem wrV_spc (g : Group) (n : Nat) (v : Word) : (wrV g n v).spc = g.spc := by unfold wrV; split <;> rfl
@[simp] theorem wrV_fps (g : Group) (n : Nat) (v : Word) : (wrV g n v).fps = g.fps := by unfold wrV; split <;> rfl
@[simp] theorem wrV_trap (g : Group) (n : Nat) (v : Word) : (wrV g n v).trap = g.trap := by unfold wrV; split <;> rfl
@[simp] theorem wrV_skip (g : Group) (n : Nat) (v : Word) : (wrV g n v).skip = g.skip := by unfold wrV; split <;> rfl
@[simp] theorem wrV_schussOn (g : Group) (n : Nat) (v : Word) : (wrV g n v).schussOn = g.schussOn := by unfold wrV; split <;> rfl
@[simp] theorem wrV_budget (g : Group) (n : Nat) (v : Word) : (wrV g n v).budget = g.budget := by unfold wrV; split <;> rfl
@[simp] theorem wrV_episode (g : Group) (n : Nat) (v : Word) : (wrV g n v).episode = g.episode := by unfold wrV; split <;> rfl
@[simp] theorem wrV_age (g : Group) (n : Nat) (v : Word) : (wrV g n v).age = g.age := by unfold wrV; split <;> rfl
@[simp] theorem wrV_readySince (g : Group) (n : Nat) (v : Word) : (wrV g n v).readySince = g.readySince := by unfold wrV; split <;> rfl
@[simp] theorem wrV_laneReadySince (g : Group) (n : Nat) (v : Word) : (wrV g n v).laneReadySince = g.laneReadySince := by unfold wrV; split <;> rfl
@[simp] theorem wrV_boosted (g : Group) (n : Nat) (v : Word) : (wrV g n v).boosted = g.boosted := by unfold wrV; split <;> rfl
@[simp] theorem wrV_state (g : Group) (n : Nat) (v : Word) : (wrV g n v).state = g.state := by unfold wrV; split <;> rfl
@[simp] theorem wrV_wait (g : Group) (n : Nat) (v : Word) : (wrV g n v).wait = g.wait := by unfold wrV; split <;> rfl
@[simp] theorem wrV_resv (g : Group) (n : Nat) (v : Word) : (wrV g n v).resv = g.resv := by unfold wrV; split <;> rfl
@[simp] theorem wrV_arrived (g : Group) (n : Nat) (v : Word) : (wrV g n v).arrived = g.arrived := by unfold wrV; split <;> rfl
@[simp] theorem wrV_acquiring (g : Group) (n : Nat) (v : Word) : (wrV g n v).acquiring = g.acquiring := by unfold wrV; split <;> rfl
@[simp] theorem wrV_fenceAt (g : Group) (n : Nat) (v : Word) : (wrV g n v).fenceAt = g.fenceAt := by unfold wrV; split <;> rfl
@[simp] theorem wrV_fences (g : Group) (n : Nat) (v : Word) : (wrV g n v).fences = g.fences := by unfold wrV; split <;> rfl
@[simp] theorem wrV_heard (g : Group) (n : Nat) (v : Word) : (wrV g n v).heard = g.heard := by unfold wrV; split <;> rfl
@[simp] theorem wrV_born (g : Group) (n : Nat) (v : Word) : (wrV g n v).born = g.born := by unfold wrV; split <;> rfl

@[simp] theorem wrP_live (g : Group) (n : Nat) (w v : Mask) : (wrP g n w v).live = g.live := by unfold wrP; split <;> rfl
@[simp] theorem wrP_sregs (g : Group) (n : Nat) (w v : Mask) : (wrP g n w v).sregs = g.sregs := by unfold wrP; split <;> rfl
@[simp] theorem wrP_vregs (g : Group) (n : Nat) (w v : Mask) : (wrP g n w v).vregs = g.vregs := by unfold wrP; split <;> rfl
@[simp] theorem wrP_windows (g : Group) (n : Nat) (w v : Mask) : (wrP g n w v).windows = g.windows := by unfold wrP; split <;> rfl
@[simp] theorem wrP_spc (g : Group) (n : Nat) (w v : Mask) : (wrP g n w v).spc = g.spc := by unfold wrP; split <;> rfl
@[simp] theorem wrP_lane (g : Group) (n : Nat) (w v : Mask) : (wrP g n w v).lane = g.lane := by unfold wrP; split <;> rfl
@[simp] theorem wrP_fps (g : Group) (n : Nat) (w v : Mask) : (wrP g n w v).fps = g.fps := by unfold wrP; split <;> rfl
@[simp] theorem wrP_trap (g : Group) (n : Nat) (w v : Mask) : (wrP g n w v).trap = g.trap := by unfold wrP; split <;> rfl
@[simp] theorem wrP_skip (g : Group) (n : Nat) (w v : Mask) : (wrP g n w v).skip = g.skip := by unfold wrP; split <;> rfl
@[simp] theorem wrP_schussOn (g : Group) (n : Nat) (w v : Mask) : (wrP g n w v).schussOn = g.schussOn := by unfold wrP; split <;> rfl
@[simp] theorem wrP_budget (g : Group) (n : Nat) (w v : Mask) : (wrP g n w v).budget = g.budget := by unfold wrP; split <;> rfl
@[simp] theorem wrP_episode (g : Group) (n : Nat) (w v : Mask) : (wrP g n w v).episode = g.episode := by unfold wrP; split <;> rfl
@[simp] theorem wrP_age (g : Group) (n : Nat) (w v : Mask) : (wrP g n w v).age = g.age := by unfold wrP; split <;> rfl
@[simp] theorem wrP_readySince (g : Group) (n : Nat) (w v : Mask) : (wrP g n w v).readySince = g.readySince := by unfold wrP; split <;> rfl
@[simp] theorem wrP_laneReadySince (g : Group) (n : Nat) (w v : Mask) : (wrP g n w v).laneReadySince = g.laneReadySince := by unfold wrP; split <;> rfl
@[simp] theorem wrP_boosted (g : Group) (n : Nat) (w v : Mask) : (wrP g n w v).boosted = g.boosted := by unfold wrP; split <;> rfl
@[simp] theorem wrP_state (g : Group) (n : Nat) (w v : Mask) : (wrP g n w v).state = g.state := by unfold wrP; split <;> rfl
@[simp] theorem wrP_wait (g : Group) (n : Nat) (w v : Mask) : (wrP g n w v).wait = g.wait := by unfold wrP; split <;> rfl
@[simp] theorem wrP_resv (g : Group) (n : Nat) (w v : Mask) : (wrP g n w v).resv = g.resv := by unfold wrP; split <;> rfl
@[simp] theorem wrP_arrived (g : Group) (n : Nat) (w v : Mask) : (wrP g n w v).arrived = g.arrived := by unfold wrP; split <;> rfl
@[simp] theorem wrP_acquiring (g : Group) (n : Nat) (w v : Mask) : (wrP g n w v).acquiring = g.acquiring := by unfold wrP; split <;> rfl
@[simp] theorem wrP_fenceAt (g : Group) (n : Nat) (w v : Mask) : (wrP g n w v).fenceAt = g.fenceAt := by unfold wrP; split <;> rfl
@[simp] theorem wrP_fences (g : Group) (n : Nat) (w v : Mask) : (wrP g n w v).fences = g.fences := by unfold wrP; split <;> rfl
@[simp] theorem wrP_heard (g : Group) (n : Nat) (w v : Mask) : (wrP g n w v).heard = g.heard := by unfold wrP; split <;> rfl
@[simp] theorem wrP_born (g : Group) (n : Nat) (w v : Mask) : (wrP g n w v).born = g.born := by unfold wrP; split <;> rfl

@[simp] theorem wrRow_live (g : Group) (n : Nat) (w : Mask) (v : Nat → Word) : (wrRow g n w v).live = g.live := by rfl
@[simp] theorem wrRow_sregs (g : Group) (n : Nat) (w : Mask) (v : Nat → Word) : (wrRow g n w v).sregs = g.sregs := by rfl
@[simp] theorem wrRow_preds (g : Group) (n : Nat) (w : Mask) (v : Nat → Word) : (wrRow g n w v).preds = g.preds := by rfl
@[simp] theorem wrRow_windows (g : Group) (n : Nat) (w : Mask) (v : Nat → Word) : (wrRow g n w v).windows = g.windows := by rfl
@[simp] theorem wrRow_spc (g : Group) (n : Nat) (w : Mask) (v : Nat → Word) : (wrRow g n w v).spc = g.spc := by rfl
@[simp] theorem wrRow_lane (g : Group) (n : Nat) (w : Mask) (v : Nat → Word) : (wrRow g n w v).lane = g.lane := by rfl
@[simp] theorem wrRow_fps (g : Group) (n : Nat) (w : Mask) (v : Nat → Word) : (wrRow g n w v).fps = g.fps := by rfl
@[simp] theorem wrRow_trap (g : Group) (n : Nat) (w : Mask) (v : Nat → Word) : (wrRow g n w v).trap = g.trap := by rfl
@[simp] theorem wrRow_skip (g : Group) (n : Nat) (w : Mask) (v : Nat → Word) : (wrRow g n w v).skip = g.skip := by rfl
@[simp] theorem wrRow_schussOn (g : Group) (n : Nat) (w : Mask) (v : Nat → Word) : (wrRow g n w v).schussOn = g.schussOn := by rfl
@[simp] theorem wrRow_budget (g : Group) (n : Nat) (w : Mask) (v : Nat → Word) : (wrRow g n w v).budget = g.budget := by rfl
@[simp] theorem wrRow_episode (g : Group) (n : Nat) (w : Mask) (v : Nat → Word) : (wrRow g n w v).episode = g.episode := by rfl
@[simp] theorem wrRow_age (g : Group) (n : Nat) (w : Mask) (v : Nat → Word) : (wrRow g n w v).age = g.age := by rfl
@[simp] theorem wrRow_readySince (g : Group) (n : Nat) (w : Mask) (v : Nat → Word) : (wrRow g n w v).readySince = g.readySince := by rfl
@[simp] theorem wrRow_laneReadySince (g : Group) (n : Nat) (w : Mask) (v : Nat → Word) : (wrRow g n w v).laneReadySince = g.laneReadySince := by rfl
@[simp] theorem wrRow_boosted (g : Group) (n : Nat) (w : Mask) (v : Nat → Word) : (wrRow g n w v).boosted = g.boosted := by rfl
@[simp] theorem wrRow_state (g : Group) (n : Nat) (w : Mask) (v : Nat → Word) : (wrRow g n w v).state = g.state := by rfl
@[simp] theorem wrRow_wait (g : Group) (n : Nat) (w : Mask) (v : Nat → Word) : (wrRow g n w v).wait = g.wait := by rfl
@[simp] theorem wrRow_resv (g : Group) (n : Nat) (w : Mask) (v : Nat → Word) : (wrRow g n w v).resv = g.resv := by rfl
@[simp] theorem wrRow_arrived (g : Group) (n : Nat) (w : Mask) (v : Nat → Word) : (wrRow g n w v).arrived = g.arrived := by rfl
@[simp] theorem wrRow_acquiring (g : Group) (n : Nat) (w : Mask) (v : Nat → Word) : (wrRow g n w v).acquiring = g.acquiring := by rfl
@[simp] theorem wrRow_fenceAt (g : Group) (n : Nat) (w : Mask) (v : Nat → Word) : (wrRow g n w v).fenceAt = g.fenceAt := by rfl
@[simp] theorem wrRow_fences (g : Group) (n : Nat) (w : Mask) (v : Nat → Word) : (wrRow g n w v).fences = g.fences := by rfl
@[simp] theorem wrRow_heard (g : Group) (n : Nat) (w : Mask) (v : Nat → Word) : (wrRow g n w v).heard = g.heard := by rfl
@[simp] theorem wrRow_born (g : Group) (n : Nat) (w : Mask) (v : Nat → Word) : (wrRow g n w v).born = g.born := by rfl

@[simp] theorem setLaneMask_live (g : Group) (m : Mask) : (setLaneMask g m).live = g.live := by rfl
@[simp] theorem setLaneMask_sregs (g : Group) (m : Mask) : (setLaneMask g m).sregs = g.sregs := by rfl
@[simp] theorem setLaneMask_preds (g : Group) (m : Mask) : (setLaneMask g m).preds = g.preds := by rfl
@[simp] theorem setLaneMask_vregs (g : Group) (m : Mask) : (setLaneMask g m).vregs = g.vregs := by rfl
@[simp] theorem setLaneMask_windows (g : Group) (m : Mask) : (setLaneMask g m).windows = g.windows := by rfl
@[simp] theorem setLaneMask_spc (g : Group) (m : Mask) : (setLaneMask g m).spc = g.spc := by rfl
@[simp] theorem setLaneMask_fps (g : Group) (m : Mask) : (setLaneMask g m).fps = g.fps := by rfl
@[simp] theorem setLaneMask_trap (g : Group) (m : Mask) : (setLaneMask g m).trap = g.trap := by rfl
@[simp] theorem setLaneMask_skip (g : Group) (m : Mask) : (setLaneMask g m).skip = g.skip := by rfl
@[simp] theorem setLaneMask_schussOn (g : Group) (m : Mask) : (setLaneMask g m).schussOn = g.schussOn := by rfl
@[simp] theorem setLaneMask_budget (g : Group) (m : Mask) : (setLaneMask g m).budget = g.budget := by rfl
@[simp] theorem setLaneMask_episode (g : Group) (m : Mask) : (setLaneMask g m).episode = g.episode := by rfl
@[simp] theorem setLaneMask_age (g : Group) (m : Mask) : (setLaneMask g m).age = g.age := by rfl
@[simp] theorem setLaneMask_readySince (g : Group) (m : Mask) : (setLaneMask g m).readySince = g.readySince := by rfl
@[simp] theorem setLaneMask_laneReadySince (g : Group) (m : Mask) : (setLaneMask g m).laneReadySince = g.laneReadySince := by rfl
@[simp] theorem setLaneMask_boosted (g : Group) (m : Mask) : (setLaneMask g m).boosted = g.boosted := by rfl
@[simp] theorem setLaneMask_state (g : Group) (m : Mask) : (setLaneMask g m).state = g.state := by rfl
@[simp] theorem setLaneMask_wait (g : Group) (m : Mask) : (setLaneMask g m).wait = g.wait := by rfl
@[simp] theorem setLaneMask_resv (g : Group) (m : Mask) : (setLaneMask g m).resv = g.resv := by rfl
@[simp] theorem setLaneMask_arrived (g : Group) (m : Mask) : (setLaneMask g m).arrived = g.arrived := by rfl
@[simp] theorem setLaneMask_acquiring (g : Group) (m : Mask) : (setLaneMask g m).acquiring = g.acquiring := by rfl
@[simp] theorem setLaneMask_fenceAt (g : Group) (m : Mask) : (setLaneMask g m).fenceAt = g.fenceAt := by rfl
@[simp] theorem setLaneMask_fences (g : Group) (m : Mask) : (setLaneMask g m).fences = g.fences := by rfl
@[simp] theorem setLaneMask_heard (g : Group) (m : Mask) : (setLaneMask g m).heard = g.heard := by rfl
@[simp] theorem setLaneMask_born (g : Group) (m : Mask) : (setLaneMask g m).born = g.born := by rfl

end Sys2Proof.Machine
end

