-- ==== Sys2Proof/Tests/Slice0.lean ====
section
/-! SUPPORT. Tests: ill-formed words, words written out from the spec's encodings, single steps against the spec's own examples and
tables, and for every statement a state and operands that meet its hypotheses. -/

/- The tests are elaborated one after another: their kernel evaluations would otherwise wait for each other on a thread each. -/
set_option Elab.async false

namespace Sys2Proof.Tests

open Sys2Proof Sys2Proof.Machine Sys2Proof.Claims

/-! ## Small states -/

/-- A team of one group on core 0 of partition 0, its scalar stream about to issue. -/
def base : State := State.reset.withFetchWord 32 0x04518700

/-- The same with its lane stream running. -/
def lbase : State :=
  { State.reset.withFetchWord 96 0x182000000000000000000000 with cur := { core := 0, group := 0, lane := true } }

def anyCtx : Ctx :=
  { core := 0, gi := 0, lane := false, team := probeTeam false, g := probeGroup false, grid := probeGrid 3 }

/-- The acting stream of a state. -/
def cx (s : State) : Ctx := (ctx? s).getD anyCtx

theorem cx_some {s : State} (h : (ctx? s).isSome = true) : ctx? s = some (cx s) := by
  revert h; unfold cx; cases ctx? s <;> simp

def withG (s : State) (f : Group → Group) : State := modGroup s 0 0 f
def withT (s : State) (f : Team → Team) : State := modTeam s 0 f
def withQ (s : State) (f : Grid → Grid) : State := modGrid s 0 0 f

/-- Scalar registers set to values. -/
def regs (s : State) (l : List (Nat × Word)) : State := withG s fun g => { g with sregs := l.foldl (fun m q => mput m q.1 q.2) g.sregs }

/-- The state an instruction leaves. -/
def after (s : State) (i : Instr) : State := match exec i s with | .next t => t | _ => s

/-- A scalar register of the acting group after an instruction. -/
def sreg (s : State) (i : Instr) (n : Nat) : Word := rdS (cx (after s i)).g n

/-- Its program counter. -/
def pcOf (s : State) (i : Instr) : Word := (cx (after s i)).g.spc

/-- The fault code its record or its handler names: here, with a handler at 0x200. -/
def handled (s : State) : State := withG s fun g => { g with trap := { g.trap with tvec := 0x200 } }
def causeOf (s : State) (i : Instr) : Nat := (cx (after (handled s) i)).g.trap.tcause.toNat % 256

/-- A page of global memory: virtual page 16 on frame 0x1000, leased for reading and writing. -/
def glob (s : State) : State :=
  modPart (withQ s fun q => { q with leases := [{ base := 0x10000, len := 0x1000, r := true, w := true }] }) 0 fun v =>
    { v with pins := v.pins ++ [{ pasid := 0, page := 16, frame := 0x1000, w := true, refs := 1 }] }

def gbase : State := regs (glob base) [(4, 0x10010)]

theorem ctx_base : ctx? base = some (cx base) := cx_some rfl
theorem ctx_lbase : ctx? lbase = some (cx lbase) := cx_some rfl
theorem ctx_gbase : ctx? gbase = some (cx gbase) := cx_some rfl

/-! ## Words of the spec's examples -/

theorem test_decode_add : decodeTableWord 32 0x04518700 = some (.add 5 6 7) := by decide
theorem test_decode_sel : decodeTableWord 32 0x04518789 = some (.sel 5 6 7 9) := by decide

/-! ## Hypotheses that can be met -/


/-! ## Ill-formed terms, one for each check of `Instr.wf` -/

theorem test_wf_good : (Instr.add 5 6 7).wf = true ∧ (Instr.bfeS 4 5 12 8).wf = true ∧ (Instr.call 60 0).wf = true := by decide
theorem test_wf_field : (Instr.bfeZ 4 5 0 8).wf = false ∧ (Instr.bfeS 4 5 12 21).wf = false ∧ (Instr.bfi 4 5 33 0).wf = false := by
  decide
theorem test_wf_link : (Instr.call 61 0).wf = false ∧ (Instr.jmpr 63 4 0).wf = false := by decide
theorem test_wf_mask_count : (Instr.mskN 97).wf = false ∧ (Instr.mskN 96).wf = true := by decide
theorem test_wf_load : (Instr.ldScalar 8 5 2 0 0 0 5 0).wf = false ∧ (Instr.ldScalar 8 4 2 0 0 0 6 0).wf = false := by decide
theorem test_wf_store : (Instr.stScalar 7 4 3 0 0 5 0).wf = false := by decide
theorem test_wf_atomic : (Instr.atomScalar 9 5 7 5 0 0).wf = false ∧ (Instr.casScalar 9 4 6 5 0 1).wf = false := by decide
theorem test_wf_fence : (Instr.fence 4 5 1).wf = false ∧ (Instr.fence 1 6 1).wf = false ∧ (Instr.fence 1 5 0).wf = false := by decide
theorem test_wf_pair : (Instr.waitln 4 7 0).wf = false ∧ (Instr.recvtst 5 4).wf = false ∧ (Instr.locHome 4 7).wf = false ∧
    (Instr.launch 4 60).wf = false := by decide
theorem test_wf_pair_or_zero : (Instr.cpy1d 5 4).wf = false ∧ (Instr.cpy1d 0 4).wf = true ∧ (Instr.send 5 4 6 0).wf = false ∧
    (Instr.dclk 5).wf = false ∧ (Instr.collRadd 4 6 4).wf = false := by decide
theorem test_wf_matrix : (Instr.mma 10 4 6 7 0 0 0).wf = false ∧ (Instr.mma 11 4 6 0 0 0 0).wf = false ∧
    (Instr.mlb 10 5 6 0 0).wf = false := by decide
theorem test_wf_semaphore : (Instr.seminc 4 6 6).wf = false ∧ (Instr.seminc 4 7 2).wf = false := by decide
theorem test_wf_barrier : (Instr.bararr 20).wf = false ∧ (Instr.barwait 4 19).wf = true := by decide
theorem test_wf_system : (Instr.sysrd 4 0x006).wf = false ∧ (Instr.syswr 4 0xFFF).wf = false := by decide
theorem test_wf_lane_alu : (Instr.addI32 { blank with dst := 0x1FF }).wf = false ∧
    (Instr.addI32 { blank with dst := 2, srcA := 1, srcB := 3, mod := 1 }).wf = false := by decide
theorem test_wf_lane_mod : (Instr.fshLB32 { blank with dst := 2, srcA := 1, srcB := 3, srcC := 4 }).wf = false ∧
    (Instr.randCoF32 { blank with dst := 2, srcA := 1, srcB := 3, srcC := 4 }).wf = false := by decide
theorem test_wf_lane_memory : (Instr.ldLane { blank with dst := 5, srcA := 8, mod := 0x5A2 }).wf = false ∧
    (Instr.stLane { blank with dst := 330, srcA := 8 }).wf = false := by decide
theorem test_wf_lane_control : (Instr.lend { blank with dst := 1 }).wf = false ∧ (Instr.bra { blank with mod := 1 }).wf = false := by
  decide
theorem test_wf_paired : (Instr.lanePairedWord { op := 0x08, dst := 4, srcA := 8, srcB := 1, rtB := 0, pred := 0 }
    { op := 0x08, dst := 4, srcA := 2, srcB := 3, rtB := 0, pred := 0 }).wf = false := by decide
theorem test_wf_lane_hint : (Instr.unassignedLaneHint 0 blank).wf = false := by decide

/-! ## Words of the spec's programs and examples -/

theorem test_decode_jump : decodeTableWord 32 0x580F0000 = some (.jmpr 0 60 0) := by decide
theorem test_decode_branch : decodeTableWord 32 0x447FFFFD = some (.bnez 7 0xFFFFD) := by decide
theorem test_decode_load : decodeTableWord 32 0x8081A2C0 = some (.ldScalar 8 6 2 0 0 1 3 0) := by decide
theorem test_decode_store : decodeTableWord 32 0x8504B141 = some (.stScalar 16 18 3 0 0 5 1) := by decide
theorem test_decode_atomic : decodeTableWord 32 0x88C18976 = some (.atomScalar 12 6 9 3 2 6) := by decide
theorem test_decode_fence : decodeTableWord 32 0x90010053 = some (.fence 1 5 3) := by decide
theorem test_decode_wait : decodeTableWord 32 0x9400FFF0 = some (.waitCounts 15 15 15 0) := by decide
theorem test_decode_waitln : decodeTableWord 32 0x98018000 = some (.waitln 0 6 0) := by decide
theorem test_decode_pause : decodeTableWord 32 0x9C0007C6 = some (.pause 1990) := by decide
theorem test_decode_copy : decodeTableWord 32 0xA0A60000 = some (.cpy1d 10 24) := by decide
theorem test_decode_message : decodeTableWord 32 0xAC828B00 = some (.recvpost 8 10 11) := by decide
theorem test_decode_locality : decodeTableWord 32 0xB5400000 = some (.locSelf 20) := by decide
theorem test_decode_matrix : decodeTableWord 32 0xC0039078 = some (.mma 0 14 16 3 1 1 0) := by decide
theorem test_decode_drain : decodeTableWord 32 0xC8A6CD28 = some (.mdrain 10 27 13 1 0 1 0) := by decide
theorem test_decode_load_b : decodeTableWord 32 0xC4A18800 = some (.mlb 10 6 8 0 0) := by decide
theorem test_decode_semaphore : decodeTableWord 32 0xD4C28005 = some (.semwait 12 10 5) := by decide
theorem test_decode_barrier : decodeTableWord 32 0xDDD10010 = some (.barwait 29 16) := by decide
theorem test_decode_spawn : decodeTableWord 32 0xE4010500 = some (.spawn 4 5) := by decide
theorem test_decode_launch : decodeTableWord 32 0xE0918000 = some (.launch 9 6) := by decide
theorem test_decode_window : decodeTableWord 32 0xEC010001 = some (.xrel 1) := by decide
theorem test_decode_schuss : decodeTableWord 32 0xF0020BB8 = some (.schussBud 3000) := by decide
theorem test_decode_system : decodeTableWord 32 0xFA801400 = some (.sysrd 40 0x014) := by decide
theorem test_decode_trap : decodeTableWord 32 0xF8000902 = some (.trap 9) ∧ decodeTableWord 32 0xF8000003 = some .tret ∧
    decodeTableWord 32 0xF8000105 = some (.brk 1) := by decide
theorem test_decode_lane_int : decodeTableWord 96 0x00801004_0000B020_00000000 =
    some (.addI32 { blank with dst := 2, srcA := 1, srcB := 1, rtB := 0x181 }) := by decide
theorem test_decode_lane_mov : decodeTableWord 96 0x001A4000_00020000_00001000 =
    some (.mov { blank with dst := 328, srcB := 4, u := 1 }) := by decide
theorem test_decode_lane_fma : decodeTableWord 96 0x0A001814_000320F4_40000040 =
    some (.fmaF32 { blank with dst := 3, srcA := 5, srcB := 6, rtB := 0x107, srcC := 324, mod := 0x040 }) := by decide
theorem test_decode_lane_branch : decodeTableWord 96 0x18000000_00000020_00004000 =
    some (.bra { blank with rtB := 1, pred := 1 }) := by decide
theorem test_decode_none : decodeTableWord 32 0xE8000001 = none ∧ decodeTableWord 96 (2 ^ 95) = none := by decide

/-! ## Scalar words (values from spec/05 and its example, R293, R294) -/

theorem test_add_to_zero : sreg (regs base [(6, 1), (7, 2)]) (.add 0 6 7) 0 = 0 := by decide
theorem test_sub_same_source : sreg (regs base [(5, 9)]) (.sub 5 5 5) 5 = 0 := by decide
theorem test_bfe_example : sreg (regs base [(5, 0x00ABC123)]) (.bfeS 4 5 12 8) 4 = 0xFFFFFBC1 := by decide
theorem test_bfi_keeps : sreg (regs base [(4, 0xFFFFFFFF), (5, 0)]) (.bfi 4 5 8 4) 4 = 0xFFFFF00F := by decide
theorem test_div_corner : sreg (regs base [(6, 0x80000000), (7, 0xFFFFFFFF)]) (.divS 5 6 7) 5 = 0x80000000 := by decide
theorem test_rem_corner : sreg (regs base [(6, 0x80000000), (7, 0xFFFFFFFF)]) (.remS 5 6 7) 5 = 0 := by decide
theorem test_div_by_zero : sreg (regs base [(6, 0xFFFFFFFB)]) (.divS 5 6 7) 5 = 1 := by decide
theorem test_rem_sign : sreg (regs base [(6, 0xFFFFFFF9), (7, 2)]) (.remS 5 6 7) 5 = 0xFFFFFFFF := by decide
theorem test_shift_full : sreg (regs base [(6, 0x80000001), (7, 32)]) (.shrS 5 6 7) 5 = 0xFFFFFFFF := by decide
theorem test_mulh : sreg (regs base [(6, 0xFFFFFFFF), (7, 2)]) (.mulhS 5 6 7) 5 = 0xFFFFFFFF := by decide
theorem test_clz_zero : sreg base (.clz 5 6) 5 = 32 := by decide
theorem test_li : sreg base (.li 3 0xFFFE) 3 = 0xFFFFFFFE := by decide
theorem test_lih : sreg (regs base [(3, 0x12345678)]) (.lih 3 0xABCD) 3 = 0xABCD5678 := by decide
theorem test_sltiu : sreg (regs base [(6, 5)]) (.sltiu 5 6 0x3FFF) 5 = 1 := by decide
theorem test_field_fault : causeOf base (.bfeZ 4 5 33 0) = 0x01 := by decide
theorem test_bnez_back : pcOf (withG (regs base [(7, 1)]) fun g => { g with spc := 0x40 }) (.bnez 7 0xFFFFD) = 0x34 := by decide
theorem test_beqz_falls : pcOf (regs base [(7, 1)]) (.beqz 7 5) = 4 := by decide
theorem test_jump_own_link : pcOf (regs base [(60, 0x80)]) (.jmpr 60 60 0) = 0x80 ∧
    sreg (regs base [(60, 0x80)]) (.jmpr 60 60 0) 60 = 4 := by decide
theorem test_mask_count : sreg base (.mskN 33) 61 = 0xFFFFFFFF ∧ sreg base (.mskN 33) 62 = 1 ∧ sreg base (.mskN 33) 63 = 0 := by
  decide
theorem test_dead_thread_mask : sreg (withG base fun g => { g with live := allThreads &&& ~~~(1#96 <<< 70) }) (.mskN 96) 63 = 0xFFFFFFBF := by
  decide
theorem test_mask_write : sreg (withG (regs base [(6, 0xFF)]) fun g => { g with live := 0xF0 }) (.add 61 6 0) 61 = 0xF0 := by decide
theorem test_lgo_view : (cx (after (regs base [(9, 7)]) (.lgo 5))).g.lane.lpc = 5 ∧ rdV (cx (after (regs base [(9, 7)]) (.lgo 5))).g 9 = 7 := by
  decide
theorem test_ljoin_copies : sreg (withG base fun g => { g with lane := { started := true, view := [(8, 3), (9, 4)], written := [8] } })
    .ljoin 8 = 3 ∧ sreg (withG base fun g => { g with lane := { started := true, view := [(8, 3), (9, 4)], written := [8] } }) .ljoin 9 = 0 := by
  decide
theorem test_loc_self : sreg base (.locSelf 20) 20 = 1 * 2 ^ 17 := by decide
theorem test_loc_band_out : sreg (regs base [(6, 16)]) (.locBand 5 6) 5 = 0xFFFFFFFF := by decide
theorem test_spawn_fault : causeOf (regs base [(4, 6)]) (.spawn 4 5) = 0x04 := by decide
theorem test_local_store : readLE (cx (after (regs base [(4, 0x101), (8, 0xABCD)]) (.stScalar 8 4 0 1 0 5 0))).team.scratch 0x100 4 = 0xCD00 := by
  decide
theorem test_local_load : sreg (withT (regs base [(4, 0x100)]) fun t => { t with scratch := [(0x102, 0x80#8)] }) (.ldScalar 8 4 0 1 1 0 5 2) 8 = 0xFFFFFF80 := by
  decide
theorem test_local_misaligned : causeOf (regs base [(4, 0x102)]) (.ldScalar 8 4 2 0 1 0 5 0) = 0x05 := by decide
theorem test_local_atomic : sreg (withT (regs base [(4, 0x100), (7, 5)]) fun t => { t with scratch := [(0x100, 9#8)] }) (.atomScalar 9 4 7 7 0 0) 9 = 9 ∧
    readLE (cx (after (withT (regs base [(4, 0x100), (7, 5)]) fun t => { t with scratch := [(0x100, 9#8)] }) (.atomScalar 9 4 7 7 0 0))).team.scratch 0x100 4 = 14 := by
  decide
theorem test_local_cas : sreg (withT (regs base [(4, 0x100), (7, 9), (9, 1)]) fun t => { t with scratch := [(0x100, 9#8)] }) (.casScalar 9 4 7 7 0 0) 9 = 9 := by
  decide
theorem test_out_of_lease : ((getPart (after (modPart (regs base [(4, 0x10010)]) 0 fun v => { v with fqcfg := 1 }) (.ldScalar 8 4 2 0 0 0 5 0)) 0).records.map (·.code)) = [0x20] := by
  decide
theorem test_global_load_issues : ((getCore (after gbase (.ldScalar 8 4 2 0 0 0 5 1)) 0).accs.map fun a => (a.va, a.hpa, a.size)) = [(0x10014, 0x1014, 4)] := by
  decide
theorem test_system_write : sreg (after (regs base [(43, 0x203)]) (.syswr 43 0x010)) (.sysrd 8 0x010) 8 = 0x200 := by decide
theorem test_system_spawn_period : sreg base (.sysrd 8 0x002) 8 = 250 := by decide
theorem test_trap_cause : causeOf base (.trap 9) = 0x18 ∧ pcOf (handled base) (.trap 9) = 0x200 := by decide
theorem test_tret : pcOf (withG base fun g => { g with trap := { g.trap with h := true, tepc := 0x44 } }) .tret = 0x44 := by decide
theorem test_tret_outside : causeOf base .tret = 0x01 := by decide
theorem test_joinc : pcOf base .joinc = 4 := by decide
theorem test_dclk : sreg { base with now := 4 * 2 ^ 32 + 20 } (.dclk 16) 16 = 5 ∧ sreg { base with now := 4 * 2 ^ 32 + 20 } (.dclk 16) 17 = 1 := by
  decide
theorem test_schuss_budget : (cx (after { base with featEn := 8 } (.schussBud 3000))).g.budget = 3000 := by decide
theorem test_xrel : (cx (after (withG base fun g => { g with windows := 3 }) (.xrel 1))).g.windows = 2 := by decide
theorem test_bararr_last : ((cx (after base (.bararr 3))).team.bars.map fun q => (q.1, q.2.gen)) = [(3, 1)] := by decide
theorem test_yield_age : (cx (after { base with now := 77 } .yield)).g.age = 77 := by decide
theorem test_exit_drains : (cx (after base .exitScalar)).team.state = .draining := by decide

/-! ## Lane words (Table 5-4, and the examples of spec/05 and spec/06) -/

/-- The state of Table 5-4: v1 = 100 + t, v6 = 200, thread 95 exited, thread 1 inactive. -/
def routed : State :=
  withG lbase fun g =>
    { g with
      live := allThreads &&& ~~~(1#96 <<< 95)
      vregs := [(1, tab 96 fun t => BitVec.ofNat 32 (100 + t)), (6, tab 96 fun _ => 200)]
      lane := { g.lane with view := [(61, 0xFFFFFFFD#32), (62, 0xFFFFFFFF#32), (63, 0x7FFFFFFF#32)] } }

def lrow (s : State) (i : Instr) (n t : Nat) : Word := rdVec (cx (after s i)).g n t
/-- A vector register that holds one value in every thread. -/
def vset (s : State) (l : List (Nat × Word)) : State :=
  withG s fun g => { g with vregs := l.foldl (fun m q => mput m q.1 (tab 96 fun _ => q.2)) g.vregs }
def lview (s : State) (i : Instr) (n : Nat) : Word := rdV (cx (after s i)).g n
def lfps (s : State) (i : Instr) : BitVec 5 := (cx (after s i)).g.lane.fps

theorem test_route_rot : lrow routed (.addI32 { blank with dst := 2, srcA := 1, srcB := 1, rtB := 0x081 }) 2 0 = 201 ∧
    lrow routed (.addI32 { blank with dst := 2, srcA := 1, srcB := 1, rtB := 0x081 }) 2 1 = 0 := by decide
theorem test_route_rot_exited : lrow routed (.addI32 { blank with dst := 2, srcA := 1, srcB := 1, rtB := 0x081 }) 2 94 = 194 := by decide
theorem test_route_bf : lrow routed (.mov { blank with dst := 3, srcB := 1, rtB := 0x1C0 }) 3 40 = 140 ∧
    lrow routed (.mov { blank with dst := 3, srcB := 1, rtB := 0x1C0 }) 3 70 = 106 := by decide
theorem test_route_uniform_bc : lrow routed (.addI32 { blank with dst := 7, srcA := 1, srcB := 1, rtB := 0x15F, u := 1 }) 7 50 = 100 := by decide
theorem test_route_in_place : lrow routed (.addI32 { blank with dst := 1, srcA := 1, srcB := 1, rtB := 0x081 }) 1 93 = 387 := by decide
theorem test_tidx : lrow routed (.tidx { blank with dst := 2 }) 2 77 = 77 := by decide
theorem test_dot4 : lrow (vset lbase [(1, 0x80FF0102), (2, 0x7F020304), (3, 10)]) (.dot4S8 { blank with dst := 4, srcA := 1, srcB := 2, srcC := 3 }) 4 0 = 0xFFFFC093 := by
  decide
theorem test_max_nan : lrow (vset lbase [(1, 0x7FC00001), (2, 0x40000000)]) (.maxF32 { blank with dst := 4, srcA := 1, srcB := 2 }) 4 0 = 0x40000000 := by
  decide
theorem test_min_zero : lrow (vset lbase [(1, 0), (2, 0x80000000)]) (.minF32 { blank with dst := 4, srcA := 1, srcB := 2 }) 4 0 = 0x80000000 := by
  decide
theorem test_mul_rounds : lrow (vset lbase [(1, 0x3F800800)]) (.mulF32 { blank with dst := 4, srcA := 1, srcB := 1 }) 4 0 = 0x3F801000 ∧
    lfps (vset lbase [(1, 0x3F800800)]) (.mulF32 { blank with dst := 4, srcA := 1, srcB := 1 }) = 0x10 := by decide +kernel
theorem test_fma_exact : lrow (vset lbase [(1, 0x3F800800), (3, 0xBF801000)]) (.fmaF32 { blank with dst := 4, srcA := 1, srcB := 1, srcC := 3 }) 4 0 = 0x33800000 ∧
    lfps (vset lbase [(1, 0x3F800800), (3, 0xBF801000)]) (.fmaF32 { blank with dst := 4, srcA := 1, srcB := 1, srcC := 3 }) = 0 := by decide +kernel
theorem test_ballot : lview (withG lbase fun g => { g with preds := [(3, 0x5)] }) (.ballot { blank with dst := 330, srcA := 387 }) 10 = 5 := by decide +kernel
theorem test_rcp_zero : lrow (vset lbase [(1, 0x80000000)]) (.rcpF32 { blank with dst := 4, srcB := 1 }) 4 0 = 0xFF800000 ∧
    lfps (vset lbase [(1, 0x80000000)]) (.rcpF32 { blank with dst := 4, srcB := 1 }) = 2 := by decide +kernel
theorem test_sqrt : lrow (vset lbase [(1, 0x40800000)]) (.sqrtF32 { blank with dst := 4, srcB := 1 }) 4 0 = 0x40000000 := by decide +kernel
theorem test_vesper_equal_key : vesper 7 7 = 0 := by decide
theorem test_e4m3_300 : (roundF .e4m3 .rne false (.fin false 300 0)).1 = 0x79 := by decide
theorem test_int8_sat : (cvtInt .rne (-128) 127 (.fin true 261 (-1))).1 = -128 := by decide
theorem test_lane_local_misaligned : ((cx (after (handled (vset lbase [(6, 0x15)])) (.ldLane { blank with dst := 4, srcA := 6, mod := 0x012 }))).g.trap.tcause.toNat % 256) = 0x05 := by
  decide +kernel
theorem test_lend_stops : (cx (after lbase (.lend blank))).g.lane.running = false := by decide
theorem test_bra_taken : (cx (after (withG lbase fun g => { g with lane := { g.lane with lpc := 3 } }) (.bra { blank with rtB := 1 }))).g.lane.lpc = 0 := by decide
theorem test_exit_lane : (cx (after (withG lbase fun g => { g with preds := [(1, 0x8)] }) (.exitLane { blank with pred := 1 }))).g.live = allThreads &&& ~~~8#96 := by
  decide
theorem test_paired_reads_first : lrow (vset lbase [(1, 1), (8, 2), (14, 0x40000000), (3, 0x40400000)])
    (.lanePairedWord { op := 0x08, dst := 4, srcA := 8, srcB := 1, rtB := 0, pred := 0 }
      { op := 0x2A, dst := 6, srcA := 14, srcB := 3, rtB := 0x190, pred := 0 }) 4 5 = 3 := by decide

theorem test_cvt_e4m3_keeps : lrow (vset lbase [(1, 0x43960000), (2, 0x11223344)])
    (.cvt { blank with dst := 2, srcA := 1, srcC := 2, mod := 0x303 }) 2 0 = 0x79223344 := by decide +kernel
/-- The state of the `smpl` example: v4 holds 0 but for threads 3, 7, 10, 20 and 41, and s9 of the view the threshold. -/
def smplState (s9 : Word) : State :=
  withG lbase fun g =>
    { g with
      vregs := [(4, tab 96 fun t => if t = 3 then 0x3F000000 else if t = 7 then 0x7FC00000 else if t = 10 then 0x3FC00000
        else if t = 20 then 0xC0000000 else if t = 41 then 0x40000000 else 0)]
      lane := { g.lane with view := mput g.lane.view 9 s9 } }
theorem test_smpl_half : lview (smplState 0x20000000) (.smpl { blank with dst := 332, srcA := 4, srcB := 329 }) 12 = 3 := by decide +kernel
theorem test_smpl_last : lview (smplState 0xFFFFFFFF) (.smpl { blank with dst := 332, srcA := 4, srcB := 329 }) 12 = 41 := by decide +kernel
theorem test_qpack_nan : lrow (vset lbase [(1, 0x7FC00000)]) (.qpackScale { blank with dst := 11, srcB := 1, mod := 0x828 }) 11 0 = 0x7F := by
  decide +kernel

/-! ## States and operands that meet the hypotheses of the statements: the scalar stream -/

theorem wit_scalar_alu : ∃ s x, ctx? s = some x ∧ AluFree s x [6, 7] 5 ∧ AluFree s x [6, 7] 61 ∧ AluFree s x [6, 7, 9] 0 :=
  ⟨base, cx base, ctx_base, by unfold AluFree; decide⟩
theorem wit_scalar_immediate : ∃ s x, ctx? s = some x ∧ AluFree s x [6] 5 ∧ AluFree s x [63] 63 :=
  ⟨base, cx base, ctx_base, by unfold AluFree; decide⟩
theorem wit_bit_field : ∃ s x, ctx? s = some x ∧ AluFree s x [5, 4] 4 ∧ fieldOk 32 0 ∧ fieldOk 1 31 ∧ ¬ fieldOk 0 0 ∧ ¬ fieldOk 32 1 :=
  ⟨base, cx base, ctx_base, by unfold AluFree fieldOk; decide⟩
theorem wit_division : ∃ b : Word, b ≠ 0 := ⟨0xFFFFFFFF, by decide⟩
theorem wit_scalar_frame : ∃ s x t, ctx? s = some x ∧ fieldOk 4 2 ∧ exec (.add 5 6 7) s = .next t :=
  ⟨base, cx base, after base (.add 5 6 7), ctx_base, by unfold fieldOk; decide, rfl⟩

/-- A load into s8 is in flight. -/
def loading : State := after gbase (.ldScalar 8 4 2 0 0 0 5 0)
theorem wit_interlock : ∃ s x, ctx? s = some x ∧ waitsS s x [8, 6, 7] = true ∧ waitsS s x [8, 6] = true ∧ waitsS s x [8] = true ∧
    waitsS s x [9, 6, 7, 8] = true ∧ fieldOk 4 2 := ⟨loading, cx loading, cx_some rfl, by unfold fieldOk; decide⟩

theorem wit_branch : ∃ s x, ctx? s = some x ∧ waitsS s x [7] = false ∧ invS x 7 = false ∧ (60#6).toNat ≤ 60 ∧ 60 < (61#6).toNat :=
  ⟨base, cx base, ctx_base, by decide⟩
theorem wit_jump : ∃ s x, ctx? s = some x ∧ waitsS s x [60, 60] = false ∧ invS x 60 = false := ⟨base, cx base, ctx_base, by decide⟩
theorem wit_lgo : ∃ s x, ctx? s = some x ∧ x.g.trap.h = false ∧ inEpisode x = false ∧ x.g.lane.running = false ∧
    scalarLoads s x = false ∧ x.g.lane.started = false ∧ maskOfS x.g ≠ 0 := ⟨base, cx base, ctx_base, by decide⟩
theorem wit_lgo_empty : ∃ s x, ctx? s = some x ∧ x.g.lane.running = false ∧ scalarLoads s x = false ∧ x.g.lane.started = false ∧
    maskOfS x.g = 0 := by
  refine ⟨regs base [(61, 0), (62, 0), (63, 0)], _, cx_some rfl, ?_⟩; decide
/-- A stream that has ended and was not joined: LJOIN copies back, and so does a second LGO. -/
theorem wit_ljoin : ∃ s x, ctx? s = some x ∧ x.g.trap.h = false ∧ inEpisode x = false ∧ x.g.lane.running = false ∧
    x.g.lane.started = true ∧ viewLoads s x = false ∧ scalarLoads s x = false ∧ x.g.lane.written = [9] ∧
    waitsS s x (joinRegs x.g) = false := by
  refine ⟨withG base fun g => { g with lane := { started := true, view := [(9, 5)], written := [9] } }, _, cx_some rfl, ?_⟩; decide
theorem wit_mask : ∃ s x, ctx? s = some x ∧ waitsS s x [61, 62, 63] = false ∧ (96#16).toNat ≤ 96 ∧ 96 < (97#16).toNat :=
  ⟨base, cx base, ctx_base, by decide⟩

/-- A team of two groups. -/
def two : State := withT base fun t => { t with groups := t.groups ++ [(1, probeGroup false)] }
theorem wit_exit_last : ∃ s x, ctx? s = some x ∧ inEpisode x = false ∧ x.g.lane.running = false ∧
    ((getCore s x.core).ops.any fun o => o.group == x.gi) = false ∧ (x.team.groups.any fun q => q.1 != x.gi) = false ∧ x.team.xacq = [] :=
  ⟨base, cx base, ctx_base, by decide⟩
theorem wit_exit_other : ∃ s x, ctx? s = some x ∧ inEpisode x = false ∧ x.g.lane.running = false ∧
    ((getCore s x.core).ops.any fun o => o.group == x.gi) = false ∧ (x.team.groups.any fun q => q.1 != x.gi) = true :=
  ⟨two, cx two, cx_some rfl, by decide⟩

/-! ### Scalar memory -/

theorem wit_local_load : ∃ s x, ctx? s = some x ∧ ldOk 8 4 3 0 1 5 = true ∧ MemFree s x ([4] ++ regsFrom 8 2) ∧
    LocalOk x (localAt x.g 4 0) 8 ∧ ldOk 63 4 2 0 1 5 = true := ⟨base, cx base, ctx_base, by unfold MemFree LocalOk; decide⟩
theorem wit_local_load_top : ∃ s x, ctx? s = some x ∧ LocalOk x (localAt x.g 4 (-4)) 4 ∧ (localAt x.g 4 (-4)) + 4 = localLimit x.team := by
  refine ⟨regs base [(4, 253440)], _, cx_some rfl, ?_⟩; unfold LocalOk; decide
theorem wit_local_store : ∃ s x, ctx? s = some x ∧ stOk 8 4 3 1 5 = true ∧ MemFree s x ([4] ++ regsFrom 8 2) ∧
    LocalOk x (localAt x.g 4 0) 8 := ⟨base, cx base, ctx_base, by unfold MemFree LocalOk; decide⟩
theorem wit_local_atomic : ∃ s x, ctx? s = some x ∧ MemFree s x [4, 7, 9] ∧ LocalOk x (localAt x.g 4 0) 4 ∧
    casOk 10 4 6 7 1 = true ∧ MemFree s x ([4] ++ regsFrom 6 2 ++ regsFrom 10 2) ∧ LocalOk x (localAt x.g 4 0) 8 :=
  ⟨base, cx base, ctx_base, by unfold MemFree LocalOk; decide⟩

theorem globalOk_gbase (n : Nat) (wr : Bool) (hn : n = 4 ∨ n = 8) : GlobalOk gbase (cx gbase) (globalAt (cx gbase).g 4 0) n wr := by
  have h : pagesOf (globalAt (cx gbase).g 4 0) n = [16] := by rcases hn with rfl | rfl <;> decide
  refine ⟨by rcases hn with rfl | rfl <;> decide, by rcases hn with rfl | rfl <;> cases wr <;> decide, fun pg hp => ?_⟩
  rw [h] at hp
  obtain rfl : pg = 16 := by simpa using hp
  exact ⟨0x1010, by decide⟩

theorem wit_global_load : ∃ s x, ctx? s = some x ∧ ldOk 8 4 3 0 0 5 = true ∧ MemFree s x ([4, 5] ++ regsFrom 8 2) ∧
    GlobalOk s x (globalAt x.g 4 0) 8 false :=
  ⟨gbase, cx gbase, ctx_gbase, by decide, by unfold MemFree; decide, globalOk_gbase 8 false (.inr rfl)⟩
theorem wit_global_store : ∃ s x, ctx? s = some x ∧ stOk 8 4 2 0 5 = true ∧ MemFree s x ([4, 5] ++ regsFrom 8 1) ∧
    GlobalOk s x (globalAt x.g 4 0) 4 true ∧ releaseWaits s x = false ∧ wideRelease 2 5 = true :=
  ⟨gbase, cx gbase, ctx_gbase, by decide, by unfold MemFree; decide, globalOk_gbase 4 true (.inl rfl), by decide, by decide⟩
theorem wit_global_atomic : ∃ s x, ctx? s = some x ∧ pairReg 4 = true ∧ MemFree s x ([4, 5, 7] ++ regsFrom 9 1) ∧
    GlobalOk s x (globalAt x.g 4 0) 4 true ∧ wideRelease (rmwOrder 6 0) 6 = true ∧ releaseWaits s x = false :=
  ⟨gbase, cx gbase, ctx_gbase, by decide, by unfold MemFree; decide, globalOk_gbase 4 true (.inl rfl), by decide, by decide⟩
theorem wit_global_cas : ∃ s x, ctx? s = some x ∧ casOk 10 4 6 5 1 = true ∧ MemFree s x ([4, 5] ++ regsFrom 6 2 ++ regsFrom 10 2) ∧
    GlobalOk s x (globalAt x.g 4 0) 8 true ∧ releaseWaits s x = false :=
  ⟨gbase, cx gbase, ctx_gbase, by decide, by unfold MemFree; decide, globalOk_gbase 8 true (.inr rfl), by decide⟩
theorem wit_access_fault_alignment : ∃ s x, ctx? s = some x ∧ MemFree s x ([4] ++ regsFrom 8 1) ∧ ldOk 8 4 2 0 1 5 = true ∧
    localAt x.g 4 0 % 4 ≠ 0 := by
  refine ⟨regs base [(4, 2)], _, cx_some rfl, ?_⟩; unfold MemFree; decide
theorem wit_access_fault_lease : ∃ s x, ctx? s = some x ∧ MemFree s x ([4, 5] ++ regsFrom 8 1) ∧ ldOk 8 4 2 0 0 5 = true ∧
    stOk 8 4 2 0 5 = true ∧ globalAt x.g 4 0 % 4 = 0 ∧ leaseOk x.grid (globalAt x.g 4 0) 4 false = false ∧
    leaseOk x.grid (globalAt x.g 4 0) 4 true = false := by
  refine ⟨regs base [(4, 0x50000)], _, cx_some rfl, ?_⟩; unfold MemFree; decide
theorem wit_fence_wait_pause : ∃ s x, ctx? s = some x ∧ inEpisode x = false ∧ fenceOk 2 1 3 = true ∧ pathBusy s x 3 = false ∧
    readsBusy s x = false ∧ hearWaits s x = false ∧ fenceBusy s x 2 1 true = false ∧ countOps (getCore s x.core) x.gi false ≤ 0 ∧
    countCopies s x.team x.gi ≤ 0 ∧
    countTile s x.team x.gi ≤ 0 ∧ acqPending x = false := ⟨base, cx base, ctx_base, by decide⟩
theorem wit_pause_over : ∃ s x, ctx? s = some x ∧ x.g.wait = .pause 5 ∧ 5 ≤ s.now := by
  refine ⟨{ withG base fun g => { g with state := .blocked, wait := .pause 5 } with now := 5 }, _, cx_some rfl, ?_⟩; decide

/-- Core 0 holds the line of the page in S. -/
def cached : State :=
  modCore gbase 0 fun k => { k with l1 := [{ line := 0x1000, set := 0, state := .s, data := 0 }] }
theorem wit_waitln : ∃ s x l, ctx? s = some x ∧ pairReg 4 = true ∧ MemFree s x [4, 5, 8] ∧ x.g.state ≠ .blocked ∧
    GlobalOk s x (globalAt x.g 4 0) 4 false ∧ pageMoving (getPart s x.team.part) x.grid.pasid (globalAt x.g 4 0 / 4096) = false ∧
    missFor (getCore s x.core) 0x1000 = none ∧ headAcc (getCore s x.core) 0x1000 = none ∧ l1Find (getCore s x.core) 0x1000 = some l ∧
    lineBase (hpaOf s x (globalAt x.g 4 0)) = 0x1000 ∧ BitVec.ofNat 32 (lineField l.data 16 4) = rdS x.g 8 ∧
    BitVec.ofNat 32 (lineField l.data 16 4) ≠ rdS x.g 4 := by
  refine ⟨cached, cx cached, _, cx_some rfl, by decide, by unfold MemFree; decide, by decide, ?_, by decide, by decide, by decide, rfl, by decide, by decide +kernel, by decide +kernel⟩
  refine ⟨by decide, by decide, fun pg hp => ?_⟩
  rw [show pagesOf (globalAt (cx cached).g 4 0) 4 = [16] by decide] at hp
  obtain rfl : pg = 16 := by simpa using hp
  exact ⟨0x1010, by decide⟩
theorem wit_memory : ∃ m : List Host.Cell, Memory.wf m = true ∧ m ≠ [] := ⟨[(3, 5#8)], by decide⟩

/-! ### Copies, collectives, messages and matrix commands -/

/-- A descriptor at scratch 0x1000: from 0x10000 to 0x10800 in the leased page, or as `src` and `dst` say. -/
def dma (src dst len n sstride dstride aux flags : Nat) : State :=
  withT (regs (glob { base with featEn := 0x3F }) [(24, 0x1000), (10, 0x10F00)]) fun t =>
    { t with scratch := [(0, src, 8), (8, dst, 8), (16, len, 4), (20, n, 4), (24, sstride, 4), (28, dstride, 4), (32, aux, 8),
        (48, flags, 4)].foldl (fun m q => writeLE m (0x1000 + q.1) q.2.2 q.2.1) t.scratch }

def CopyHyp (s : State) (x : Ctx) (k : CopyKind) (ft : Bool) : Prop :=
  ctx? s = some x ∧ (10#6).toNat % 2 = 0 ∧ CmdFree s x (semRegs 10 ++ [24]) ∧ x.team.copies.length < 32 ∧
    s.featEn.getLsbD 5 = true ∧ descBusy x k (rdS x.g 24).toNat (readDesc x.team (rdS x.g 24).toNat) = false ∧
    (x.team.copies.filter fun c => c.entry.isSome).length < 16 ∧ CopyChecks s x k ft (rdS x.g 24).toNat (semOf x 10)

theorem sem10 {P : Nat → Prop} {x : Ctx} (h : semOf x 10 = some 0x10F00) (hp : P 0x10F00) : ∀ a, semOf x 10 = some a → P a := by
  intro a ha; rw [h] at ha; obtain rfl : 0x10F00 = a := by simpa using ha
  exact hp

theorem wit_copy_1d : ∃ s x, CopyHyp s x .d1 false := by
  refine ⟨dma 0x10000 0x10800 128 0 0 0 0 0, _, cx_some rfl, by decide, by unfold CmdFree MemFree; decide, by decide, by decide, by decide, by decide, by decide, by decide, by decide, sem10 rfl (by decide), ?_⟩
  decide +kernel
theorem wit_copy_ft : ∃ s x, CopyHyp s x .d1 true := by
  refine ⟨dma 0x10000 0x10800 128 0 0 0 0x2000 0, _, cx_some rfl, by decide, by unfold CmdFree MemFree; decide, by decide, by decide, by decide, by decide, by decide, by decide, by decide, sem10 rfl (by decide), ?_⟩
  decide +kernel
theorem wit_copy_2d : ∃ s x, CopyHyp s x .d2 false := by
  refine ⟨dma 0x10000 0x10800 64 2 64 64 0 0, _, cx_some rfl, by decide, by unfold CmdFree MemFree; decide, by decide, by decide, by decide, by decide, by decide, by decide, by decide, sem10 rfl (by decide), ?_⟩
  decide +kernel
theorem wit_copy_gather : ∃ s x, CopyHyp s x .gather false := by
  refine ⟨dma 0x10000 0x10800 64 2 64 0 0x2000 0, _, cx_some rfl, by decide, by unfold CmdFree MemFree; decide, by decide, by decide, by decide, by decide, by decide, by decide, by decide, sem10 rfl (by decide), ?_⟩
  decide +kernel
theorem wit_copy_aon : ∃ s x, CopyHyp s x .aon false := by
  refine ⟨dma 0x10000 0x10800 128 0 0 0 0 0, _, cx_some rfl, by decide, by unfold CmdFree MemFree; decide, by decide, by decide, by decide, by decide, by decide, by decide, by decide, sem10 rfl (by decide), ?_⟩
  decide +kernel
theorem wit_copy_ver : ∃ s x, CopyHyp s x .ver false := by
  refine ⟨dma 0x10000 0x10800 128 0 0 0 0 0, _, cx_some rfl, by decide, by unfold CmdFree MemFree; decide, by decide, by decide, by decide, by decide, by decide, by decide, by decide, sem10 rfl (by decide), ?_⟩
  decide +kernel
theorem wit_copy_replay : ∃ s x, CopyHyp s x .replay false := by
  refine ⟨dma 0x10000 0x10800 128 0 0 0 0x2000 0, _, cx_some rfl, by decide, by unfold CmdFree MemFree; decide, by decide, by decide, by decide, by decide, by decide, by decide, by decide, sem10 rfl (by decide), ?_⟩
  decide +kernel
theorem wit_copy_seal : ∃ s x, CopyHyp s x .seal false := by
  refine ⟨modPart (dma 0x10000 0x4000 4096 0 0 0 0x10000 2) 0 fun v => { v with keys := [(0, { key := 0, session := 0 })] }, _, cx_some rfl, by decide, by unfold CmdFree MemFree; decide, by decide, by decide, by decide, by decide, by decide, by decide, by decide, sem10 rfl (by decide), ?_⟩
  decide +kernel

/-- A collective's descriptor at scratch 0x1000, over the mask image at 0x10000 that names core 0. -/
def ring : State :=
  let s := withT (regs (glob base) [(24, 0x1000), (10, 0x10F00)]) fun t =>
    { t with scratch := [(0, 0x10000, 8), (8, 0x2000, 4), (16, 16, 4)].foldl (fun m q => writeLE m (0x1000 + q.1) q.2.2 q.2.1) t.scratch }
  { s with mem := writeByte s.mem 0x1000 1#8 }
theorem maskCores_length (l : List Byte) : (maskCores l).length ≤ 8192 := by
  unfold maskCores; exact Nat.le_trans (List.length_filter_le _ _) (by simp)
theorem maskCores_zero {l : List Byte} (h : l.all (· == 0) = true) : maskCores l = [] := by
  refine List.filter_eq_nil_iff.mpr fun c _ => ?_
  have : l.getD (c / 8) 0 = 0 := by
    rw [List.getD_eq_getElem?_getD]
    cases e : l[c / 8]? with
    | none => rfl
    | some b => simpa using List.all_eq_true.mp h b (List.mem_of_getElem? e)
  rw [this]; simp [bit]
theorem wit_collective : ∃ s x, ctx? s = some x ∧ (10#6).toNat % 2 = 0 ∧ CmdFree s x (semRegs 10 ++ [24]) ∧ x.team.colls.length < 4 ∧
    (rdS x.g 24).toNat = 0x1000 ∧ SemOk x (semOf x 10) ∧ InScratch x [(0x1000, 32), (0x2000, 16)] ∧
    scratchRead x.team 0x1000 8 = 0x10000 ∧ scratchRead x.team 0x1008 4 = 0x2000 ∧ scratchRead x.team 0x1010 4 = 16 ∧
    scratchRead x.team 0x1014 4 = 0 ∧ scratchRead x.team 0x100C 4 = 0 ∧ scratchRead x.team 0x101C 4 = 0 ∧
    leaseOk x.grid 0x10000 1024 false = true ∧ reachOf s x.team.part x.grid.pasid 0x10000 1024 = .ready ∧
    (maskCores (readV s x.team.part x.grid.pasid 1 (coreRegion x.core) 0x10000 1024).2).contains x.core = true ∧
    0 + 16 * (maskCores (readV s x.team.part x.grid.pasid 1 (coreRegion x.core) 0x10000 1024).2).length ≤ localLimit x.team := by
  refine ⟨ring, _, cx_some rfl, by decide, by unfold CmdFree MemFree; decide, by decide, by decide, sem10 rfl (by decide), ?_⟩
  unfold InScratch
  iterate 10 refine ⟨by decide +kernel, ?_⟩
  have h := maskCores_length (readV ring (cx ring).team.part (cx ring).grid.pasid 1 (coreRegion (cx ring).core) 0x10000 1024).2
  have h2 : localLimit (cx ring).team = 253440 := by decide +kernel
  omega

/-- Core 0's die inside partition 0, and a message of tag 6 from core 5 in its queue. -/
def mail : State :=
  withT (modPart (regs base [(16, 0x1000), (11, 0x60000)]) 0 fun v => { v with cfg := 0x4C200, active := true }) fun t =>
    { t with qmsgs := [{ slot := 0, src := 5, len := 16, tag := 6 }] }
theorem wit_send : ∃ s x, ctx? s = some x ∧ (0#6).toNat % 2 = 0 ∧ CmdFree s x (semRegs 0 ++ [16, 11]) ∧ (rdS x.g 16).toNat = 0x1000 ∧
    SemOk x (semOf x 0) ∧ 0x1000 + 256 ≤ localLimit x.team ∧ (rdS x.g 11).toNat / 2 ^ 13 % 8 = 0 ∧
    partOfCore s ((rdS x.g 11).toNat % 2 ^ 13) = some x.team.part ∧ releaseWaits s x = false ∧ x.team.recvs.length < 16 ∧
    payloadBusy x 0x1000 256 = false := by
  refine ⟨mail, _, cx_some rfl, by decide, by unfold CmdFree MemFree; decide, by decide, fun a h => by simp [semOf] at h, ?_⟩
  decide +kernel
theorem wit_receive_queued : ∃ s x q, ctx? s = some x ∧ pairReg 14 = true ∧ CmdFree s x [14, 15, 11] ∧
    (x.team.qmsgs.find? fun q => msgMatch (rdS x.g 11).toNat q.src q.tag) = some q := by
  refine ⟨regs mail [(11, 0x66000)], _, { slot := 0, src := 5, len := 16, tag := 6 }, cx_some rfl, by decide, by unfold CmdFree MemFree; decide, ?_⟩
  decide
theorem wit_receive_none : ∃ s x, ctx? s = some x ∧ (x.team.qmsgs.find? fun q => msgMatch (rdS x.g 11).toNat q.src q.tag) = none :=
  ⟨base, cx base, ctx_base, by decide⟩

theorem wit_mma : ∃ s x, ctx? s = some x ∧ matOk 0 4 true = true ∧ MatFree s x (some 7) (semRegs 0 ++ [4, 5, 6]) (semOf x 0) 0 ∧
    fmtBad (readBytes x.team.scratch 0 32) 0 (s.featEn.getLsbD 4) = false ∧ (rdS x.g 4).toNat = 0 ∧ (rdS x.g 5).toNat = 0 ∧
    (rdS x.g 6).toNat = 0 := by
  refine ⟨base, cx base, ctx_base, by decide, ⟨by unfold CmdFree MemFree; decide, by decide, by decide, ?_, fun a h => by simp [semOf] at h, by decide⟩, by decide⟩
  intro t h; obtain rfl : 7 = t := by simpa using h
  decide
theorem wit_mma_shape : mmaBoff 0 % 32 = 0 ∧ (fmtBlock (List.replicate 32 0)).stride % 16 = 0 ∧ (fmtBlock (List.replicate 32 0)).fa = 0 ∧
    mmaBoff 0 + matBytes 0 (mmaKc 0 * min (matChunk 0) (matChunk 0)) ≤ 32768 ∧
    InScratch (cx base) [(0, (mmaM 0 - 1) * 0 + matBytes 0 (mmaKc 0 * matChunk 0)), (0, 32)] := by unfold InScratch; decide
theorem wit_mlb : ∃ s x, ctx? s = some x ∧ matOk 0 4 false = true ∧ MatFree s x none (semRegs 0 ++ [4] ++ [6]) (semOf x 0) 0 ∧
    mlbBoff (rdS x.g 6).toNat + mlbLen (rdS x.g 6).toNat ≤ 32768 ∧
    InScratch x ((List.range 64).map fun j => (0 + j * mlbStride 0, mlbLen 0)) := by
  refine ⟨base, cx base, ctx_base, by decide, ⟨by unfold CmdFree MemFree; decide, by decide, by decide, fun t h => by simp at h, fun a h => by simp [semOf] at h, by decide⟩, by decide, ?_⟩
  unfold InScratch; decide
theorem wit_acccpy : ∃ s x, ctx? s = some x ∧ matOk 0 4 false = true ∧ MatFree s x (some 0) (semRegs 0 ++ [4, 6]) (semOf x 0) 0 ∧
    accStride (rdS x.g 6).toNat % 16 = 0 ∧ 256 ≤ accStride (rdS x.g 6).toNat ∧ (rdS x.g 6).toNat / 2 ^ 30 = 0 ∧
    rowFirst (rdS x.g 6).toNat + rowCount (rdS x.g 6).toNat ≤ 64 ∧
    InScratch x [(0, (rowCount (rdS x.g 6).toNat - 1) * accStride (rdS x.g 6).toNat + 256)] := by
  refine ⟨regs base [(6, 0x100000)], _, cx_some rfl, by decide, ⟨by unfold CmdFree MemFree; decide, by decide, by decide, ?_, fun a h => by simp [semOf] at h, by decide⟩, ?_⟩
  · intro t h; obtain rfl : 0 = t := by simpa using h
    decide
  · unfold InScratch; decide
theorem wit_mdrain : ∃ s x, ctx? s = some x ∧ matOk 0 4 false = true ∧ MatFree s x (some 0) (semRegs 0 ++ [4, 6]) (semOf x 0) 0 ∧
    (drainOf (rdS x.g 6).toNat (readBytes x.team.scratch 0 64)).outLocal = true ∧
    (drainSize (drainOf (rdS x.g 6).toNat (readBytes x.team.scratch 0 64)).fmt).isSome ∧
    (drainOf (rdS x.g 6).toNat (readBytes x.team.scratch 0 64)).first + (drainOf (rdS x.g 6).toNat (readBytes x.team.scratch 0 64)).rows ≤ 64 ∧
    (rdS x.g 6).toNat / 2 ^ 21 % 16 = 0 ∧ (rdS x.g 6).toNat / 2 ^ 25 = 0 := by
  refine ⟨regs base [(6, 0x80000)], _, cx_some rfl, by decide, ⟨by unfold CmdFree MemFree; decide, by decide, by decide, ?_, fun a h => by simp [semOf] at h, by decide⟩, ?_⟩
  · intro t h; obtain rfl : 0 = t := by simpa using h
    decide
  · decide +kernel
theorem wit_matrix_tile_fault : ∃ s x, ctx? s = some x ∧ matOk 0 4 false = true ∧ x.team.tilesN ≤ 4 := by
  refine ⟨withT base fun t => { t with tilesN := 4 }, _, cx_some rfl, ?_⟩; decide
theorem wit_matrix_leader_fault : ∃ s x, ctx? s = some x ∧ CmdFree s x (semRegs 0 ++ [4, 6]) ∧ CmdFree s x (semRegs 0 ++ [4, 5, 6]) ∧
    leaderOf x.team ≠ some x.gi ∧ 0 < x.team.tilesN ∧ matOk 0 4 true = true ∧ matOk 0 4 false = true := by
  refine ⟨{ two with cur := { core := 0, group := 1, lane := false } }, _, cx_some rfl, ?_⟩; unfold CmdFree MemFree; decide

/-! ### Semaphores, barriers, grids, windows and system registers -/

theorem wit_semaphore : ∃ s x, ctx? s = some x ∧ semOk 4 5 = true ∧ MemFree s x [4, 5, 8] ∧ globalAt x.g 4 0 % 8 = 0 ∧
    GlobalOk s x (globalAt x.g 4 0) 4 true ∧ GlobalOk s x (globalAt x.g 4 0) 4 false ∧ releaseWaits s x = false ∧
    (s.semWaits.any fun w => w.core == x.core && w.group == x.gi) = false ∧
    pageMoving (getPart s x.team.part) x.grid.pasid (globalAt x.g 4 0 / 4096) = false ∧
    lineQuiet s x.team.part (lineBase (hpaOf s x (globalAt x.g 4 0))) = true :=
  ⟨gbase, cx gbase, ctx_gbase, by decide, by unfold MemFree; decide, by decide, globalOk_gbase 4 true (.inl rfl),
    globalOk_gbase 4 false (.inl rfl), by decide⟩
theorem wit_semwait_takes : (rdS (cx (regs gbase [(8, 2)])).g 8).toNat ≤ semCount (pullLine { gbase with mem := [(0x1010, 3#8)] } 0 0x1000) 0 0x1010 ∧
    rdS (cx (regs gbase [(8, 2)])).g 8 ≠ 0 := by decide +kernel
theorem wit_semwait_waits : semCount (pullLine gbase 0 0x1000) 0 0x1010 < (rdS (cx (regs gbase [(8, 2)])).g 8).toNat := by decide +kernel
theorem wit_barrier : ∃ s x, ctx? s = some x ∧ barOk 3 = true ∧ MemFree s x [] ∧ barFault s x 3 = false ∧ barFault s x 16 = true ∧
    x.g.arrived.contains 3 = false ∧ releaseWaits s x = false ∧ waitsS s x [8] = false := by
  refine ⟨base, cx base, ctx_base, ?_⟩; unfold MemFree; decide
theorem wit_barrier_arrived : ∃ s x, ctx? s = some x ∧ barFault s x 3 = false ∧ x.g.arrived.contains 3 = true := by
  refine ⟨withG base fun g => { g with arrived := [3] }, _, cx_some rfl, ?_⟩; decide
theorem wit_barrier_release : ∃ (t : Team) (b : Nat), (∃ g ∈ mvals t.groups, b ∈ g.arrived) ∧
    ∀ g ∈ mvals t.groups, b ∈ g.arrived ∨ g.state = .exiting := by
  refine ⟨(cx (withG base fun g => { g with arrived := [3] })).team, 3, ?_⟩; decide
theorem wit_barrier_stays : ∃ (t : Team) (b : Nat), ∃ g ∈ mvals t.groups, b ∉ g.arrived ∧ g.state ≠ .exiting := by
  refine ⟨(cx base).team, 3, ?_⟩; decide

/-- A launch parameter block at 0x200 of the page at 0, for the kernel at 0x400 of that page; partition 0 has dies 0 and up. -/
def boot : State :=
  let s := modPart (regs base [(6, 0x200)]) 0 fun v => { v with cfg := 0x4C200, active := true }
  { s with
    featEn := 0x3F
    mem := [(0x200, 0x400, 8), (0x210, 0x4001, 2), (0x218, 0x10001, 4), (0x400, 0x6B68C02100000000000000000000000100020002000200010000400347584A4B, 128)].foldl
      (fun m q => writeLE m (memKey (getPart s 0) q.1) q.2.2 q.2.1) [] }

theorem test_crc : crc32c ((List.range 9).map fun i => BitVec.ofNat 8 (0x31 + i)) = 0xE3069283 := by decide +kernel
theorem test_launch : sreg boot (.launch 9 6) 9 = 0 := by decide +kernel
theorem test_launch_checksum : sreg { boot with mem := writeByte boot.mem (memKey (getPart boot 0) 0x440) 1#8 } (.launch 9 6) 9 = 3 := by decide +kernel
theorem wit_launch : ∃ s x, ctx? s = some x ∧ pairReg 6 = true ∧ MemFree s x [9, 6, 7] ∧ gridLimit (getPart s x.team.part) = false ∧
    releaseWaits s x = false ∧ leaderOf x.team = some x.gi ∧ x.grid.depth < 10 ∧ globalAt x.g 6 0 % 128 = 0 ∧
    globalFault s x (globalAt x.g 6 0) 128 false = none := by
  refine ⟨boot, _, cx_some rfl, ?_⟩; unfold MemFree; decide +kernel
theorem wit_launch_reads : launchQuiet boot 0 0 0x200 (lpbOf ((unitRead boot 0 0 0x200 128).getD [])) = true ∧
    (launchRead boot 0 0 (some (cx boot).grid) (lpbOf ((unitRead boot 0 0 0x200 128).getD [])) []).1 = 0 ∧
    (lpbOf ((unitRead boot 0 0 0x200 128).getD [])).count = 0 := by decide +kernel
theorem wit_launch_status : launchQuiet base 0 0 0x200 (lpbOf ((unitRead base 0 0 0x200 128).getD [])) = true ∧
    (launchRead base 0 0 (some (cx base).grid) (lpbOf ((unitRead base 0 0 0x200 128).getD [])) []).1 ≠ 0 := by decide +kernel
theorem wit_launch_leader : ∃ s x, ctx? s = some x ∧ leaderOf x.team ≠ some x.gi := by
  refine ⟨{ two with cur := { core := 0, group := 1, lane := false } }, _, cx_some rfl, ?_⟩; decide
theorem wit_launch_depth : ∃ s x, ctx? s = some x ∧ leaderOf x.team = some x.gi ∧ 10 ≤ x.grid.depth := by
  refine ⟨withQ base fun q => { q with depth := 10 }, _, cx_some rfl, ?_⟩; decide
theorem wit_spawn : ∃ s x, ctx? s = some x ∧ MemFree s x [4, 5] ∧ (rdS x.g 4).toNat % 4 = 0 ∧
    (rdS x.g 4).toNat < 4 * x.grid.hdr.scalarSize ∧ binFor x.team (rdS x.g 4) = some 0 ∧ mget? x.team.bins 0 = none := by
  refine ⟨base, cx base, ctx_base, ?_⟩; unfold MemFree; decide
theorem wit_spawn_full : ∃ s x, ctx? s = some x ∧ binFor x.team (rdS x.g 4) = none := by
  refine ⟨withT base fun t => { t with bins := [0, 1, 2, 3].map fun n => (n, { key := 4, args := [0], since := 0, due := 9 }) }, _, cx_some rfl, ?_⟩
  decide
theorem wit_join_goes : ∃ s x g, ctx? s = some x ∧ s.incs = [] ∧ x.team.children = [0] ∧ gridOf s x.team.part 0 = some g ∧ g.state = .ended :=
  ⟨withQ (withT base fun t => { t with children := [0] }) fun q => { q with state := .ended }, _, _, cx_some rfl, rfl, rfl, rfl, rfl⟩
theorem wit_join_waits : ∃ s x g, ctx? s = some x ∧ x.team.children = [0] ∧ gridOf s x.team.part 0 = some g ∧
    g.state ≠ .retired ∧ g.state ≠ .ended :=
  ⟨withT base fun t => { t with children := [0] }, _, _, cx_some rfl, rfl, rfl, by decide⟩
/-- The group waits for the children that stood when it began to. -/
theorem wit_join_blocked : ∃ s x, ctx? s = some x ∧ x.g.wait = .joinc [3] ∧ x.team.children = [3, 4] := by
  refine ⟨withT (withG base fun g => { g with wait := .joinc [3] }) fun t => { t with children := [3, 4] }, _, cx_some rfl, ?_⟩
  decide
theorem wit_windows : ∃ s x, ctx? s = some x ∧ MemFree s x [] ∧ (5 &&& ~~~x.g.windows) ≠ 0 ∧ mget? x.team.xacq x.gi = none ∧
    (2 &&& ~~~x.g.windows) = 0 ∧ windowLoads s x (2 &&& x.g.windows) = false := by
  refine ⟨withG base fun g => { g with windows := 2 }, _, cx_some rfl, ?_⟩; unfold MemFree; decide
theorem wit_grant_windows : ∃ (t : Team) (m : BitVec 4) (g : Group), t.xacq = [(0, m)] ∧ mget? t.groups 0 = some g ∧
    popMask (m &&& ~~~g.windows) ≤ freeBlocks t := by
  refine ⟨(cx (withT base fun t => { t with xacq := [(0, 15)] })).team, 15, _, rfl, rfl, ?_⟩; decide
theorem wit_schuss_on : ∃ s x, ctx? s = some x ∧ MemFree s x [] ∧ s.featEn.getLsbD 3 = true := by
  refine ⟨{ base with featEn := 8 }, _, cx_some rfl, ?_⟩; unfold MemFree; decide
theorem wit_schuss_off : ∃ s x, ctx? s = some x ∧ MemFree s x [] ∧ s.featEn.getLsbD 3 = false := by
  refine ⟨base, cx base, ctx_base, ?_⟩; unfold MemFree; decide
theorem wit_hints : ∃ s x, ctx? s = some x ∧ inEpisode x = false ∧ pairReg 5 = false ∧ pairReg 4 = true ∧ waitsS s x [4, 5] = false ∧
    leaseOk x.grid (globalAt x.g 4 0) 1 false = false := by
  refine ⟨regs base [(4, 0x50000)], _, cx_some rfl, ?_⟩; decide
theorem wit_loc_home : ∃ s x, ctx? s = some x ∧ pairReg 4 = true ∧ waitsS s x [8, 4, 5] = false ∧ inEpisode x = false ∧
    xlatAtHand s x (globalAt x.g 4 0) = true ∧ leaseOk x.grid (globalAt x.g 4 0) 1 false = true := by
  refine ⟨gbase, cx gbase, ctx_gbase, ?_⟩; decide
/-- A page of host memory, where the partition has no window, and one of its near window. -/
theorem wit_loc_tiers : translate gbase 0 0 (globalAt (cx gbase).g 4 0) = .ok 0x1010 ∧ tierOf gbase 0 0x1010 = some 2 ∧
    (∀ s, s = modPart gbase 0 (fun v => { v with cfg := 0x4C200, active := true }) →
      tierOf s 0 0x1010 = some 0 ∧ (memHome (getPart s 0) 0x1010).isSome) := by
  refine ⟨by decide, by decide, ?_⟩
  rintro s rfl
  decide +kernel
theorem wit_system : ∃ s x, ctx? s = some x ∧ sysOk 8 0x010 = true ∧ waitsS s x [8] = false ∧ sysOk 8 0x005 = true ∧
    sysWide 0x005 = true ∧ waitsS s x [8, 9] = false ∧ sysOk 9 0x005 = false ∧ inEpisode x = false ∧ readOnlySys 0x014 = true := by
  refine ⟨base, cx base, ctx_base, ?_⟩; decide
theorem wit_system_top : ∃ s x, ctx? s = some x ∧ x.grid.depth = 0 ∧ inEpisode x = false ∧ waitsS s x [8, 9] = false ∧
    sysOk 8 0x103 = true ∧ sysOk 8 0x26F = true ∧ readOnlyTop 0x108 = true ∧ readOnlyTop 0x10B = true ∧ readOnlyTop 0x220 = true ∧ readOnlyTop 0x24F = true ∧
    readOnlyTop 0x104 = false ∧ readOnlySys 0x250 = true ∧ readOnlySys 0x26F = true := by
  refine ⟨base, cx base, ctx_base, ?_⟩; decide +kernel
/-- Context 1 of Noon with its image at `a`, and s8 asking to arm it and to clear ARMERR. -/
def arming (a : BitVec 57) : State :=
  modPart (regs gbase [(8, 9)]) 0 fun v => { v with noon := [(1, { addr := a, armErr := true })] }
theorem wit_arm_misaligned : (rdS (cx (arming 0x10020)).g 8).getLsbD 0 = true ∧ (0x10020#57).toNat % 64 ≠ 0 ∧ ctx? (arming 0x10020) = some (cx (arming 0x10020)) :=
  ⟨by decide, by decide, cx_some rfl⟩
theorem wit_arm_away : ∃ s x, ctx? s = some x ∧ globalFault s x 0x50000 1024 false = some 0x20 :=
  ⟨arming 0x50000, _, cx_some rfl, by decide +kernel⟩
theorem wit_arm : ∃ s x, ctx? s = some x ∧ globalFault s x 0x10000 1024 false = none ∧ acqPending x = false ∧
    ((getCore s x.core).ops.any fun o => o.group == x.gi && (!x.g.lane.started || !o.lane)) = false ∧
    reachOf s x.team.part x.grid.pasid 0x10000 1024 = .ready ∧ noonPending s x.team.part 1 = false ∧ hearWaits s x = false ∧
    bytesOwed s x 0x10000 1024 = false ∧ (getPart s x.team.part).saved = [] ∧
    (s.cores.all fun q => !q.2.retired && match q.2.team with | some t => t.stood.isEmpty | none => true) = true ∧
    maskCores (readV s x.team.part x.grid.pasid 0 (coreRegion x.core) 0x10000 1024).2 = [] :=
  ⟨arming 0x10000, _, cx_some rfl, by decide +kernel, by decide, by decide, by decide +kernel, by decide, by decide, by decide +kernel, by decide, by decide,
    maskCores_zero (by decide +kernel)⟩
/-- A group's arrival at the context stands: the ARM is refused. -/
theorem wit_arm_pending : noonPending (withG (arming 0x10000) fun g => { g with arrived := [17] }) 0 1 = true := by decide
theorem wit_power_here : hasRegion (getPart (modPart base 0 fun v => { v with cfg := 0x4C200 }) 0) 0 = true ∧
    hasRegion (getPart (modPart base 0 fun v => { v with cfg := 0x4C200 }) 0) 15 = false := by decide +kernel
theorem wit_system_depth : ∃ s x, ctx? s = some x ∧ depthZeroReg 0x200 = true ∧ x.grid.depth ≠ 0 := by
  refine ⟨withQ base fun q => { q with depth := 1 }, _, cx_some rfl, ?_⟩; decide
theorem wit_fault_handled : ∃ s x, ctx? s = some x ∧ x.g.episode = none ∧ handles x.g = true := by
  refine ⟨handled base, _, cx_some rfl, ?_⟩; decide
theorem wit_fault_ends : ∃ s x, ctx? s = some x ∧ x.g.episode = none ∧ x.g.trap.tvec.toNat / 4 = 0 ∧
    bit (getPart s x.team.part).fqcfg.toNat 0 = true := by
  refine ⟨modPart base 0 fun v => { v with fqcfg := 1 }, _, cx_some rfl, ?_⟩; decide
theorem wit_trap : ∃ s x, ctx? s = some x ∧ x.g.episode = none ∧ handles x.g = false ∧
    bufferFull s x.team.part (dieOf x.core) = false ∧ (getPart s x.team.part).dbg = false := by
  refine ⟨base, cx base, ctx_base, ?_⟩; decide
theorem wit_tret : ∃ s x, ctx? s = some x ∧ x.g.episode = none ∧ x.g.trap.h = true ∧ x.g.lane.suspended = true ∧
    x.g.trap.tlpc ≠ 0xFFFFFFFF#32 ∧ laneMask x.g ≠ 0 ∧ x.g.lane.rpc ≠ some x.g.trap.tlpc.toNat := by
  refine ⟨{ withG lbase fun g => { g with trap := { g.trap with h := true, tlpc := 12 }, lane := { g.lane with suspended := true } } with
    cur := { core := 0, group := 0, lane := false } }, _, cx_some rfl, ?_⟩; decide
theorem wit_tret_ends : ∃ s x, ctx? s = some x ∧ x.g.episode = none ∧ x.g.trap.h = true ∧ x.g.lane.suspended = true ∧
    x.g.trap.tlpc = 0xFFFFFFFF#32 := by
  refine ⟨{ withG lbase fun g => { g with trap := { g.trap with h := true, tlpc := 0xFFFFFFFF }, lane := { g.lane with suspended := true } } with
    cur := { core := 0, group := 0, lane := false } }, _, cx_some rfl, ?_⟩; decide
theorem wit_dclk : ∃ s x, ctx? s = some x ∧ pairOrZero 16 = true ∧ pairOrZero 17 = false ∧ waitsS s x [16, 17] = false := by
  refine ⟨base, cx base, ctx_base, ?_⟩; decide

/-! ### Lane words -/

/-- A word legal for an operation: sources of the kinds it takes. -/
def wordFor (op : LaneOp) : LaneWord :=
  let mod : BitVec 12 := if op = .qpackScale then 0x028 else 0
  let f := fun (use : Src) (v : BitVec 9) => match use with | .unused => 0 | .pred => 385 | .scalOrConst => 329 | _ => v
  let use := srcUse op mod.toNat
  { blank with
    dst := (match dstUse op with | .none => 0 | .vec => 4 | .pred | .predOrVec | .predOrScal => 386 | .scal | .scal3 => 330)
    srcA := f use.1 1, srcB := f use.2.1 2, srcC := f use.2.2 3, mod := mod }

theorem wit_lane_int : ∀ q ∈ laneIntTable blank ++ laneThreeTable blank ++ laneCmpTable blank,
    LaneFree lbase (cx lbase) q.2.1 (wordFor q.2.1) := by
  unfold LaneFree; decide +kernel
theorem wit_lane_float : ∀ q ∈ laneFloatTable blank ++ laneConvTable 0 blank, LaneFree lbase (cx lbase) q.2.1 (wordFor q.2.1) := by
  unfold LaneFree; decide +kernel
theorem wit_lane_goes_on : (cx lbase).g.lane.running = true ∧ laneMask (cx lbase).g ≠ 0 ∧
    (cx lbase).g.lane.rpc ≠ some ((cx lbase).g.lane.lpc + 1) := by decide
theorem wit_round : ∃ b, b < 2 ^ Fmt.f16.width ∧ ∃ n m e, decodeF .f16 b = .fin n m e := by
  exact ⟨0x3C01, by decide, _, _, _, rfl⟩
theorem wit_lane_illegal : aluLegal .addI32 { blank with dst := 384 } = false := by decide
theorem wit_lane_bad : aluLegal .addI32 { blank with dst := 200 } = true ∧ badReg (cx lbase) (namedRegs .addI32 { blank with dst := 200 }) = some 0 := by
  decide
/-- A load outstanding on v1. -/
def pendingLoad : PendOp :=
  { id := 0
    group := 0
    lane := true
    kind := .ld
    dest := .vregs 1 1
    width := 4
    sext := false
    threads := allThreads
    uni := false
    attr := { order := 0, scope := 5 }
    issued := 0
    pc := 0 }
def loadingV1 : State := modCore lbase 0 fun c => { c with ops := [pendingLoad] }
theorem wit_lane_waits : ∃ s x, ctx? s = some x ∧ badReg x (namedRegs .mov (wordFor .mov)) = none ∧
    aluLegal .mov { wordFor .mov with srcB := 1 } = true ∧ waitsL s x (vecUses .mov { wordFor .mov with srcB := 1 })
      (scalUses .mov { wordFor .mov with srcB := 1 }) = true := by
  refine ⟨loadingV1, _, cx_some rfl, ?_⟩; decide
theorem wit_cross : ∀ op ∈ [LaneOp.voteAny, .voteAll, .firstThread, .ballot, .smpl], LaneFree lbase (cx lbase) op (wordFor op) := by
  unfold LaneFree; decide
theorem wit_paired : ∃ s x a b p q, ctx? s = some x ∧ x.lane = true ∧ inEpisode x = false ∧ pairOps x.grid.hdr.version a b = some (p, q) ∧
    aluLegal p (shortWord a) = true ∧ aluLegal q (shortWord b) = true ∧ pairLegal p q (shortWord a) (shortWord b) = true ∧
    badReg x (namedRegs p (shortWord a)) = none ∧ badReg x (namedRegs q (shortWord b)) = none ∧
    waitsL s x (vecUses p (shortWord a) ++ vecUses q (shortWord b)) (scalUses p (shortWord a) ++ scalUses q (shortWord b)) = false :=
  ⟨lbase, cx lbase, { op := 0x08, dst := 4, srcA := 8, srcB := 1, rtB := 0, pred := 0 },
    { op := 0x2A, dst := 6, srcA := 14, srcB := 3, rtB := 0x190, pred := 0 }, .addI32, .mulF32, ctx_lbase, by decide⟩

/-! ### Lane memory -/

/-- Every thread at its own bytes: v6 = 0x100 + 16 t. -/
def lmem : State := withG lbase fun g => { g with vregs := [(6, tab 96 fun t => BitVec.ofNat 32 (0x100 + 16 * t))] }
theorem ctx_lmem : ctx? lmem = some (cx lmem) := cx_some rfl
theorem localOk_lmem (x : Ctx) (w : LaneWord) (T : Mask) (n : Nat)
    (h : (List.range 96).all (fun u => !mtest T u || (decide (laneLocalAt x.g w u % n = 0) &&
      (decide (laneLocalAt x.g w u + n ≤ localLimit x.team)) && (boardHit x.team (laneLocalAt x.g w u) n == false))) = true) :
    LanesLocalOk x w T n := by
  intro u hu hm
  have := List.all_eq_true.mp h u (List.mem_range.mpr hu)
  simp [hm] at this
  unfold LocalOk
  simp_all

/-- One word of scratch for each thread, and with U = 1 one for all. -/
def lword (u : BitVec 1) : LaneWord := { blank with dst := 4, srcA := 6, mod := 0x012, u := u }
theorem wit_lane_local_legal : ∀ u ∈ [0#1, 1#1],
    LaneMemFree lmem (cx lmem) .ld (lword u) ∧ LaneMemFree lmem (cx lmem) .st { lword u with dst := 0, srcB := 6 } ∧
    LaneMemFree lmem (cx lmem) .atom { lword u with srcB := 6 } ∧ LaneMemFree lmem (cx lmem) .cas { lword u with srcB := 6 } := by
  unfold LaneMemFree; decide
theorem wit_lane_local_ok : LanesLocalOk (cx lmem) (lword 0) (memThreads (cx lmem) (lword 0)) 4 :=
  localOk_lmem _ _ _ _ (by decide +kernel)
theorem wit_lane_local_uni : LanesLocalOk (cx lmem) (lword 1) (memThreads (cx lmem) (lword 1)) 4 :=
  localOk_lmem _ _ _ _ (by decide +kernel)
theorem wit_lane_stream : (cx lmem).lane = true ∧ mLocal (lword 0).mod.toNat = true := by decide
/-- The last word of scratch. -/
theorem wit_lane_local_last : (cx lmem).team.scratch = [] ∧ ∃ a, a % 4 = 0 ∧ a + 4 = localLimit (cx lmem).team := by
  refine ⟨by decide, localLimit (cx lmem).team - 4, by decide⟩

/-- Threads 0 and 3, each at its own bytes of the page at 0x10000. -/
def gmem : State := withG (glob lbase) fun g => { g with
  vregs := [(6, tab 96 fun t => BitVec.ofNat 32 (0x10000 + 16 * t)), (7, tab 96 fun _ => 0)]
  lane := { g.lane with view := [(61, 9), (62, 0), (63, 0)] } }
theorem ctx_gmem : ctx? gmem = some (cx gmem) := cx_some rfl
def gword : LaneWord := { blank with dst := 4, srcA := 6, mod := 0x282 }
theorem wit_lane_global_legal : LaneMemFree gmem (cx gmem) .ld gword ∧ LaneMemFree gmem (cx gmem) .st { gword with dst := 0, srcB := 6 } ∧
    LaneMemFree gmem (cx gmem) .atom { gword with srcB := 6 } ∧ LaneMemFree gmem (cx gmem) .cas { gword with srcB := 6 } ∧
    LaneMemFree gmem (cx gmem) .ll gword ∧ LaneMemFree gmem (cx gmem) .sc { gword with srcB := 6 } := by
  unfold LaneMemFree; decide
theorem wit_lane_global : laneFault gmem (cx gmem) .ld gword = none ∧ memThreads (cx gmem) gword ≠ 0 ∧
    mLocal gword.mod.toNat = false ∧ releaseWaits gmem (cx gmem) = false := by decide +kernel
theorem wit_lane_global_fault : ∃ s x, ctx? s = some x ∧ laneFault s x .ld gword = some (0x20, 9) := by
  refine ⟨withQ gmem fun q => { q with leases := [] }, _, cx_some rfl, ?_⟩; decide +kernel
/-- No thread accesses: a uniform word whose thread 0 fails its guard, and one whose threads all do. -/
theorem wit_lane_global_none : ∀ u ∈ [0#1, 1#1], LaneMemFree gmem (cx gmem) .ll { gword with pred := 1, u := u } ∧
    memThreads (cx gmem) { gword with pred := 1, u := u } = 0 := by
  unfold LaneMemFree; decide
/-- A tile at 0x10000, its version word among its bytes. -/
theorem wit_lane_tile : ∃ s x w, ctx? s = some x ∧ LaneMemFree s x .ldVer w ∧ laneFault s x .ldVer w = none := by
  refine ⟨withG gmem fun g =>
    { g with
      lane := { g.lane with view := mput g.lane.view 4 0x10000 }
      vregs := (8, tab 96 fun _ => 0) :: g.vregs },
    _, { gword with srcA := 324, srcB := 8, mod := 0x682 }, cx_some rfl, ?_⟩
  unfold LaneMemFree; decide +kernel

/-! ### Lane control and hints -/

/-- Predicate 1 holds in the upper threads. -/
def split : State := withG lbase fun g =>
  { g with preds := [(1, ~~~0xFFFF#96)], vregs := [(2, tab 96 fun t => BitVec.ofNat 32 (t % 3))] }
theorem ctx_split : ctx? split = some (cx split) := cx_some rfl
theorem wit_bra : CtlFree split (cx split) .bra { blank with pred := 1 } ∧
    mfirst (laneMask (cx split).g &&& guardMask (cx split).g { blank with pred := 1 }) = some 16 ∧
    mfirst (laneMask (cx split).g &&& ~~~(guardMask (cx split).g { blank with pred := 1 })) = some 0 := by
  unfold CtlFree; decide
theorem wit_bra_together : laneMask (cx split).g &&& ~~~(guardMask (cx split).g blank) = 0 ∧
    laneMask (cx split).g &&& guardMask (cx split).g { blank with neg := 1 } = 0 ∧ CtlFree split (cx split) .bra { blank with neg := 1 } := by
  unfold CtlFree; decide
/-- A full stack of paths. -/
theorem wit_bra_depth : 32 < ({ join := false, lpc := 1, mask := 1, rpc := none } :: (List.replicate 32 { join := false, lpc := 0, mask := 1, rpc := none }) : List PathEntry).length := by
  decide
/-- A table of two words, and of three. -/
theorem wit_brx : CtlFree split (cx split) .brx { blank with dst := 2, rtC := 0, srcC := 1 } ∧ ctlN { blank with dst := 2, srcC := 1 } = 3 := by
  unfold CtlFree; decide
theorem wit_brx_same : ∀ u ∈ List.range 96, mtest (laneMask (cx split).g) u = true →
    min (operand (cx split).g .int 2 0 u).toNat (ctlN { blank with dst := 2 } - 1) = 0 := by decide +kernel
theorem wit_brx_leads : ((maskThreads (laneMask (cx split).g)).filter fun u => (maskThreads (laneMask (cx split).g)).all fun v =>
    u ≤ v || v % 3 != u % 3) = 0 :: 1 :: [2] := by decide +kernel
theorem wit_lend : CtlFree lbase (cx lbase) .lend blank ∧ (cx lbase).g.lane.stack = [] ∧ (cx lbase).g.lane.running = true ∧
    CtlFree lbase (cx lbase) .exit blank := by unfold CtlFree; decide
theorem wit_lend_stack : ∃ s x, ctx? s = some x ∧ ∃ e r, x.g.lane.stack = e :: r ∧ x.g.lane.running = true ∧
    e.mask &&& ~~~(laneMask x.g) &&& x.g.live ≠ 0 ∧ e.rpc ≠ some e.lpc := by
  refine ⟨withG lbase fun g =>
    { g with lane := { g.lane with view := [(61, 1), (62, 0), (63, 0)], stack := [{ join := false, lpc := 4, mask := 2, rpc := none }] } },
    _, cx_some rfl, _, _, rfl, ?_⟩
  decide
theorem wit_hint_base : LaneFree lbase (cx lbase) .nopLane blank ∧ basePairOk 321 = false ∧ basePairOk 6 = true ∧
    vregHeld (cx lbase) 6 = true ∧ vregHeld (cx lbase) 7 = true ∧ waitsL lbase (cx lbase) [6, 7] [] = false ∧
    waitsL lbase (cx lbase) [] [2, 3] = false := by unfold LaneFree; decide

/-! ### Steps of a core -/

/-- Partition 0 with all of board 0's first dies, active. -/
def active (s : State) : State := modPart s 0 fun v => { v with cfg := 0x4C200, active := true }
def withC (s : State) (f : Core → Core) : State := modCore s 0 f
def blocked (w : Wait) : State := withG base fun g => { g with state := .blocked, wait := w }

theorem wit_pause_done : ∃ s g, groupOf s 0 0 = some g ∧ g.state = .blocked ∧ g.wait = .pause 0 ∧ coreStopped s 0 = false :=
  ⟨blocked (.pause 0), _, rfl, by decide⟩
theorem wit_waitln_over : ∃ s g, groupOf s 0 0 = some g ∧ g.state = .blocked ∧ g.wait = .waitln 0 0 ∧ 0 + 100000 ≤ s.now :=
  ⟨{ blocked (.waitln 0 0) with now := 100000 }, _, rfl, by decide⟩
def binned : State := withT base fun t => { t with bins := [(2, { key := 8, args := [7, 9], since := 0, due := 0, expired := true })] }
theorem wit_bin_due : ∃ s tm q, teamOf s 0 = some tm ∧ mget? tm.bins 2 = some q ∧ q.due ≤ s.now := ⟨binned, _, _, rfl, rfl, by decide⟩
theorem wit_load_long : ∃ s o, opOf (getCore s 0) 0 = some o ∧ o.kind = .ld ∧ o.issued + 400 * coreDiv s 0 ≤ s.now :=
  ⟨{ loadingV1 with now := 100000 }, _, rfl, by decide⟩
theorem wit_boost : ∃ s g, groupOf s 0 0 = some g ∧ g.readySince = some 0 ∧ g.boosted = none ∧ 0 + 1024 * coreDiv s 0 ≤ s.now ∧
    streamReady s 0 0 false = true :=
  ⟨{ withG base fun g => { g with readySince := some 0 } with now := 100000 }, _, rfl, by decide⟩
theorem wit_boost_lane : ∃ s g, groupOf s 0 0 = some g ∧ g.laneReadySince = some 0 ∧ g.boosted = none ∧
    0 + 1024 * coreDiv s 0 ≤ s.now ∧ streamReady s 0 0 true = true :=
  ⟨{ withG lbase fun g => { g with laneReadySince := some 0 } with now := 100000 }, _, rfl, by decide⟩
theorem wit_select_gathers : ∃ s, coreStopped s 0 = false ∧
    ((readyGroups s 0 true).filter fun q => q.2.lane.gathered.isSome).map (·.1) = [0] ∧ choice s 0 true (readyGroups s 0 true) = some 0 ∧
    (getCore s 0).winLeft = 3 ∧ 0 ∉ (getCore s 0).winServed :=
  ⟨withC (withG lbase fun g => { g with lane := { g.lane with gathered := some 1 } }) fun c => { c with winLeft := 3 }, by decide⟩
theorem some_getD {o : Option Ctx} (h : o.isSome = true) : o = some (o.getD anyCtx) := by
  revert h; cases o <;> simp
/-- The lane stream's next word is MOV v4 from v1, which reads one bank. -/
def moves : State := { State.reset.withFetchWord 96 0x1020000000800000000000 with cur := { core := 0, group := 0, lane := true } }
theorem wit_select_spent : ∃ s x i, (getCore s 0).winLeft = 0 ∧ choice s 0 true (readyGroups s 0 true) = some 0 ∧
    streamAt s 0 0 true = some x ∧ nextInstr s x = some i ∧ grantsNeeded x i ≠ 0 ∧ (getCore s 0).laneBusy ≤ s.now :=
  ⟨withC moves fun c => { c with winLeft := 0 }, (streamAt (withC moves fun c => { c with winLeft := 0 }) 0 0 true).getD anyCtx,
    .mov { blank with dst := 4, srcB := 1 }, by decide, by decide +kernel, some_getD (by decide +kernel), by decide +kernel⟩
theorem wit_select_issuing : choice base 0 false (readyGroups base 0 false) = some 0 ∧ wakes base 0 0 = false ∧ stalls base 0 0 = false ∧
    (cx base).g.state = .ready ∧ choice lbase 0 true (readyGroups lbase 0 true) = some 0 := by decide
/-- ADDI s5, s6 at the program counter, s6 still to be loaded: the group selected before is Blocked. -/
theorem wit_select_stalls : ∃ s, stalls s 0 0 = true :=
  ⟨withC (withG base fun g => { g with state := .issuing }) fun c =>
    { c with ops := [{ pendingLoad with lane := false, dest := .sregs 6 1 }, { pendingLoad with id := 1, lane := false, dest := .sregs 7 1 }] }, by decide +kernel⟩
theorem wit_wakes : ∃ s g, groupOf s 0 0 = some g ∧ g.state = .blocked ∧ wakes s 0 0 = true :=
  ⟨blocked .lend, _, rfl, by decide⟩
theorem wit_window : (getCore { base with now := 100000 } 0).winStart + 16 * coreDiv { base with now := 100000 } 0 ≤ 100000 := by decide
theorem wit_select : coreStopped base 0 = false ∧ (readyGroups base 0 false).map (·.1) = [0] ∧ readyGroups base 0 true = [] := by
  decide
theorem wit_select_boosted : ∃ s, (∃ r ∈ readyGroups s 0 false, r.2.boosted.isSome) ∧ ∃ r ∈ readyGroups s 0 false, r.2.boosted = none :=
  ⟨modGroup two 0 1 fun g => { g with boosted := some 4 }, by decide⟩
theorem wit_select_held : ∃ s, s.now < (getCore s 0).laneBusy := ⟨withC lbase fun c => { c with laneBusy := 9 }, by decide⟩
theorem wit_value_returns : ∃ s o g, opOf (getCore s 0) o.id = some o ∧ opDone (getCore s 0) o.id = true ∧ o.kind = .ld ∧
    groupOf s 0 o.group = some g ∧ g.episode = none ∧ coreStopped s 0 = false :=
  ⟨loadingV1, pendingLoad, _, rfl, rfl, rfl, rfl, by decide⟩
theorem wit_value_wakes : ∃ s g, groupOf s 0 0 = some g ∧ opOf (getCore s 0) 0 = some pendingLoad ∧ g.state = .blocked ∧ g.wait = .operand :=
  ⟨withG loadingV1 fun g => { g with state := .blocked, wait := .operand }, _, rfl, by decide⟩
/-- A load of the lane stream into the first word of the path mask. -/
theorem wit_value_to_mask : ∃ s o g, groupOf s 0 0 = some g ∧ opOf (getCore s 0) 0 = some o ∧ o.dest = .view 61 1 ∧ writesMask o = true ∧
    g.lane.suspended = false := by
  refine ⟨withC lbase fun c => { c with ops := [{ pendingLoad with dest := .view 61 1 }] }, { pendingLoad with dest := .view 61 1 }, _, rfl, rfl, ?_⟩
  decide
theorem wit_value_dests : ∀ d ∈ [Dest.none, .sregs 0 1, .sregs 8 2, .view 8 1, .vregs 4 4], ∃ s o, opOf (getCore s 0) 0 = some o ∧ o.dest = d := by
  intro d _
  exact ⟨withC loadingV1 fun c => { c with ops := [{ pendingLoad with dest := d }] }, { pendingLoad with dest := d }, rfl, rfl⟩
/-- Thread 0's path has lain on the stack since time 0. -/
def switched (l : LaneState) : LaneState :=
  { l with offSince := some 0, view := [(61, 2), (62, 0), (63, 0)], stack := [{ join := false, lpc := 4, mask := 1, rpc := none }] }
def late : State := { (withG lbase fun g => { g with lane := switched g.lane }) with now := 100000 }
theorem wit_path_switch : ∃ s tm g e, teamOf s 0 = some tm ∧ activeTeam tm = true ∧ groupOf s 0 0 = some g ∧ coreStopped s 0 = false ∧ g.lane.running = true ∧ g.lane.suspended = false ∧
    g.episode = none ∧ g.lane.offSince = some 0 ∧ 0 + 2048 * coreDiv s 0 ≤ s.now ∧ g.lane.hold = 0 ∧ mfirst (pathThreads g) = some 0 ∧
    mtest (laneMask g) 0 = false ∧ findPath g.lane.stack 0 = some 0 ∧ g.lane.stack[0]? = some e ∧ e.mask &&& g.live ≠ 0 ∧
    e.rpc ≠ some e.lpc := by
  refine ⟨late, (cx late).team, (cx late).g, { join := false, lpc := 4, mask := 1, rpc := none }, ?_⟩
  decide
/-- Threads 0 and 1 wait at a join below a path of thread 2; the current path is thread 3's. -/
def joined : State :=
  { (withG lbase fun g => { g with live := 15, lane := { g.lane with
      offSince := some 0
      view := [(61, 8), (62, 0), (63, 0)]
      stack := [{ join := false, lpc := 4, mask := 4, rpc := some 6 }, { join := true, lpc := 6, mask := 15, rpc := some 9 }] } }) with
    now := 100000 }
theorem wit_path_join : ∃ g, groupOf joined 0 0 = some g ∧ mfirst (pathThreads g) = some 0 ∧ mtest (laneMask g) 0 = false ∧
    g.lane.maskOwed = false ∧ g.lane.stack[1]? = some { join := true, lpc := 6, mask := 15, rpc := some 9 } ∧
    (∀ q ∈ g.lane.stack, q.join = true ∨ mtest q.mask 0 = false) ∧
    (∀ j q, j < 1 → g.lane.stack[j]? = some q → mtest q.mask 0 = false) ∧
    (maskOf fun v => mtest 15 v && !mtest (laneMask g) v && !(g.lane.stack.take 1).any fun q => mtest q.mask v) = 3 := by
  refine ⟨(cx joined).g, by decide, by decide, by decide, by decide, by decide, by decide, ?_, by decide⟩
  intro j q hj h
  obtain rfl : 0 = j := by omega
  obtain rfl : { join := false, lpc := 4, mask := 4, rpc := some 6 } = q := by
    have e : (cx joined).g.lane.stack[0]? = some { join := false, lpc := 4, mask := 4, rpc := some 6 } := by decide
    exact Option.some.inj (e.symm.trans h)
  decide
/-- After the switch the path of threads 0 and 1 runs from the join on, and thread 2's meets thread 3's where the join does. -/
theorem test_path_join : ((cx (after joined (.pathSwitch 0 0))).g.lane.lpc, laneMask (cx (after joined (.pathSwitch 0 0))).g,
    (cx (after joined (.pathSwitch 0 0))).g.lane.stack.map (·.rpc)) = (6, 3, [none, some 9]) := by decide
/-- A lane stream whose next word, MOV v4 from v1, waits on a load judged long. -/
def schussing (skip : Bool) : State :=
  { withC (withG { State.reset.withFetchWord 96 0x1020000000800000000000 with cur := { core := 0, group := 0, lane := true } } fun g =>
      { g with schussOn := true, budget := 100, skip := skip }) fun c => { c with ops := [{ pendingLoad with long := true }] } with
    featEn := 8 }
theorem wit_schuss_entry : ∀ skip : Bool, ∃ s g x o, groupOf s 0 0 = some g ∧ streamAt s 0 0 true = some x ∧
    longWait s x = some o ∧ schussMay s x o = true ∧ g.skip = skip := by
  intro skip
  refine ⟨schussing skip, (cx (schussing skip)).g, (streamAt (schussing skip) 0 0 true).getD anyCtx, { pendingLoad with long := true }, ?_,
    some_getD ?_, ?_⟩ <;> cases skip <;> decide +kernel
def blankSave : Checkpoint := { sregs := [], preds := [], vregs := [], spc := 4, lane := {} }
/-- A checkpoint whose lane stream ran on thread 0's path, and one whose path a value has emptied. -/
def savedPath (m : Word) : Group := { probeGroup false with lane := { running := true, view := [(61, m)] } }
theorem wit_schuss_back : laneMask (savedPath 1) ≠ 0 ∧ laneMask (savedPath 0) = 0 ∧ (savedPath 0).lane.stack = [] ∧
    (savedPath 1).lane.rpc ≠ some (savedPath 1).lane.lpc := by decide
/-- An episode of either stream whose budget has run out. -/
def spent (lane : Bool) : State :=
  { (withG base fun g => { g with budget := 1, episode := some { lane := lane, op := 0, start := 0, saved := blankSave } }) with
    now := 100000 }
theorem wit_schuss_expiry : ∀ lane : Bool, ∃ s g e tm, groupOf s 0 0 = some g ∧ g.episode = some e ∧ e.lane = lane ∧
    teamOf s 0 = some tm ∧ tm.xacq = [] ∧ coreStopped s 0 = false ∧ e.start + g.budget.toNat * coreDiv s 0 ≤ s.now := by
  intro lane
  refine ⟨spent lane, (cx (spent lane)).g, (cx (spent lane)).g.episode.getD { lane := true, op := 0, start := 0, saved := blankSave },
    (cx (spent lane)).team, ?_⟩
  cases lane <;> decide
/-- An episode of the scalar stream in which s6 is invalid. -/
def runahead : State :=
  withG base fun g => { g with episode := some { lane := false, op := 0, start := 0, saved := blankSave, invS := [6] } }
theorem wit_episode : ∃ s x e, ctx? s = some x ∧ x.g.episode = some e ∧ e.lane = x.lane ∧ x.team.xacq = [] ∧ fenceOk 2 1 3 = true ∧
    waitsS s x [6, 8] = false ∧ invS x 6 = true ∧ waitsS s x [9, 6, 7] = false ∧ invS x 7 = false ∧ waitsS s x [61, 6] = false :=
  ⟨runahead, cx runahead, { lane := false, op := 0, start := 0, saved := blankSave, invS := [6] }, cx_some rfl, rfl, by decide⟩
theorem wit_episode_load : ∃ s x, ctx? s = some x ∧ inEpisode x = true ∧ waitsS s x ([4] ++ regsFrom 8 2) = false ∧ ldOk 8 4 3 0 1 5 = true ∧
    LocalOk x (localAt x.g 4 0) 8 ∧ invS x 4 = false ∧ ldOk 62 4 2 0 1 0 = true ∧ boardHit x.team (localAt x.g 4 1) 8 = false ∧
    localAt x.g 4 1 % 8 ≠ 0 := ⟨runahead, cx runahead, cx_some rfl, by unfold LocalOk; decide⟩
/-- A load through an invalid address marks its destination, and a later value clears the mark. -/
theorem test_episode_marks : invS (cx (after runahead (.ldScalar 8 6 2 0 1 0 0 0))) 8 = true ∧
    invS (cx (after runahead (.li 6 5))) 6 = false ∧ (cx (after runahead (.stScalar 8 4 2 1 0 0 0))).g.episode = none := by decide
/-- One of the lane stream, v1 invalid in thread 0 and v6 addressing scratch. -/
def runaheadLane (full : Bool) : State :=
  let e : Episode :=
    { lane := true
      op := 0
      start := 0
      saved := blankSave
      invS := [10]
      invV := [(1, 1)]
      renamed := if full then List.range 128 else []
      blocks := if full then 4 else 1 }
  withG lmem fun g => { g with episode := some e }
theorem wit_episode_lane : ∃ s x e, ctx? s = some x ∧ x.g.episode = some e ∧ e.lane = x.lane ∧
    aluLegal .addI32 { blank with dst := 4, srcA := 1, srcB := 2 } = true ∧
    LaneInEpisode s x (namedRegs .addI32 { blank with dst := 4, srcA := 1, srcB := 2 }) (vecUses .addI32 { blank with dst := 4, srcA := 1, srcB := 2 })
      (scalUses .addI32 { blank with dst := 4, srcA := 1, srcB := 2 }) ∧ (renameRows s x [4]).isSome = true :=
  ⟨runaheadLane false, cx (runaheadLane false), { lane := true, op := 0, start := 0, saved := blankSave, invS := [10], invV := [(1, 1)] },
    cx_some rfl, rfl, by unfold LaneInEpisode; decide⟩
theorem wit_episode_full : renameRows (runaheadLane true) (cx (runaheadLane true)) [200] = none := by decide +kernel
/-- A uniform word into s61 of the view that reads the invalid s10. -/
theorem wit_episode_mask : ∃ s x, ctx? s = some x ∧ inEpisode x = true ∧
    aluLegal .addI32 { blank with dst := 381, srcA := 330, srcB := 330, u := 1 } = true ∧
    LaneInEpisode s x (namedRegs .addI32 { blank with dst := 381, srcA := 330, srcB := 330, u := 1 }) [] [61, 10, 10] ∧
    mfirst (activeMask x.g) = some 0 ∧ mtest (guardMask x.g blank) 0 = true ∧ operandInv x .int 330 0 0 = true :=
  ⟨runaheadLane false, cx (runaheadLane false), cx_some rfl, by unfold LaneInEpisode; decide⟩
theorem wit_episode_lane_loads : ∃ s x, ctx? s = some x ∧ inEpisode x = true ∧ memLegal .ld (lword 0) = true ∧
    LaneInEpisode s x (memRegs .ld (lword 0)) ((memRegs .ld (lword 0)).map (·.2)) (memScal .ld (lword 0)) ∧
    (∀ u ∈ List.range 96, boardHit x.team (laneLocalAt x.g (lword 0) u) 4 = false) ∧ (renameRows s x (upFrom 4 1)).isSome = true ∧
    (∀ q ∈ [(MemOp.ld, { blank with dst := 4, srcA := 6, mod := 0x002 }), (.ll, { blank with dst := 4, srcA := 6, mod := 0x002 }),
        (.ldVer, { blank with dst := 4, srcA := 328, srcB := 6, mod := 0x402 })],
      memLegal q.1 q.2 = true ∧ mLocal q.2.mod.toNat = false ∧
      LaneInEpisode s x (memRegs q.1 q.2) ((memRegs q.1 q.2).map (·.2)) (memScal q.1 q.2)) :=
  ⟨runaheadLane false, cx (runaheadLane false), cx_some rfl, by unfold LaneInEpisode; decide +kernel⟩
/-- MOV v4 from the invalid v1 marks v4 in thread 0 alone. -/
theorem test_episode_lane : invV (cx (after (runaheadLane false) (.mov { blank with dst := 4, srcB := 1 }))) 4 = 1 := by decide +kernel
theorem wit_async_fault : ∃ s tm q g, teamOf s 0 = some tm ∧ activeTeam tm = true ∧ dieStopped s 0 = false ∧
    (getPart s tm.part).stopped = false ∧ gridOf s tm.part tm.grid = some q ∧
    (tm.asyncErr.find? fun e => e.group == 0) = some { group := 0, pc := 8, code := 0x12 } ∧
    groupOf s 0 0 = some g ∧ g.episode = none ∧ handles g = false :=
  ⟨withT base fun t => { t with asyncErr := [{ group := 0, pc := 8, code := 0x12 }] }, _, _, _, rfl, by decide, by decide, by decide, rfl, rfl, rfl, by decide⟩
theorem wit_async_exited : ∃ s tm g, teamOf s 0 = some tm ∧ groupOf s 0 0 = some g ∧ handles g = true ∧
    (tm.asyncErr.find? fun e => e.group == 0) = some { group := 0, pc := 8, code := 0x12, after := 4 } ∧ 4 < g.born :=
  ⟨withT (withG (handled base) fun g => { g with born := 5 }) fun t => { t with asyncErr := [{ group := 0, pc := 8, code := 0x12, after := 4 }] }, _,
    _, rfl, rfl, by decide, rfl, by decide⟩
theorem wit_async_handled : ∃ s g, groupOf s 0 0 = some g ∧ g.episode = none ∧ handles g = true := ⟨handled base, _, rfl, by decide⟩

/-! ### Teams and grids -/

theorem wit_spawn_launch : ∃ s tm q g, teamOf s 0 = some tm ∧ mget? tm.bins 2 = some q ∧ gridOf s tm.part tm.grid = some g ∧
    coreStopped s 0 = false ∧ activeTeam tm = true ∧ binReady tm q = true ∧ binFirst tm 2 q = true ∧
    ((List.range (if tm.base = 64 then 8 else if tm.base = 128 then 6 else 4)).find? fun k => (mget? tm.groups k).isNone) = some 1 :=
  ⟨binned, _, _, _, rfl, rfl, rfl, by decide⟩
/-- Group 0 waits with another key while all four bins are taken. -/
def spawnWaits : State :=
  withT (withG base fun g => { g with state := .blocked, wait := .spawn 12 5 }) fun t =>
    { t with bins := [0, 1, 2, 3].map fun n => (n, { key := 8, args := [7], since := 0, due := 0, expired := n == 2 }) }
theorem wit_spawn_waits : ∃ s tm v, teamOf s 0 = some tm ∧ groupIn tm 0 = some v ∧ v.state = .blocked ∧ v.wait = .spawn 12 5 ∧
    (mkeys tm.groups) = [0] ∧ binFor { tm with bins := mdel tm.bins 2 } 12 = some 2 :=
  ⟨spawnWaits, _, _, rfl, rfl, rfl, rfl, by decide⟩
theorem test_spawn_launch : ((cx { after binned (.spawnBinLaunch 0 2) with cur := { core := 0, group := 1, lane := false } }).g.live,
    rdVec (cx { after binned (.spawnBinLaunch 0 2) with cur := { core := 0, group := 1, lane := false } }).g 0 1) = (3, 9) := by decide
/-- A grid whose one team waits. -/
def placing (pair : Bool) : State :=
  { active (withQ base fun q => { q with state := .placing, nextTeam := 0, pair := pair, teams := if pair then 2 else 1 }) with cores := [] }
theorem wit_placement : ∀ pair : Bool, ∃ s g, gridOf s 0 0 = some g ∧ (getPart s 0).active = true ∧ (getPart s 0).stopped = false ∧
    (getPart s 0).noPlace = false ∧ g.revoked = false ∧ g.state = .placing ∧ placeFits s 0 g 0 = true ∧ g.pair = pair ∧
    ∀ k ∈ [0, 1], ∀ q ∈ (getPart s 0).grids, q.state = .placing → goesFirst q g = true → couldTake s 0 q (0 + k) = false ∧ othersFree s 0 g 0 = false := by
  intro pair
  refine ⟨placing pair, (gridOf (placing pair) 0 0).getD (probeGrid 3), ?_⟩
  cases pair <;> decide +kernel
theorem wit_team_retires : ∃ s tm g, teamOf s 0 = some tm ∧ coreStopped s 0 = false ∧ tm.state = .draining ∧
    (∀ h ∈ mvals tm.groups, h.state = .exiting) ∧ (getCore s 0).ops = [] ∧ (getCore s 0).accs = [] ∧ (getCore s 0).misses = [] ∧
    teamDone s 0 tm = true ∧ (getDie s (dieOf 0)).reset = none ∧ gridOf s tm.part tm.grid = some g :=
  ⟨withT (withG base fun g => { g with state := .exiting }) fun t => { t with state := .draining }, _, _, rfl, by decide, by decide,
    by decide, by decide, by decide, by decide, by decide, by decide, rfl⟩
theorem wit_grid_retires : ∃ s g, gridOf s 0 0 = some g ∧ (getPart s 0).stopped = false ∧ gridDone (getPart s 0) g = true ∧
    s.incs = [] ∧
    gridAddr s 0 g g.statusAt = some 0x40 ∧ gridAddr s 0 g g.parentSem = some 0x80 ∧ lineQuiet s 0 (lineBase 0x40) = true ∧ Sys2Proof.Inv s :=
  ⟨withQ base fun q => { q with retired := 1, statusAt := some 0x40, parentSem := some 0x80 }, _, rfl, by decide, by decide, rfl, by decide,
    by decide, by decide, by unfold Sys2Proof.Inv; decide⟩
theorem wit_grid_retires_bare : ∃ s g, gridOf s 0 0 = some g ∧ gridDone (getPart s 0) g = true ∧ gridAddr s 0 g g.statusAt = none ∧
    gridAddr s 0 g g.parentSem = none :=
  ⟨withQ base fun q => { q with retired := 1 }, _, rfl, by decide⟩
/-- A leasing grid at address 0 and the page table whose every level is the page at 0x2000. -/
def leasing : State :=
  { modPart (withQ base fun q => { q with state := .leasing, pinned := [] }) 0 fun v => { v with pins := [] } with pasids := [(0, 0x2000)], mem := [(0x2000, 0x03#8), (0x2001, 0x20#8)] }
theorem wit_leasing_pinned : ∃ s g, gridOf s 0 0 = some g ∧ g.state = .leasing ∧ (getPart s 0).stopped = false ∧ g.regrant = [] ∧
    g.revoked = false ∧ g.leaseReqs = [] ∧ neededPages s 0 g.pasid (leaseSpans g) = [(0, false)] ∧
    pinHeld (getPart s 0) g 0 false = true :=
  ⟨withQ base fun q => { q with state := .leasing }, _, rfl, by decide +kernel⟩
theorem wit_leasing_pins : ∃ s g q, gridOf s 0 0 = some g ∧ g.state = .leasing ∧ (getPart s 0).stopped = false ∧ g.regrant = [] ∧
    g.revoked = false ∧ neededPages s 0 g.pasid (leaseSpans g) = [(0, false)] ∧ pinOf (getPart s 0) g.pasid 0 = none ∧
    pageReady s 0 g.pasid 0 false = true ∧ walkPage s 0 g.pasid (0 * 4096) = some q ∧ leafQuiet s 0 g.pasid 0 = true ∧
    (getPart s 0).pins.length < pinCapacity :=
  ⟨leasing, (gridOf leasing 0 0).getD (probeGrid 3), (walkPage leasing 0 0 0).getD { page := 0, size := 0, frame := 0, w := false, leaf := 0 },
    by decide +kernel⟩
theorem wit_leasing_waits : ∃ s g, gridOf s 0 0 = some g ∧ g.state = .leasing ∧ g.leaseReqs.contains 0 = true ∧ g.regrant = [] ∧
    g.revoked = false ∧ neededPages s 0 g.pasid (leaseSpans g) = [(0, false)] ∧ pinHeld (getPart s 0) g 0 false = false ∧
    pageReady s 0 g.pasid 0 false = false ∧ recordRoom s 0 none = 32 :=
  ⟨modPart (withQ base fun q => { q with state := .leasing, leaseReqs := [0], pinned := [] }) 0 fun v => { v with pins := [] }, _, rfl,
    by decide +kernel⟩
theorem wit_leasing_posts : ∃ s g, gridOf s 0 0 = some g ∧ g.state = .leasing ∧ (getPart s 0).stopped = false ∧ g.regrant = [] ∧
    g.revoked = false ∧ g.leaseReqs = [] ∧ neededPages s 0 g.pasid (leaseSpans g) = [(0, false)] ∧ pinHeld (getPart s 0) g 0 false = false ∧
    pageReady s 0 g.pasid 0 false = false ∧ 1 ≤ recordRoom s 0 none ∧ bit (getPart s 0).fqcfg.toNat 0 = true :=
  ⟨modPart (withQ base fun q => { q with state := .leasing, pinned := [] }) 0 fun v => { v with pins := [], fqcfg := 1 }, _, rfl,
    by decide +kernel⟩
/-- Nothing is pinned and no PASID has tables: every page counts. -/
def nothingPinned : State := modPart base 0 fun v => { v with pins := [] }
theorem mput_end (m : SMap Bool) (k : Nat) (v : Bool) (h : ∀ q ∈ m, q.1 < k) : mput m k v = m ++ [(k, v)] := by
  induction m with
  | nil => rfl
  | cons q r ih =>
    have hq := h q (List.mem_cons_self ..)
    simp only [mput, if_neg (show ¬ k < q.1 by omega), if_neg (show ¬ k = q.1 by omega), ih fun p hp => h p (List.mem_cons_of_mem _ hp)]
    rfl
theorem hostPages_length (f : SMap Bool → Nat → Bool) (n page hi : Nat) (m : SMap Bool) (h : page + n ≤ hi) (hm : ∀ q ∈ m, q.1 < page) :
    ((hostPages nothingPinned 0 0 n page hi).foldl (fun m k => mput m k (f m k)) m).length = m.length + n := by
  have bare : ∀ j, pinOf (getPart nothingPinned 0) 0 j = none ∧ walkPage nothingPinned 0 0 (j * 4096) = none := fun j => ⟨rfl, rfl⟩
  induction n generalizing page m with
  | zero => rfl
  | succ n ih =>
    simp only [hostPages, if_neg (show ¬ hi ≤ page by omega), (bare page).1, (bare page).2, List.foldl_cons, mput_end m page _ hm]
    rw [ih (page + 1) _ (by omega) fun q hq => ?_]
    · simp only [List.length_append, List.length_singleton]; omega
    · rcases List.mem_append.mp hq with hq | hq
      · exact Nat.lt_succ_of_lt (hm q hq)
      · rw [List.mem_singleton.mp hq]; exact Nat.lt_succ_self _
theorem wit_leasing_over : pinCapacity < (neededPages nothingPinned 0 0 [(0, pinCapacity + 1, true)]).length := by
  unfold neededPages
  rw [List.foldl_cons, List.foldl_nil, hostPages_length _ _ _ _ [] (Nat.le_refl _) (fun _ h => absurd h List.not_mem_nil)]
  exact Nat.lt_of_lt_of_le (Nat.lt_succ_self _) (Nat.le_add_left ..)
theorem wit_leasing_over_lease : leaseSpans { probeGrid 3 with image := 0, leases := [{ base := 0, len := 2 ^ 32 + 4096, r := true, w := true }] } =
    [(0, 1, false), (0, pinCapacity + 1, true)] ∧ ∀ g k w, pinHeld (getPart nothingPinned 0) g k w = false := by
  refine ⟨by decide, fun g k w => ?_⟩
  simp [pinHeld, pinOf, show (getPart nothingPinned 0).pins = [] from rfl]
theorem wit_mgmt_launch_status : ∃ s b, (getPart s 0).active = true ∧ gridLimit (getPart s 0) = false ∧ unitRead s 0 0 0x200 128 = some b ∧
    launchQuiet s 0 0 0x200 (lpbOf b) = true ∧ (lpbOf b).count = 0 ∧ (launchRead s 0 0 none (lpbOf b) []).1 ≠ 0 :=
  ⟨active base, (unitRead (active base) 0 0 0x200 128).getD [], by decide +kernel⟩
theorem wit_mgmt_launch : ∃ s lpb b list, (getPart s 0).active = true ∧ (getPart s 0).stopped = false ∧ gridLimit (getPart s 0) = false ∧
    lpb % 128 = 0 ∧ unitRead s 0 0 lpb 128 = some b ∧ launchQuiet s 0 0 lpb (lpbOf b) = true ∧ (lpbOf b).count = 0 ∧
    unitRead s 0 0 (lpbOf b).list (16 * (lpbOf b).count) = some list ∧ (launchRead s 0 0 none (lpbOf b) list).1 = 0 :=
  ⟨boot, 0x200, (unitRead boot 0 0 0x200 128).getD [], [], by decide +kernel⟩
theorem wit_preempt : ∃ s tm, teamOf s 0 = some tm ∧ tm.part = 0 ∧ tm.grid = 0 ∧ activeTeam tm = true ∧ partnered s 0 = false ∧
    namedCores s 0 0 (some tm.index) = [0] ∧ ∀ h ∈ mvals tm.groups, h.episode = none := ⟨base, _, rfl, by decide⟩
theorem wit_save : ∃ s tm, coreOfTeam s 0 0 0 = some 0 ∧ teamOf s 0 = some tm ∧ tm.part = 0 ∧ partnered s 0 = false ∧
    saveReady s 0 tm = true ∧ contextBytes tm ≤ areaFree (getPart s 0) ∧ (getPart s 0).saves.length ≤ recordRoom s 0 none :=
  ⟨modPart (withT base fun t => { t with state := .saving }) 0 fun v => { v with ctxarea := 1#64 <<< 22 }, _, by decide, rfl, by decide⟩
def parked : State :=
  { active (modPart base 0 fun v => { v with saved := [{ team := { probeTeam false with state := .saved }, bytes := 0 }] }) with cores := [] }
theorem wit_restore : ∃ s q g, recordRoom s 0 none ≠ 0 ∧ savedOf (getPart s 0) 0 0 = some q ∧ gridOf s 0 0 = some g ∧ q.team.partner = none ∧ g.revoked = false ∧
    (getPart s 0).stopped = false ∧ restoreFits s 0 g 0 1 = true ∧ restoreFits s 0 g 9999 1 = false ∧ q.team.srcRec = [] :=
  ⟨parked, _, _, by decide, rfl, rfl, by decide +kernel⟩
theorem wit_task_end : ∃ g, gridOf base 0 0 = some g := ⟨_, rfl⟩

/-! ### Units that work on their own -/

def blankCopy : Copy :=
  { id := 0
    kind := .d1
    ft := false
    desc := 0x100
    src := 0x400
    dst := 0x800
    len := 64
    n := 1
    sstride := 0
    dstride := 0
    aux := 0
    nonce := 0
    flags := 3
    sem := none
    group := 0
    pc := 0 }
def copying (c : Copy) : State := withT base fun t => { t with copies := [c], scratch := [(0x400, 7#8)] }
theorem wit_copy_done : ∃ s tm q g, teamOf s 0 = some tm ∧ (tm.copies.find? fun k => k.id == 0) = some q ∧ gridOf s tm.part tm.grid = some g ∧
    copyMoves s 0 tm q = true ∧ copyBehind tm q = false ∧ copyBad tm q = false ∧ q.faults = [] ∧ copyUnits (copyRun 1 s 0 tm g q).2 ≤ (copyRun 1 s 0 tm g q).2.units :=
  ⟨copying blankCopy, _, blankCopy, _, rfl, rfl, rfl, by decide +kernel⟩
theorem wit_copy_bad : ∃ s tm, teamOf s 0 = some tm ∧ copyBad tm blankCopy = true ∧ copyMoves s 0 tm blankCopy = true :=
  ⟨withT (copying blankCopy) fun t => { t with bad := [.scratch 0x400] }, _, rfl, by decide⟩
/-- A copy of each kind with a unit to go, its source or its destination on either side. -/
def unitOf (kind : CopyKind) (n units flags : Nat) : Copy :=
  { blankCopy with kind := kind, n := n, units := units, flags := BitVec.ofNat 32 flags, index := [3, 1], buffer := List.replicate 64 7 }
theorem wit_units_local : ∀ q ∈ [unitOf .d1 1 0 3, unitOf .d2 2 1 3, unitOf .gather 2 1 3, unitOf .replay 1 0 3,
      { unitOf .d1 1 1 3 with todo := some [0, 4], len := 2112 }],
    q.units < copyUnits q ∧ copyBad (cx (copying q)).team q = false ∧ teamOf (copying q) 0 = some (cx (copying q)).team ∧
      (getPart (copying q) 0).migs = [] := by decide
/-- To the global page at 0x10000, of which every byte has its own place in memory. -/
theorem laidOut_base : LaidOut (getPart gbase 0) := by
  have n : nearSize (getPart gbase 0) = 0 := by decide
  have f : farSize (getPart gbase 0) = 0 := by decide
  have r : ∀ a b, inRange a b 0 = false := fun a b => by simp [inRange]
  have m : ∀ a, memHome (getPart gbase 0) a = none := fun a => by simp [memHome, inNear, inFar, n, f, r]
  have h : ∀ a, memKey (getPart gbase 0) a = a := fun a => by unfold memKey; rw [m]
  intro a b _ _ e
  rwa [h, h] at e
theorem wit_unit_global : reachOf gbase 0 0 0x10000 128 = .ready ∧ ∀ i ∈ List.range 64, physOf gbase 0 0 (0x10040 + i) = 0x1040 + i := by
  decide +kernel
theorem wit_unit_quiet : RangeQuiet gbase 0 0 0x10040 128 := by
  intro q h
  have : ∀ q ∈ lineSegs 0x10040 128, lineQuiet gbase 0 (lineBase (physOf gbase 0 0 q.1)) = true ∧ pageMoving (getPart gbase 0) 0 (q.1 / 4096) = false := by
    decide
  exact this q h
theorem wit_units_version : ∀ q ∈ [unitOf .aon 1 0 1, unitOf .aon 1 1 1, unitOf .ver 1 0 2, { unitOf .aon 1 2 1 with len := 128, odd := some 1 },
      { unitOf .aon 1 3 1 with len := 128, odd := some 1 }],
    q.units < copyUnits q ∧ accsBefore (getCore gbase 0) q.id = false := by decide
theorem wit_unit_even : ofBytes (bytesAt gbase 0 0 (cx gbase).team false 0x10000 8) % 2 = 0 := by decide +kernel
/-- For every key and block there is a tag under which it opens. -/
theorem wit_unit_sealed (key : BitVec 256) (nonce : BitVec 64) (b : Nat) (c : List Byte) :
    ∃ tag, tag.length = 16 ∧ (openSealed key nonce b c tag).isSome := by
  have h : ∀ v, (tab 16 fun i => BitVec.ofNat 8 (v / 256 ^ (16 - 1 - i))).map (·.toNat) = beBytes 16 v := fun v => by
    simp [tab, beBytes]
  let k := (toBytes 32 key.toNat).map (·.toNat)
  let ctr := fun (i : Nat) => aesBlock (aesKeys k) (beBytes 8 nonce.toNat ++ beBytes 4 b ++ beBytes 4 i)
  let g := ghash (beNat (aesBlock (aesKeys k) (tab 16 fun _ => 0)))
    ((blocksOf (c.map (·.toNat))).map beNat ++ [8 * (c.map (·.toNat)).length])
  refine ⟨tab 16 fun i => BitVec.ofNat 8 (Nat.xor g (beNat (ctr 1)) / 256 ^ (16 - 1 - i)), by simp [tab], ?_⟩
  unfold openSealed gcmOpen
  dsimp only
  rw [if_pos (h _).symm]
  rfl
theorem wit_copy_fault : ∃ s tm g, teamOf s 0 = some tm ∧ gridOf s tm.part tm.grid = some g ∧
    (match copyUnit s 0 tm g { blankCopy with flags := 2, src := 0x90000 } with | .fault .. => true | _ => false) = true ∧
    ({ blankCopy with flags := 2, src := 0x90000 } : Copy).units < copyUnits { blankCopy with flags := 2, src := 0x90000 } :=
  ⟨base, _, _, rfl, rfl, by decide +kernel⟩
theorem wit_signals : CanSignal gbase 0 0 (some 0x10F00) ∧ gridOf gbase 0 (cx gbase).grid.seq = some (cx gbase).grid ∧
    blankCopy.ft = false := by
  refine ⟨fun a g h hg => ?_, rfl, rfl⟩
  obtain rfl : 0x10F00 = a := by simpa using h
  obtain rfl : (gridOf gbase 0 0).getD anyCtx.grid = g := by rw [hg]; rfl
  exact ⟨0x1F00, by decide⟩
theorem wit_signals_nowhere : ∀ h, translate base 0 0 0x90000 ≠ .ok h := by
  have e : translate base 0 0 0x90000 = .fault := by decide
  simp [e]
theorem test_copy_local : readLE (cx (after (copying blankCopy) (.copyComplete 0 0 1))).team.scratch 0x800 4 = 7 := by decide +kernel
def storing : MatCmd :=
  { kind := .acccpySt
    pair := false
    tile := 0
    z := false
    int := false
    loc := true
    sem := none
    group := 0
    pc := 0
    addr := 0x400
    shape := 0
    block := []
    emul := false
    after := 0 }
def matrix (c : MatCmd) : State := withT base fun t => { t with queue := [c] }
theorem wit_matrix_start : ∃ s tm, teamOf s 0 = some tm ∧ tm.queue = storing :: [] ∧ canStart s 0 = true ∧ startFits s 0 tm.part storing = true :=
  ⟨matrix storing, _, rfl, rfl, by decide⟩
theorem wit_matrix_no_signal : CanSignal base 0 0 storing.sem := fun _ _ h => by simp [storing] at h
theorem wit_matrix_withheld : ∃ s, startFits s 0 0 { storing with kind := .mma } = false :=
  ⟨{ base with regions := [(0, { pwrcfg := 1, thermcfg := 0 })] }, by decide⟩
theorem wit_matrix_runs : ∃ s tm g, teamOf s 0 = some tm ∧ tm.queue = { storing with running := true } :: [] ∧ gridOf s tm.part tm.grid = some g ∧
    matGoes s 0 = true ∧ matBad s 0 tm { storing with running := true } = false ∧
    matUnits { storing with running := true } = ({ storing with running := true } : MatCmd).chunk + 1 :=
  ⟨matrix { storing with running := true }, _, _, rfl, rfl, rfl, by decide⟩
/-- A running command of each kind with its first piece to go. -/
def pieceOf (kind : MatKind) : MatCmd := { storing with kind := kind, running := true, block := List.replicate 64 0 }
theorem wit_matrix_pieces : ∀ k ∈ [MatKind.mma, .mlb, .mdrain, .acccpySt, .acccpyLd], ∃ tm,
    teamOf (matrix (pieceOf k)) 0 = some tm ∧ tm.queue = [pieceOf k] ∧ matGoes (matrix (pieceOf k)) 0 = true ∧
      matBad (matrix (pieceOf k)) 0 tm (pieceOf k) = false ∧ (getPart (matrix (pieceOf k)) 0).migs = [] ∧
      ((drainOf 0 (pieceOf k).block).outLocal = false → reachOf (matrix (pieceOf k)) 0 0 0 256 = .ready) := by
  intro k _
  exact ⟨_, rfl, rfl, by cases k <;> decide +kernel⟩
theorem wit_matrix_last : matUnits (pieceOf .acccpySt) = 1 ∧ 1 < matUnits (pieceOf .mlb) := by decide
def reducing : Coll :=
  { id := 5
    op := .radd
    type := 3
    cores := [0]
    core := 0
    team := 0
    grid := 0
    buf := 0x100
    out := 0x200
    len := 128
    root := 0
    desc := 0
    sem := none
    group := 0
    pc := 0
    after := 0 }
theorem wit_collective_meets : ∃ s tm, teamOf s 0 = some tm ∧ (getPart s 0).stopped = false ∧ tm.colls = [reducing] ∧
    participants s 0 5 [0] = [(0, tm, reducing)] ∧ sameColl reducing reducing = true ∧ sameColl reducing { reducing with op := .bcast } = false := by
  refine ⟨withT base fun t => { t with colls := [reducing] }, _, rfl, by decide, rfl, ?_, by decide, by decide⟩
  rfl
theorem wit_collective_one : ∃ s, let mine := (mvals s.cores).flatMap fun k => match k.team with
      | some t => if t.part = 0 then t.colls.filter fun c => c.id == 5 else []
      | none => []
    (((mine.map (·.cores)).foldl addNew []).find? fun l => l.all fun c => (contribution s 0 5 l c).isSome) = some [0] :=
  ⟨withT base fun t => { t with colls := [reducing] }, by decide⟩
theorem wit_collective_bad : collBad (0, { (cx base).team with bad := [.scratch 0x100] }, reducing) = true ∧
    collBad (0, (cx base).team, reducing) = false := by decide
theorem wit_collective_result : ∃ s tm, teamOf s 0 = some tm ∧ ∀ op ∈ [CollOp.agath, .radd, .bcast],
    (collResult [(0, tm, { reducing with op := op })] { reducing with op := op }).2.length = 128 :=
  ⟨base, _, rfl, by decide +kernel⟩
def sent (refused : Option Nat) : Message :=
  { src := 3
    dst := 0
    tag := 9
    payload := [1#8, 2#8]
    sem := none
    part := 0
    task := 0
    grid := 0
    team := 0
    group := 0
    pc := 0
    ready := 0
    refused := refused }
theorem wit_message : ∃ s tm, (s.msgs[0]? = some (sent none)) ∧ msgFirst s 0 (sent none) = true ∧ receiver s (sent none) = some tm ∧
    (tm.recvs.find? fun r => msgMatch r.pat.toNat 3 9) = none ∧ ((List.range 32).find? fun k => !(tm.qmsgs.any fun q => q.slot == k)) = some 0 :=
  ⟨{ base with msgs := [sent none] }, (cx base).team, rfl, by decide, rfl, by decide, by decide⟩
theorem wit_message_posted : ∃ tm : Team, (tm.recvs.find? fun r => msgMatch r.pat.toNat 3 9).isSome = true :=
  ⟨{ (cx base).team with recvs := [{ sem := none, buf := 0x100, pat := 0xFFFFFFFF, group := 0, pc := 0, after := 0 }] }, by decide⟩
theorem wit_message_refused : ∃ s, s.msgs[0]? = some (sent (some 0)) ∧ receiver s (sent (some 0)) = none ∧ 0 + 500000 ≤ s.now ∧ recordRoom s 0 (some (dieOf 3)) ≠ 0 ∧
    msgFirst s 0 (sent (some 0)) = true ∧ bit (getPart s 0).fqcfg.toNat 0 = true :=
  ⟨{ modPart base 0 fun v => { v with fqcfg := 1 } with msgs := [sent (some 0)], cores := [], now := 500000 }, rfl, rfl, by decide⟩
theorem wit_noon_not_begun : (mget {} (getPart (modPart base 0 fun v => { v with noon := [(1, { armed := true, mask := [0] })] }) 0).noon 1).begun = false := by
  decide
/-- An increment of the word at frame 0x1000 by 3. -/
def inc3 : SemInc :=
  { id := 1
    part := 0
    pasid := 0
    va := 0x10000
    hpa := 0x1000
    by_ := 3
    core := none
    grid := 0
    team := none }
theorem wit_increment : ∃ s k, s.incs[0]? = some k ∧ (getPart s k.part).stopped = false ∧ lineQuiet s k.part (lineBase k.hpa) = true ∧
    pullFrom (getPart s k.part) (lineBase k.hpa) = none ∧ k.hpa % 8 = 0 ∧ s.semWaits = [] ∧ k.op = none ∧ incWaits s k = false ∧ k.retires = true ∧ Sys2Proof.Inv s :=
  ⟨{ base with incs := [{ inc3 with retires := true }] }, _, rfl, by decide, by decide, rfl, by decide, rfl, rfl, by decide, rfl,
    by unfold Sys2Proof.Inv; decide⟩
/-- A wait of group 0 for 2 at that word, listed there. -/
def waitingFor2 : State :=
  { withG base fun g => { g with state := .blocked, wait := .sem 0x1000 } with
    incs := [inc3], semWaits := [{ hpa := 0x1000, target := 2, core := 0, group := 0, listed := true, tried := 0 }] }
theorem wit_increment_serves : ∃ w g, (served (semCount waitingFor2 0 0x1000 + 3)
      (waitingFor2.semWaits.filter fun w => w.listed && w.hpa == 0x1000 && waitPart waitingFor2 w == 0)) = (1, [w]) ∧
    groupOf waitingFor2 w.core w.group = some g ∧ g.wait = .sem 0x1000 :=
  ⟨{ hpa := 0x1000, target := 2, core := 0, group := 0, listed := true, tried := 0 }, _, by decide +kernel, rfl, rfl⟩
theorem test_increment_serves : (cx (after waitingFor2 (.semaphoreIncrement 0))).g.spc = (cx waitingFor2).g.spc + 4 ∧
    readLE (after waitingFor2 (.semaphoreIncrement 0)).mem 0x1000 4 = 1 := by decide +kernel
theorem test_increment : readLE (after { base with incs := [inc3], mem := [(0x1000, 0xFF#8)] }
    (.semaphoreIncrement 0)).mem 0x1000 4 = 0x102 := by decide +kernel
def semWaiting (target : Word) : State :=
  { withG base fun g => { g with state := .blocked, wait := .sem 0x1000 } with
    semWaits := [{ hpa := 0x1000, target := target, core := 0, group := 0, listed := false, tried := 0 }], now := 10000 }
theorem wit_sem_retry : ∃ s w, (s.semWaits.find? fun w => w.core == 0 && w.group == 0) = some w ∧ coreStopped s 0 = false ∧
    w.listed = false ∧ w.tried + 10000 ≤ s.now ∧ lineQuiet s (waitPart s w) (lineBase w.hpa) = true ∧
    semCount s (waitPart s w) w.hpa < w.target.toNat := ⟨semWaiting 1, _, rfl, by decide⟩
theorem wit_sem_retry_takes : ∃ s w g, (s.semWaits.find? fun w => w.core == 0 && w.group == 0) = some w ∧
    lineQuiet s (waitPart s w) (lineBase w.hpa) = true ∧ w.target.toNat ≤ semCount s (waitPart s w) w.hpa ∧ groupOf s 0 0 = some g ∧
    g.wait = .sem 0x1000 := ⟨semWaiting 0, _, _, rfl, by decide, by decide, rfl, rfl⟩
theorem wit_noon : ∃ s, (getPart s 0).stopped = false ∧ (mget {} (getPart s 0).noon 1).armed = true ∧ (mget {} (getPart s 0).noon 1).mask = [0] ∧
    (mget {} (getPart s 0).noon 1).saved = [] ∧ (mget {} (getPart s 0).noon 1).begun = true ∧ (mget {} (getPart s 0).noon 1).arrived = [0] :=
  ⟨modPart base 0 fun v => { v with noon := [(1, { armed := true, mask := [0], next := [0], arrived := [0], begun := true })] }, by decide⟩
def ringed (tail : BitVec 16) : State :=
  modPart base 0 fun v => { v with fqcfg := 0x800D, fqtail := tail, records := [{ code := 0x20 }] }
theorem wit_ring : ringFull (getPart (ringed 0) 0) = false ∧ ringFull (getPart (ringed 63) 0) = true ∧ (getPart (ringed 0) 0).records = { code := 0x20 } :: [] ∧
    bit (getPart (ringed 0) 0).fqcfg.toNat 0 = true ∧ lineQuiet (ringed 0) 0 (lineBase 0x8000) = true ∧ Sys2Proof.Inv (ringed 0) := by
  unfold Sys2Proof.Inv; decide

/-! ### Messages of the sharer trees -/

/-- A message for the line at 0x1000, whose anchor is the router of site 32; site 0 is die 0's. -/
def msgAt (k : MsgKind) (l : Loc) : Msg := { kind := k, line := 0x1000, part := 0, loc := l, ready := 0, req := .core 0, txn := 0 }
def entryOf (mask : BitVec 5) (root : Port) (st : EntryState) (awaited : List Port) : Entry :=
  { set := 0, way := 0, line := 0x1000, part := 0, mask := mask, root := root, state := st, stamp := 0, awaited := awaited, answer := [.n] }
def netOf (m : Msg) (r : SMap Router) : State := { active base with net := [m], routers := r, cores := [] }
def owned : Router := { pcways := 0x40 }
def stableAt (site : Nat) (ps : List Port) : SMap Router :=
  [(site, { pcways := 0x40, entries := [entryOf (ps.foldl portAdd 0) .n .stable []] })]
def madeIn (a : Alloc) : Bool := match a with | .made _ => true | _ => false

theorem wit_at_router : ∀ k ∈ [MsgKind.homeRead, .steered, .reply, .writeReq, .upgrade, .opReq, .grant, .opResp, .inval, .cut, .ack, .dataAck,
    .prune, .writeBack], AtRouter (netOf (msgAt k (.router 0 .loc)) []) 0 (msgAt k (.router 0 .loc)) 0 .loc := by
  unfold AtRouter; decide
theorem wit_read_caught : ∃ s m e, AtRouter s 0 m 0 .loc ∧ m.kind = .homeRead ∧ entryAt s 0 0 0x1000 = some e ∧ e.state = .stable ∧
    (getRouter s 0).merges = [] ∧ mergeRoom s 0 0 = true ∧ isAnchor s 0 0 0x1000 = false :=
  ⟨netOf (msgAt .homeRead (.router 0 .loc)) (stableAt 0 [.e]), _, _, ⟨rfl, by decide, rfl, by decide⟩, rfl, rfl, rfl, by decide⟩
theorem wit_read_passes : ∃ s, entryAt s 0 0 0x1000 = none ∧ isAnchor s 0 0 0x1000 = false ∧ mergeRoom s 0 0 = true ∧
    nextPort s 0 .none 0 (anchorSite s 0 0x1000) = some (.n, .none) ∧ (getRouter s 0).merges = [] :=
  ⟨netOf (msgAt .homeRead (.router 0 .loc)) [], by decide⟩
theorem wit_read_served : ∃ s, entryAt s 32 0 0x1000 = none ∧ isAnchor s 32 0 0x1000 = true ∧ anchorBusy s 0 0x1000 = false ∧
    storageHeld s 0 0x1000 false = true ∧ madeIn (graftEntry (pullLine s 0 0x1000) (.core 0, 0) 32 0 0x1000 .s .loc false) = true :=
  ⟨netOf (msgAt .homeRead (.router 32 .s)) [(32, owned)], by decide⟩
theorem wit_reply_grafts : ∃ s m g, AtRouter s 0 m 0 .n ∧ m.trail = [] ∧ lastMerge s 0 m = some g ∧ m.fillOnce = false ∧ g.cleared = false ∧
    g.absorbed = [] ∧ madeIn (graftEntry (freeLastMerge (dropMsg s 0) 0 m) (m.req, m.txn) 0 0 0x1000 g.port .n false) = true :=
  ⟨netOf (msgAt .reply (.router 0 .n)) [(0, { owned with merges := [{ line := 0x1000, part := 0, req := .core 0, txn := 0, port := .loc, isRead := true }] })],
    _, _, ⟨rfl, by decide, rfl, by decide⟩, rfl, rfl, by decide⟩
theorem wit_write_tears : ∃ s m e, isAnchor s 32 0 0x1000 = true ∧ anchorBusy s 0 0x1000 = false ∧ entryAt s 32 0 0x1000 = some e ∧
    e.state = .stable ∧ holderPorts true e = [.s] ∧ dupOf s m = none ∧ storageHeld s 0 0x1000 (!reqReads m) = true ∧ reqRuns s m = true ∧
    m.kind = .writeReq :=
  ⟨netOf (msgAt .writeReq (.router 32 .e)) (stableAt 32 [.s]), msgAt .writeReq (.router 32 .e), _, by decide, by decide, rfl, by decide⟩
theorem wit_write_climbs : ∃ s, isAnchor s 0 0 0x1000 = false ∧ nextPort s 0 .none 0 (anchorSite s 0 0x1000) = some (.n, .none) ∧ mergeRoom s 0 0 = true :=
  ⟨netOf (msgAt .writeReq (.router 0 .loc)) [], by decide⟩
theorem wit_upgrade : ∃ s e, entryAt s 0 0 0x1000 = some e ∧ e.state = .stable ∧ portHas e.mask .loc = true ∧ isAnchor s 0 0 0x1000 = false ∧
    mergeRoom s 0 0 = true := ⟨netOf (msgAt .upgrade (.router 0 .loc)) (stableAt 0 [.loc]), _, rfl, by decide⟩
theorem wit_grant_grafts : ∃ s g, lastMerge s 0 (msgAt .grant (.router 0 .n)) = some g ∧
    madeIn (graftEntry (freeLastMerge (dropMsg s 0) 0 (msgAt .grant (.router 0 .n))) (.core 0, 0) 0 0 0x1000 g.port .n true) = true :=
  ⟨netOf (msgAt .grant (.router 0 .n)) [(0, { owned with merges := [{ line := 0x1000, part := 0, req := .core 0, txn := 0, port := .loc, isRead := false }] })],
    _, rfl, by decide⟩
theorem wit_inval : ∃ s f, entryAt s 0 0 0x1000 = some f ∧ f.state = .stable ∧ (holderPorts false f).filter (· != .n) ≠ [] :=
  ⟨netOf (msgAt .inval (.router 0 .n)) (stableAt 0 [.loc, .e]), _, rfl, by decide⟩
theorem wit_inval_root : ∃ s f, entryAt s 0 0 0x1000 = some f ∧ f.state = .stable ∧ f.root = .n ∧ (holderPorts false f).filter (· != .n) ≠ [] :=
  ⟨netOf (msgAt .inval (.router 0 .n)) (stableAt 0 [.loc, .e]), _, rfl, by decide⟩
theorem wit_inval_other_port : ∃ s f, AtRouter s 0 (msgAt .inval (.router 0 .e)) 0 .e ∧ entryAt s 0 0 0x1000 = some f ∧ f.state = .stable ∧ f.root ≠ .e :=
  ⟨netOf (msgAt .inval (.router 0 .e)) (stableAt 0 [.loc, .e]), _, ⟨rfl, by decide, rfl, by decide⟩, rfl, by decide⟩
theorem wit_inval_gone : entryAt (netOf (msgAt .inval (.router 0 .n)) []) 0 0 0x1000 = none := by decide
theorem wit_ack : ∃ s e, entryAt s 0 0 0x1000 = some e ∧ e.state = .tearing ∧ e.awaited = [.loc] ∧ e.answer = [.n] ∧ isAnchor s 0 0 0x1000 = false :=
  ⟨netOf (msgAt .ack (.router 0 .loc)) [(0, { owned with entries := [entryOf 0x10 .n .tearing [.loc]] })], _, rfl, by decide⟩
theorem wit_ack_more : ∃ e : Entry, e.state ≠ .stable ∧ e.awaited.contains .loc = true ∧ e.awaited.erase .loc ≠ [] :=
  ⟨entryOf 0x11 .n .cutting [.loc, .e], by decide⟩
theorem wit_data_ack : ∃ (s : State) (m : Msg) (d : Line), isAnchor s 32 0 0x1000 = true ∧ Sys2Proof.Inv s ∧ m.kind = .dataAck ∧ m.data = some d ∧ entryAt s 32 0 0x1000 = none ∧
    dupOf s m = none ∧ m.fillOnce = false ∧ homeTested s 0 0x1000 = false :=
  ⟨netOf { msgAt .dataAck (.router 32 .s) with data := some 5 } [], { msgAt .dataAck (.router 32 .s) with data := some 5 }, 5, by decide,
    by unfold Sys2Proof.Inv; decide, rfl, rfl, rfl, rfl, rfl, by decide⟩
theorem wit_prune : ∃ s e, AtRouter s 0 (msgAt .prune (.router 0 .loc)) 0 .loc ∧ entryAt s 0 0 0x1000 = some e ∧ e.state = .stable ∧
    portDel e.mask .loc ≠ 0 :=
  ⟨netOf (msgAt .prune (.router 0 .loc)) (stableAt 0 [.loc, .e]), _, ⟨rfl, by decide, rfl, by decide⟩, rfl, by decide⟩
theorem wit_prune_last : ∃ s e, AtRouter s 0 (msgAt .prune (.router 0 .loc)) 0 .loc ∧ entryAt s 0 0 0x1000 = some e ∧ e.state = .stable ∧
    portDel e.mask .loc = 0 ∧ isAnchor s 0 0 0x1000 = false :=
  ⟨netOf (msgAt .prune (.router 0 .loc)) (stableAt 0 [.loc]), _, ⟨rfl, by decide, rfl, by decide⟩, rfl, by decide⟩
theorem wit_read_no_merge : NoMerge (netOf (msgAt .homeRead (.router 0 .loc)) []) 0 (msgAt .homeRead (.router 0 .loc)) :=
  fun q h => by simp [show (getRouter (netOf (msgAt .homeRead (.router 0 .loc)) []) 0).merges = [] from rfl] at h
theorem wit_steered : ∃ s e, AtRouter s 0 (msgAt .steered (.router 0 .n)) 0 .n ∧ entryAt s 0 0 0x1000 = some e ∧ e.state = .stable :=
  ⟨netOf (msgAt .steered (.router 0 .n)) (stableAt 0 [.loc]), _, ⟨rfl, by decide, rfl, by decide⟩, rfl, by decide⟩
/-- A steered read whose tree is lost: the merges of its trail have room for it. -/
theorem wit_steered_lost : ∃ s m, AtRouter s 0 m 0 .n ∧ m.kind = .steered ∧ entryAt s 0 0 0x1000 = none ∧ m.trail = [(32, .e)] ∧
    ∀ r ∈ m.trail, mergeRoom s r.1 m.part = true :=
  ⟨netOf { msgAt .steered (.router 0 .n) with trail := [(32, .e)] } [], _, ⟨rfl, by decide, rfl, by decide⟩, rfl, by decide⟩
theorem wit_upgrade_lost : ∃ s, AtRouter s 0 (msgAt .upgrade (.router 0 .loc)) 0 .loc ∧ entryAt s 0 0 0x1000 = none :=
  ⟨netOf (msgAt .upgrade (.router 0 .loc)) [], ⟨rfl, by decide, rfl, by decide⟩, by decide⟩
theorem wit_responses : ∀ k ∈ [MsgKind.opResp, .written], ∃ p d, AtRouter (netOf (msgAt k (.router 32 .loc)) []) 0 (msgAt k (.router 32 .loc)) 32 .loc ∧
    nextPort (netOf (msgAt k (.router 32 .loc)) []) 0 (msgAt k (.router 32 .loc)).det 32 (requesterSite (.core 0)) = some (p, d) := by
  intro k hk
  refine ⟨.s, .none, ?_⟩
  unfold AtRouter
  revert k; decide
def anchoredOp : AnchorTxn :=
  { line := 0x1000
    msg := { msgAt .opReq (.router 32 .s) with op := some { kind := .atom 0, addr := 0x1004, size := 4, data := 5, cmp := 0, prom := false } }
    data := none
    success := false
    keep := none }
/-- Behind a transaction of the same line whose partition is stopped. -/
def anchoring : State :=
  { modPart (active base) 1 (fun v => { v with stopped := true }) with
    anchors := [{ anchoredOp with msg := { anchoredOp.msg with part := 1 } }, anchoredOp] }
theorem wit_anchor_op : ∃ s a, (∃ pre post, s.anchors = pre ++ a :: post ∧ ∀ b ∈ pre, b.line = 0x1000 → AnchorWaits s b) ∧
    a.line = 0x1000 ∧ (getPart s a.msg.part).stopped = false ∧ homeTested s 0 0x1000 = false ∧ a.msg.op.isSome ∧
    entryAt s (anchorSite s a.msg.part 0x1000) a.msg.part 0x1000 = none ∧ pullFrom (getPart s a.msg.part) 0x1000 = none ∧ Sys2Proof.Inv s ∧
    ∀ q ∈ s.cores, relDrained q.2 0x1000 = true := by
  refine ⟨anchoring, anchoredOp, ⟨[{ anchoredOp with msg := { anchoredOp.msg with part := 1 } }], [], rfl, ?_⟩, rfl, by decide, by decide, by decide,
    by decide, rfl, by unfold Sys2Proof.Inv; decide, by decide⟩
  intro b hb _
  obtain rfl := List.mem_singleton.mp hb
  exact .inl (by decide)
theorem wit_retransmit : ∃ s o, s.outstanding[0]? = some o ∧ o.held = none ∧ o.sent + 20000 ≤ s.now ∧ (getPart s o.msg.part).stopped = false :=
  ⟨{ base with outstanding := [{ msg := msgAt .homeRead (.router 0 .loc), sent := 0 }], now := 20000 }, _, rfl, by decide⟩
theorem wit_flit : ∃ (s : State) (m : Msg), s.net[0]? = some m ∧ s.now < m.ready := ⟨netOf { msgAt .homeRead (.router 0 .loc) with ready := 5 } [], _, rfl, by decide⟩
/-- Core 0 of site 0 holds the line. -/
def holding (k : MsgKind) (st : Moesi) : State :=
  { modCore (active base) 0 fun c => { c with l1 := [{ line := 0x1000, set := 0, state := st, data := 9 }] } with net := [msgAt k (.site 0)] }
theorem wit_at_site : ∀ k ∈ [MsgKind.steered, .inval, .cut, .reply, .opResp, .grant], AtSite (holding k .m) 0 (msgAt k (.site 0)) 0 := by
  unfold AtSite; decide
theorem wit_window_open : (msgAt .inval (.site 0)).drain = false ∧ unsent (holding .inval .m) 0 0x1000 0 = false ∧
    ∀ r, windowFull (holding .inval .m) r 0 0x1000 = false := ⟨rfl, rfl, fun _ => rfl⟩
theorem wit_holder : ∃ s l, l1Find (getCore s 0) 0x1000 = some l ∧ isComputeSite 0 = true ∧ l.state = .m ∧
    ((dieCores (unitOfSite 0)).find? fun c => (l1Find (getCore s c) 0x1000).isSome) = some 0 := ⟨holding .steered .m, _, rfl, by decide⟩
/-- Core 0 waits for the line with access 0. -/
def missing (kind : MissKind) (m : Msg) : State :=
  { modCore (active base) 0 fun c =>
      { c with
        misses := [{ line := 0x1000, txn := 0, kind := kind, va := 0x10000 }]
        accs := [{ id := 0, op := 0, thread := 0, kind := .ld, va := 0x10000, hpa := 0x1000, size := 4, state := .queued }] } with
    net := [m] }
theorem wit_fill : ∀ kind ∈ [MissKind.read, .write, .op 0], ∃ s k tm a,
    ((getCore s 0).misses.find? fun q => q.txn == 0) = some k ∧ k.kind = kind ∧ (getCore s 0).team = some tm ∧
    l1Find (getCore s 0) 0x1000 = none ∧ ((getCore s 0).accs.find? fun a => a.id == k.leader) = some a ∧ a.kind ≠ .sc ∧
    canInstall s 0 (setOf tm k.va) 0x1000 = true := by
  intro kind _
  exact ⟨missing kind (msgAt .reply (.site 0)), _, _, _, rfl, rfl, rfl, by rfl, rfl, by decide, by decide +revert⟩

/-! ### The host, translation, power, errors, management -/

/-- Partition 0 with host port 0 and panel link 0. -/
def edged : State := modPart (active base) 0 fun v => { v with edge := 0x100000001 }
theorem wit_host_reach : hostReach { edged with cores := [] } 0 0x1000 8 = some 0 ∧ hostReach { edged with cores := [] } 0 0x107C 8 = some 0 ∧
    Sys2Proof.Inv edged := by unfold Sys2Proof.Inv; decide +kernel
theorem wit_host_lines : linesOf 0x107C 8 = [0x1000, 0x1080] ∧ ∀ l ∈ linesOf 0x107C 8, pullFrom (getPart edged 0) l = none := by decide
theorem wit_host_holder : ∃ tm l, teamOf (holding .steered .m) 0 = some tm ∧ tm.part = 0 ∧ l ∈ (getCore (holding .steered .m) 0).l1 ∧
    l.line ∈ linesOf 0x1000 8 := ⟨_, _, rfl, rfl, List.mem_singleton.mpr rfl, by decide⟩
theorem wit_host_snoop : ∀ p ∈ mkeys edged.parts, tierOf edged p 0x2000000000 = some 2 → lineQuiet edged p 0x2000000000 = true := by decide
theorem wit_host_gives : ∃ s key, (s.hostReqs.find? fun q => q.1 / 64 == lineBase 0x2000000000) = some (key, true) ∧
    hostMayGive s (key % 64) (lineBase 0x2000000000) true = true :=
  ⟨{ edged with hostReqs := [(64 * 0x2000000000, true)] }, 64 * 0x2000000000, by decide⟩
theorem wit_panel_request : (getPart edged 0).active = true ∧ (getPart edged 0).stopped = false ∧ bit (lnkMask (getPart edged 0)) 0 = true ∧
    ((tileLines 2).all fun l => inNear (getPart edged 0) l || inFar (getPart edged 0) l) = true ∧
    (edged.outstanding.any fun o => o.msg.req == .link 0 && o.msg.line / 2048 == 2) = false ∧
    windowFull edged (.link 0) 0 0x1000 = false ∧ unsent edged 0 0x1000 (linkSite 0) = false ∧
    ((tileLines 2).find? fun l => match proxyOf edged 0 l with | some q => true && q.state != .m && q.state != .e | none => true) = some 0x1000 := by
  decide +kernel
/-- Link 0 holds the whole of tile 2 in E. -/
def linkHolds : State := { edged with proxies := (tileLines 2).map fun l => { req := .link 0, line := l, state := .e, data := 0 } }
theorem wit_panel_given : (∀ l ∈ tileLines 2, ∃ q, proxyOf linkHolds 0 l = some q ∧ (q.state = .m ∨ q.state = .e)) ∧
    (getPart linkHolds 0).active = true := by
  have h : ∀ l ∈ tileLines 2, (match proxyOf linkHolds 0 l with | some q => q.state == .e | none => false) = true := by decide
  refine ⟨fun l hl => ?_, by decide⟩
  have := h l hl
  revert this
  cases proxyOf linkHolds 0 l with
  | none => simp
  | some q => intro hq; exact ⟨q, rfl, .inr (by simpa using hq)⟩
/-- An aperture of 1 GiB at 16 GiB, reached by link 0, with its first tile held. -/
def aperture (held : Bool) : State :=
  { modPart edged 0 fun v => { v with aps := [(0, 0x100400010)] } with
    tiles := if held then [(0x800000, .s)] else [], tileReqs := [(0x800000, false)] }
theorem wit_tile : (mget? (aperture true).tiles 0x800000).isSome ∧ (apOf (getPart (aperture true) 0) (2048 * 0x800000)).isSome ∧
    (∀ l ∈ tileLines 0x800000, lineQuiet (aperture true) 0 l = true) ∧ mget? (aperture false).tileReqs 0x800000 = some false ∧
    mget? (aperture false).tiles 0x800000 = none := by decide +kernel
def walking : State := { leasing with walks := [{ core := 0, pasid := 0, va := 0x10, part := 0 }] }
theorem wit_walk : ∃ s w q, s.walks[0]? = some w ∧ (getPart s w.part).stopped = false ∧ pageMoving (getPart s w.part) w.pasid (w.va / 4096) = false ∧
    leafQuiet s w.part w.pasid (w.va / 4096) = true ∧ walkPage s w.part w.pasid w.va = some q :=
  ⟨walking, _, (walkPage walking 0 0 0x10).getD { page := 1, size := 0, frame := 0, w := false, leaf := 0 }, rfl, by decide⟩
theorem wit_walk_wakes : ∃ s w g, s.walks[0]? = some w ∧ w.group = some 0 ∧ groupOf s w.core 0 = some g ∧ g.wait = .walk false :=
  ⟨withG { walking with walks := [{ core := 0, group := some 0, pasid := 0, va := 0x10, part := 0 }] } fun g =>
    { g with state := .blocked, wait := .walk false }, _, _, rfl, rfl, rfl, rfl⟩
theorem wit_invalidation : ∃ q ∈ (getPart base 0).pins, q.pasid = 0 ∧ pinIn q (pageSpan 0 4096) = true ∧ pinInWork (getPart base 0) q = false := ⟨_, List.mem_singleton.mpr rfl, by decide⟩
def shot (visit : List Nat) : State :=
  modPart base 0 fun v => { v with shots := [{ id := 7, pasid := 0, page := 0, pages := 1, toVisit := visit, toAck := [(0, [])] }] }
theorem wit_shootdown : ∃ s h, ((getPart s 0).shots.find? fun h => h.id == 7) = some h ∧ h.toVisit.contains 1 = true ∧ (getPart s 0).revs = [] ∧
    (getPart s 0).stopped = false :=
  ⟨shot [1], _, rfl, by decide⟩
theorem wit_shootdown_ack : ∃ s h q, ((getPart s 0).shots.find? fun h => h.id == 7) = some h ∧ (h.toAck.find? fun q => q.1 == 0) = some q ∧
    answered s 0 q.2 = true ∧ h.toVisit = [] ∧ (h.toAck.filter fun r => r.1 != 0) = [] ∧ (getPart s 0).migs = [] ∧ (getPart s 0).revs = [] :=
  ⟨shot [], _, _, rfl, rfl, by decide⟩
theorem wit_migrate : ∃ s, (getPart s 0).active = true ∧ (getPart s 0).stopped = false ∧ (getPart s 0).migs = [] ∧
    lookup s 0 0 0 = some 0 ∧ (∃ q, pinOf (getPart s 0) 0 0 = some q ∧ q.size = 1) ∧ (tierOf s 0 0x3000).isSome ∧ inCtxArea (getPart s 0) 0x3000 = false :=
  ⟨active base, by decide, by decide, by decide, by decide, ⟨_, rfl, rfl⟩, by decide⟩
/-- A page pinned when its mapping was of 2 MiB, which the host has since split. -/
theorem wit_migrate_split : ∃ s q, pinOf (getPart s 0) 0 3 = some q ∧ q.size = 512 ∧ (getPart s 0).active = true ∧ walkPage s 0 0 0x3000 = none ∧
    lookup s 0 0 0x3000 = some 0x3000 :=
  ⟨modPart (active base) 0 fun v => { v with pins := [{ pasid := 0, page := 0, size := 512, frame := 0, w := false, refs := 1 }] }, _,
    rfl, by decide⟩
/-- A page of a mapping of 1 GiB: the entry two levels above the last says so. -/
def largePage : State :=
  { active base with
    pasids := [(0, 0x2000)]
    mem := [(0x2000, 0x3003, 2), (0x3000, 0x4003, 2), (0x4000, 0x83, 1)].foldl
      (fun m q => writeLE m (memKey (getPart (active base) 0) q.1) q.2.2 q.2.1) [] }
theorem wit_migrate_large : ∃ q, walkPage largePage 0 0 0 = some q ∧ q.size ≠ 1 ∧ (getPart largePage 0).active = true :=
  ⟨(walkPage largePage 0 0 0).getD { page := 0, size := 0, frame := 0, w := false, leaf := 0 }, by decide +kernel⟩
def moving (valid : BitVec 32) : State :=
  modPart base 0 fun v => { v with fqcfg := 1, migs := [{ pasid := 0, page := 5, old := 0, new := 0x3000, valid := valid, installed := true }] }
theorem wit_migration : ∃ m, (getPart (moving 1) 0).migs[0]? = some m ∧ m.installed = true ∧ nextPull m = some 1 ∧
    lineQuiet (moving 1) 0 (m.new + 128) = true := ⟨_, rfl, by decide⟩
theorem wit_migration_ends : ∃ m, (getPart (moving (BitVec.allOnes 32)) 0).migs[0]? = some m ∧ nextPull m = none ∧
    recordRoom (moving (BitVec.allOnes 32)) 0 none ≠ 0 := ⟨_, rfl, by decide⟩
theorem wit_revoke : ∃ g ∈ (getPart (active gbase) 0).grids, g.pasid = 0 ∧ holdsLease g 0x10000 4096 = true ∧ (getPart (active gbase) 0).active = true :=
  ⟨_, List.mem_singleton.mpr rfl, by decide⟩
def lostLease : Lease := { base := 0x10000, len := 0x1000, r := true, w := true, revoked := true }
/-- Its one grid has lost page 16, which stays pinned, or is no more. -/
def regranting (pinned : Bool) : State :=
  let s := withQ gbase fun q => { q with revoked := true, leases := [lostLease], lost := [(16, 1)], pinned := if pinned then [0, 16] else [0] }
  if pinned then s else modPart s 0 fun v => { v with pins := v.pins.take 1 }
def regrantAsk (s : State) : Grid := { (cx s).grid with regrant := [(16, 1)] }
theorem wit_regrant : ∀ b : Bool, (getPart (regranting b) 0).stopped = false ∧ (getPart (regranting b) 0).revs = [] ∧
    (getPart (regranting b) 0).saved = [] ∧ (getPart (regranting b) 0).grids = [(cx (regranting b)).grid] ∧
    (cx (regranting b)).grid.revoked = true ∧ (cx (regranting b)).grid.state = .running ∧
    ((cx (regranting b)).grid.lost.map (spanMeet (pageSpan 0x10000 4096))) = [(16, 1)] ∧
    neededPages (regranting b) 0 0 (pinSpans (regrantAsk (regranting b))) = [(16, true)] ∧
    pagesPinned (regranting b) 0 (regrantAsk (regranting b)) = b := by decide +kernel
theorem wit_regrant_waits : (cx (regranting false)).grid.leaseReqs = [] ∧ recordRoom (regranting false) 0 none = 32 ∧
    pinHeld (getPart (regranting false) 0) (regrantAsk (regranting false)) 16 true = false ∧
    pageReady (regranting false) 0 0 16 true = false := by decide +kernel
theorem wit_pool : (getDie base 3).hop = none ∧ (getDie base 3).retired = false ∧ (getDie base 3).reset = none ∧ (getDie base 3).cls ≠ clsOf 2 ∧
    (getDie base 3).cls ≠ clsOf 0 ∧ sprintDies base < 64 := by decide
theorem wit_pool_limit : 64 ≤ sprintDies { base with dies := (List.range 64).map fun d => (d, { cls := .sprint }) } := by decide
def hopOf (step aborts : Nat) (aborted : Bool) : Hop :=
  { target := .sprint, step := step, time := 0, aborts := aborts, aborted := aborted }
def hopping (step aborts : Nat) (aborted : Bool) : State :=
  { base with dies := [(3, { closed := true, hop := some (hopOf step aborts aborted) })], now := 9000 }
theorem wit_hop : dieDrained (hopping 3 0 false) 3 = true ∧ ∃ h, (getDie (hopping 4 4 true) 3).hop = some h ∧ h.step = 4 ∧ h.time + 5000 ≤ 9000 ∧
    h.aborted = true ∧ 4 ≤ h.aborts := ⟨by decide, _, rfl, by decide⟩
theorem wit_hop_aborted : ∃ h, (getDie (hopping 4 1 true) 3).hop = some h ∧ h.step = 4 ∧ h.time + 5000 ≤ (hopping 4 1 true).now ∧
    h.aborted = true ∧ h.aborts < 4 := ⟨_, rfl, by decide⟩
theorem wit_hop_droops : ∃ h, (getDie (hopping 4 0 false) 3).hop = some h ∧ h.step = 4 ∧ h.aborted = false ∧ regionOfSite (dieSite 3) < 16 :=
  ⟨_, rfl, by decide⟩
theorem wit_pool_same : clsOf 1 = (getDie base 3).cls ∧ (getDie (hopping 4 1 true) 3).hop.isSome := by decide
theorem wit_hop_retry : ∃ h, (getDie (hopping 5 1 false) 3).hop = some h ∧ h.step = 5 ∧ h.retry ≤ (hopping 5 1 false).now := ⟨_, rfl, by decide⟩
theorem wit_step_boundary : corrected { base with now := 2000 } 0 % 250 = 0 ∧
    (getRegion { base with now := 2000 } 0).stepAt ≠ corrected { base with now := 2000 } 0 / 250 := by decide
/-- A step limit of `lim` A in region 0, whose core 0 has drawn `amps` and holds a start of an MMA. -/
def stepping (lim : BitVec 32) (amps : Nat) : State :=
  let s := active (matrix { pieceOf .mma with running := false, withheld := true })
  { withC s fun c => { c with stepAmps := amps } with regions := [(0, { pwrcfg := lim ||| 0x00840000 })], now := 2000 }
theorem wit_step_start : ∃ n tm q, (0, n) ∈ partsIn (stepping 100 0) 0 ∧ n ≠ 0 ∧ teamOf (stepping 100 0) 0 = some tm ∧ tm.part = 0 ∧
    tm.queue = [q] ∧ q.withheld = true ∧ canStart (stepping 100 0) 0 = true ∧ 0 ∈ regionCores (stepping 100 0) 0 0 ∧
    (getRegion (stepping 100 0) 0).stepAt ≠ corrected (stepping 100 0) 0 / 250 ∧ teamOf (stepping 100 0) (pairOf 0) = none :=
  ⟨mget 0 (partsIn (stepping 100 0) 0) 0, (cx (stepping 100 0)).team, { pieceOf .mma with running := false, withheld := true }, by
    decide +kernel⟩
theorem wit_step_over : fld (getRegion (stepping 1 300) 0).pwrcfg.toNat 0 12 = 1 ∧
    (mget {} (getRegion (stepping 1 300) 0).power 0).iest = 0 ∧ (getCore (stepping 1 300) 0).stepAmps = 300 := by decide
theorem wit_droop : ∃ s, (getRegion s 0).droop = true ∧ (getRegion s 0).droopAt + 5000 ≤ s.now :=
  ⟨{ base with regions := [(0, { droop := true })], now := 5000 }, by decide⟩
theorem wit_thermal : ([(0, 9#8), (9000, 200#8)].filter fun q => decide (q.1 < 8192) && !(getCore base q.1).retired) = [(0, 9#8)] ∧
    corrected base 0 % 6250 = 0 := by decide
/-- The hottest engine at the region's limit, and 4 degrees below it. -/
theorem wit_thermal_alarm : fld (getRegion base 0).thermcfg.toNat 0 8 = 105 ∧ (105#8).toNat = 105 ∧ (101#8).toNat + 4 = 105 ∧
    0 ∈ mkeys (partsIn (stepping 100 0) 0) ∧ corrected base 0 % 6250 = 0 := by decide +kernel
theorem wit_error : unitRetired base (.slice 3) = false ∧ UnitId.slice 3 ∉ base.testing ∧ heldContexts base (.slice 3) = [] := by decide
theorem wit_dcc_fails : dieEmpty base 0 = false ∧ UnitId.dcc 0 ∈ ({ base with testing := [.dcc 0] } : State).testing ∧
    ∃ tm, teamOf base 0 = some tm ∧ activeTeam tm = true := by
  refine ⟨by decide, by decide, _, rfl, by decide⟩
theorem wit_reset : (getDie base 3).reset = none ∧ siteStopped base (dieSite 3) = false ∧ dieEmpty base 3 = true := by decide
theorem wit_reset_forced : ∃ s, (getDie s 3).reset = some 0 ∧ (getDie s 3).forced = false ∧ 0 + 50000 ≤ s.now ∧ siteStopped s (dieSite 3) = false :=
  ⟨{ base with dies := [(3, { reset := some 0 })], now := 50000 }, by decide⟩
def startReport (step : Nat) : StartReport :=
  { failStep := step
    image := { version := 5 }
    raisesMinimum := false
    nvReadable := true
    dcOff := []
    testFails := [] }
/-- Whether an image is good rests on constants without a value (log 8): a good one is given here. -/
theorem wit_start : ∀ m : FwImage, imageGood m = true → ∃ s, s.start.warm = true ∧ s.start.mustCold = false ∧ s.start.keep = true ∧
    failedStep s { startReport 0 with image := m } = 0 ∧ failedStep s (startReport 1) = 1 ∧ base.start.warm = false ∧
    failedStep s { startReport 6 with image := m } = 6 ∧ failedStep s { startReport 7 with image := m } = 7 := by
  intro m h
  refine ⟨{ base with start := { base.start with warm := true, keep := true } }, rfl, rfl, rfl, ?_, rfl, rfl, ?_, ?_⟩ <;>
    simp [failedStep, startReport, h, show base.minVersion = 0 from rfl]
theorem wit_curfew : ∃ s, bit (getPart s 0).curfew.toNat 0 = true ∧ (getPart s 0).active = true ∧ (getPart s 0).stopped = false ∧
    (getPart s 0).curfew.toNat / 2 ≤ corrected s (regionOfSite (siteNo (cfgX0 (getPart s 0)) (cfgY0 (getPart s 0)))) + 1 :=
  ⟨modPart (active base) 0 fun v => { v with curfew := 3 }, by decide⟩
/-- Watchpoint 2 of partition 0 over the first line of its near window. -/
def watched : State :=
  modPart (active base) 0 fun v => { v with wps := [(2, { base := nearBase v, limit := nearBase v + 128, write := true, stop := true })] }
theorem wit_watchpoint : ∃ w, (2, w) ∈ (getPart watched 0).wps ∧ w.write = true ∧ w.base = nearBase (getPart watched 0) ∧
    w.base < w.limit ∧ (memHome (getPart watched 0) w.base).isSome := ⟨_, List.mem_singleton.mpr rfl, by decide +kernel⟩
theorem wit_watch_hit : ∀ stop : Bool, ∃ s h, (s.wpHits.find? fun k => k.part == 0 && k.wp == 2 && k.write == true && k.cls == 1 && k.region == 3) = some h ∧
    h.stop = stop ∧ (getPart s 0).stopped = false := by
  intro stop
  exact ⟨{ base with wpHits := [{ part := 0, wp := 2, write := true, cls := 1, region := 3, stop := stop }] },
    { part := 0, wp := 2, write := true, cls := 1, region := 3, stop := stop }, by cases stop <;> decide⟩
theorem wit_enable : ∃ s v, (v &&& 0x003FFFFF0007FFFF#64).getLsbD 18 = true ∧ (getPart s 63).active = false ∧
    holdsGrid (getPart s 63) = false ∧ (getPart s 63).scrub = false ∧
    cfgErr s 63 { getPart s 63 with cfg := v &&& 0x003FFFFF0007FFFF#64, active := true } = 0 :=
  ⟨modPart State.reset 63 fun v => { v with edge := 0x101 }, 0x1000000004C200, by decide +kernel⟩
theorem wit_enable_holds : holdsGrid (getPart base 0) = true := by decide
theorem wit_scrub : ∃ s, (getPart s 1).scrub = true ∧ (getPart s 1).aons = [] ∧ s.net = [] ∧ (∀ q ∈ s.cores, q.2.l1 = []) ∧
    inRect (laid (getPart s 1)) (coreSite 0) = true :=
  ⟨{ base with parts := mput base.parts 1 { scrub := true, scrubCfg := 0x4C200 } }, by decide⟩
theorem wit_disable : ∃ s, cfgEn (getPart s 1) = true ∧ holdsGrid (getPart s 1) = false :=
  ⟨{ base with parts := mput base.parts 1 { cfg := 0x4C200, active := true } }, by decide⟩
/-- Way 0 of router 0, partition 1's, holds an entry that a neighbour's holders lie under. -/
def wayHeld : State :=
  { base with routers := [(0, { pcways := 0x41, entries := [{ entryOf 1 .n .stable [] with part := 1, mask := portAdd 0 .e }] })] }
def wayGone : Router := { getRouter wayHeld 0 with pcwaysNext := some 0 }
theorem wit_ways_free : (∀ q, wayIn (getRouter wayHeld 0).pcways 0 = some q → holdsGrid (getPart wayHeld q) = false) ∧
    (∃ e ∈ wayGone.entries, leaving wayHeld wayGone 0 e.part e.set e.way = true) ∧
    ∀ e ∈ wayGone.entries, holderPorts (isAnchor wayHeld 0 e.part e.line) e ≠ [] := by
  refine ⟨fun q h => ?_, by decide, by decide⟩
  obtain rfl : 1 = q := by simpa using (show some 1 = some q from h)
  decide
theorem wit_ways_at_once : ∀ e ∈ (getRouter base 0).entries, leaving base (getRouter base 0) 0 e.part e.set e.way = false := by decide
theorem wit_ways_refused : wayIn 0x40 0 = some 0 ∧ fld (getRouter base 0).pcways.toNat 0 7 ≠ fld (0x40#64).toNat 0 7 ∧
    holdsGrid (getPart base 0) = true := by decide
theorem wit_noon_image : ∃ img, unitRead base 0 0 0x400 1024 = some img ∧ unitQuiet base 0 0 0x400 1024 = true ∧
    ((pagesOf 0x400 1024).any fun j => ((lookup base 0 0 (if j = 0x400 / 4096 then 0x400 else 4096 * j)).bind (tierOf base 0)) == some 3) = false :=
  ⟨(unitRead base 0 0 0x400 1024).getD [], by decide +kernel⟩
def granting : State :=
  { modPart base 0 fun v => { v with parkRecs := [{ seq := 3, task := 0, pasid := 0, page := 0, srcLo := 0, srcLen := 64, dstLo := 0x9000, dstLen := 64 }] } with
    pasids := [(0, 0x2000)], mem := [(0x2000, 0x03#8), (0x2001, 0x20#8)] }
theorem wit_grant : ∃ s r q, ((getPart s 0).parkRecs.find? fun r => r.seq == (0x100000003#64).toNat % 2 ^ 32) = some r ∧
    taskRuns (getPart s 0) r.task = true ∧ (getPart s 0).granted = [] ∧ walkPage s 0 r.pasid (r.page * 4096) = some q ∧
    pageTouches r.page r.dstLo r.dstLen = false ∧ (tierOf s 0 (q.addr (r.page * 4096))).isSome ∧
    inCtxArea (getPart s 0) (q.addr (r.page * 4096)) = false ∧ leafQuiet s 0 r.pasid r.page = true ∧
    (getPart s 0).pins.length < pinCapacity :=
  ⟨granting, _, (walkPage granting 0 0 0).getD { page := 1, size := 0, frame := 0, w := false, leaf := 0 }, rfl, by decide +kernel⟩
theorem wit_grant_busy : ∃ s, (getPart s 0).granting.isSome ∧ (0x100000003#64).getLsbD 32 = true :=
  ⟨modPart granting 0 fun v => { v with granting := some 3 }, rfl, by decide⟩
theorem wit_features : base.featLocked = false ∧ ({ base with featLocked := true } : State).featLocked = true := by decide
theorem wit_spdm : ∃ s : State, s.spdm.version.contains 2 = true ∧ s.spdm.caps.contains 2 = true ∧ s.spdm.algs.contains 2 = true ∧ s.leaf < 2 ^ 40 ∧
    s.spdm.sessions.length < 64 ∧ base.spdm.algs.contains 2 = false := ⟨{ base with spdm := { version := [2], caps := [2], algs := [2] } }, by decide⟩
theorem wit_spdm_measure : (measured base 1).isSome = true := by decide
theorem wit_session : ∃ s q, sessionOf s 4 = some q ∧ q.secure = true ∧ q.bound = none ∧ (getPart s 0).active = true ∧ (digestOf s 0x40).isSome :=
  ⟨{ active base with spdm := { sessions := [{ id := 4, port := 0, secure := true }] } }, _, rfl, rfl, rfl, rfl, by unfold digestOf; decide⟩
theorem wit_session_new : ∃ s q, sessionOf s 4 = some q ∧ q.secure = false :=
  ⟨{ base with spdm := { sessions := [{ id := 4, port := 0 }] } }, _, rfl, rfl⟩
theorem wit_key_slot : ∃ s q k, sessionOf s 4 = some q ∧ q.secure = true ∧ q.bound = some 0 ∧ mget? (getPart s 0).keys 2 = some k ∧ k.session = 4 :=
  ⟨{ modPart base 0 fun v => { v with keys := [(2, { key := 0, session := 4 })] } with
    spdm := { sessions := [{ id := 4, port := 0, secure := true, bound := some 0 }] } }, _, _, rfl, rfl, rfl, rfl, rfl⟩

/-! ### The whole machine -/

theorem wit_turn : Sys2Proof.Inv base ∧ base.agenda = { dt := 0, who := .issue 0 0 false false } :: [] := by
  unfold Sys2Proof.Inv; decide
theorem wit_issues : (issuable (turnIssues base 0 [] 0 0 false)).isSome = true ∧ (wordAt (cx base)).2.2 = true ∧
    fetchBytes (turnIssues base 0 [] 0 0 false) (cx base) = some [0x00#8, 0x87#8, 0x51#8, 0x04#8] ∧ (cx base).team.bad = [] := by decide
theorem wit_decoded : (match decodeBytes 3 false [0x00#8, 0x87#8, 0x51#8, 0x04#8] with | .ok i => i == .add 5 6 7 | _ => false) = true ∧
    (match decodeBytes 3 false [1#8, 0#8, 0#8, 0xE8#8] with | .ok _ => false | _ => true) = true := by decide
theorem wit_outside : (wordAt (cx (withG base fun g => { g with spc := 16 }))).2.2 = false := by decide
theorem wit_unreadable : fetchBytes (modPart base 0 fun v => { v with pins := [] }) (cx base) = none := by decide
theorem wit_not_issuable : issuable (turnIssues base 0 [] 5 0 false) = none := by rfl
theorem wit_fetch_moving : fetchMoving (turnIssues base 0 [] 0 0 false) (cx base) = false ∧
    fetchMoving (modPart base 0 fun v => { v with migs := [{ pasid := 0, page := 0, old := 0, new := 0x3000, shot := 1 }] }) (cx base) = true := by
  decide
/-- An ADD that reads a listed register raises its fault; JMPR into s61, which reads it too, fails a decode check first. -/
theorem wit_reads_bad : ∃ s x, ctx? s = some x ∧ readsBad x (.add 5 6 7) = true ∧ decodeFaulted s x (.add 5 6 7) = false ∧
    readsBad x (.jmpr 61 6 0) = true ∧ decodeFaulted s x (.jmpr 61 6 0) = true ∧ isPref (.prefL1 4 0) = true ∧ isPref (.add 5 6 7) = false :=
  ⟨withT base fun t => { t with bad := [.sreg 0 6] }, _, cx_some rfl, by decide +kernel⟩
/-- A core whose scalar scheduler has no cycle for the stream. -/
theorem wit_scheduler : schedulerHeld base 0 0 false = false ∧ schedulerHeld (withC base fun c => { c with scalarBusy := 9 }) 0 0 false = true := by
  decide
theorem wit_rationed : ∃ s x t, ctx? s = some x ∧ exec (.addI32 (wordFor .addI32)) s = .next t ∧
    rationed s t x (.addI32 (wordFor .addI32)) = true :=
  ⟨withC lbase fun c => { c with winLeft := 0 }, _, _, cx_some rfl, rfl, by decide +kernel⟩
theorem wit_round_trip : (Instr.add 5 6 7).wf = true ∧ encode (.add 5 6 7) = some (32, 0x04518700) ∧
    decodeWord (versionOf (.add 5 6 7)) 32 0x04518700 = some (.add 5 6 7) := by decide
theorem wit_step : ∃ t, step base = .next t := ⟨_, rfl⟩
theorem test_step : (match step base with | .next t => (cx t).g.spc | _ => 0) = 4 := by decide

end Sys2Proof.Tests
end

/-! # The scalar ALU: majors 0x01 to 0x0B (R104 - R110) -/

section
/-! SUPPORT. Word arithmetic: each value function of the scalar ALU, as the number the spec's table gives. -/

namespace Sys2Proof.Machine

open Sys2Proof

/-! ## Fields of numbers, bit by bit -/

/-- A replaced field holds the new value's low bits; the bits below and above it stay. -/
theorem testBit_setFld (w lo len v i : Nat) :
    (setFld w lo len v).testBit i =
      if i < lo then w.testBit i else if i < lo + len then v.testBit (i - lo) else w.testBit i := by
  have hlow : w % 2 ^ lo < 2 ^ lo := Nat.mod_lt _ (Nat.two_pow_pos _)
  have hmid : v % 2 ^ len < 2 ^ len := Nat.mod_lt _ (Nat.two_pow_pos _)
  have hsplit : setFld w lo len v = 2 ^ lo * (2 ^ len * (w / 2 ^ (lo + len)) + v % 2 ^ len) + w % 2 ^ lo := by
    simp only [setFld, Nat.pow_add, Nat.mul_add]
    ac_rfl
  rw [hsplit, Nat.testBit_two_pow_mul_add _ hlow, Nat.testBit_two_pow_mul_add _ hmid]
  by_cases h₁ : i < lo
  · simp [h₁, Nat.testBit_mod_two_pow]
  · by_cases h₂ : i < lo + len
    · simp [h₁, h₂, Nat.testBit_mod_two_pow, show i - lo < len by omega]
    · simp [h₁, h₂, Nat.testBit_div_two_pow, show ¬ i - lo < len by omega, show i - lo - len + (lo + len) = i by omega]

/-! ## Counts and order of bits (R105) -/

theorem popCount_eq_countP (n w : Nat) : popCount n w = (List.range n).countP fun i => w.testBit i := by
  induction n generalizing w with
  | zero => rfl
  | succ n ih =>
    have hlow : w % 2 = if w.testBit 0 then 1 else 0 := by
      rcases Nat.mod_two_eq_zero_or_one w with h | h <;> simp [h]
    rw [popCount, ih, hlow, List.range_succ_eq_map, List.countP_cons, List.countP_map, Nat.add_comm]
    simp only [Function.comp_def, Nat.succ_eq_add_one, Nat.testBit_add_one]

theorem popc32_eq (x : Word) : popc32 x = BitVec.ofNat 32 ((List.range 32).countP fun i => x.getLsbD i) := by
  simp only [popc32, popCount_eq_countP]
  rfl

/-- The count of leading zeros is the place, from the top, of the first 1 bit. -/
theorem leadingZeros_eq_find? {n w : Nat} (hw : w < 2 ^ n) :
    leadingZeros n w = ((List.range n).find? fun k => w.testBit (n - 1 - k)).getD n := by
  unfold leadingZeros
  rw [Nat.mod_eq_of_lt hw]
  split
  case isTrue h0 => simp [h0, List.find?_eq_none.mpr]
  case isFalse h0 =>
    have hlog : w.log2 < n := (Nat.log2_lt h0).mpr hw
    have hfirst : (List.range n).find? (fun k => w.testBit (n - 1 - k)) = some (n - 1 - w.log2) := by
      refine List.find?_range_eq_some.mpr ⟨?_, List.mem_range.mpr (by omega), fun j hj => ?_⟩
      · rw [show n - 1 - (n - 1 - w.log2) = w.log2 by omega, Nat.testBit_log2 h0]
      · have habove : w < 2 ^ (n - 1 - j) := Nat.lt_of_lt_of_le Nat.lt_log2_self (Nat.pow_le_pow_right (by omega) (by omega))
        simp [Nat.testBit_lt_two_pow habove]
    simp [hfirst]

theorem clz32_eq (x : Word) :
    clz32 x = BitVec.ofNat 32 (((List.range 32).find? fun k => x.getLsbD (31 - k)).getD 32) := by
  simp only [clz32, leadingZeros_eq_find? x.isLt]
  rfl

theorem revBits_lt (n w : Nat) : revBits n w < 2 ^ n := by
  induction n generalizing w with
  | zero => simp [revBits]
  | succ n ih =>
    have hrest := ih (w / 2)
    have hlow : w % 2 * 2 ^ n ≤ 2 ^ n := by
      rcases Nat.mod_two_eq_zero_or_one w with h | h <;> simp [h]
    rw [revBits, Nat.pow_succ]
    omega

theorem testBit_revBits (n w i : Nat) : (revBits n w).testBit i = (decide (i < n) && w.testBit (n - 1 - i)) := by
  induction n generalizing w with
  | zero => simp [revBits]
  | succ n ih =>
    rw [revBits, Nat.mul_comm, Nat.testBit_two_pow_mul_add _ (revBits_lt n _), ih]
    rcases Nat.lt_trichotomy i n with h | rfl | h
    · simp [h, show i < n + 1 by omega, ← Nat.testBit_add_one, show n - 1 - i + 1 = n - i by omega]
    · simp
    · have habove : w % 2 < 2 ^ (i - n) :=
        Nat.lt_of_lt_of_le (Nat.mod_lt w Nat.two_pos) (Nat.le_self_pow (by omega) 2)
      simp [Nat.testBit_lt_two_pow habove, show ¬ i < n by omega, show ¬ i < n + 1 by omega]

theorem brev32_eq (x : Word) : brev32 x = x.reverse := by
  apply BitVec.eq_of_getLsbD_eq
  intro i hi
  rw [brev32, BitVec.getLsbD_ofNat, testBit_revBits, BitVec.getLsbD_reverse, BitVec.getMsbD, BitVec.testBit_toNat]
  simp [hi]

/-! ## Comparisons and choices (R105) -/

theorem b2w_slt (x y : Word) : b2w (x.slt y) = if x.toInt < y.toInt then 1 else 0 := by
  simp [b2w, BitVec.slt_iff_toInt_lt]

theorem b2w_ult (x y : Word) : b2w (x.ult y) = if x.toNat < y.toNat then 1 else 0 := by
  simp [b2w, BitVec.ult_iff_toNat_lt]

theorem b2w_beq (x y : Word) : b2w (x == y) = if x = y then 1 else 0 := by
  simp [b2w]

theorem b2w_bne (x y : Word) : b2w (x != y) = if x = y then 0 else 1 := by
  by_cases h : x = y <;> simp [b2w, h]

theorem ite_slt_eq_min (x y : Word) : (if x.slt y then x else y) = BitVec.ofInt 32 (min x.toInt y.toInt) := by
  have hmin : min x.toInt y.toInt = if x.toInt < y.toInt then x.toInt else y.toInt := by split <;> omega
  simp only [hmin, apply_ite (BitVec.ofInt 32), BitVec.slt_iff_toInt_lt, BitVec.ofInt_toInt]

theorem ite_slt_eq_max (x y : Word) : (if x.slt y then y else x) = BitVec.ofInt 32 (max x.toInt y.toInt) := by
  have hmax : max x.toInt y.toInt = if x.toInt < y.toInt then y.toInt else x.toInt := by split <;> omega
  simp only [hmax, apply_ite (BitVec.ofInt 32), BitVec.slt_iff_toInt_lt, BitVec.ofInt_toInt]

theorem ite_ult_eq_min (x y : Word) : (if x.ult y then x else y) = BitVec.ofNat 32 (min x.toNat y.toNat) := by
  have hmin : min x.toNat y.toNat = if x.toNat < y.toNat then x.toNat else y.toNat := by split <;> omega
  simp only [hmin, apply_ite (BitVec.ofNat 32), BitVec.ult_iff_toNat_lt, BitVec.ofNat_toNat, BitVec.setWidth_eq]

theorem ite_ult_eq_max (x y : Word) : (if x.ult y then y else x) = BitVec.ofNat 32 (max x.toNat y.toNat) := by
  have hmax : max x.toNat y.toNat = if x.toNat < y.toNat then y.toNat else x.toNat := by split <;> omega
  simp only [hmax, apply_ite (BitVec.ofNat 32), BitVec.ult_iff_toNat_lt, BitVec.ofNat_toNat, BitVec.setWidth_eq]

/-! ## Wrapping arithmetic (R105) -/

theorem sub_eq_ofInt (x y : Word) : x - y = BitVec.ofInt 32 ((x.toNat : Int) - y.toNat) := by
  rw [Int.sub_eq_add_neg, BitVec.ofInt_add, BitVec.ofInt_neg, BitVec.ofInt_natCast, BitVec.ofInt_natCast]
  simp [BitVec.sub_eq_add_neg]

theorem mul_eq_ofNat (x y : Word) : x * y = BitVec.ofNat 32 (x.toNat * y.toNat) := by
  simp [BitVec.ofNat_mul]

/-! ## Shifts (R106, R108) -/

theorem shiftLeft_eq (x : Word) (n : Nat) :
    shiftLeft x n = if 32 ≤ n then 0 else BitVec.ofNat 32 (x.toNat * 2 ^ n) := by
  unfold shiftLeft
  congr 1
  apply BitVec.eq_of_toNat_eq
  simp [Nat.shiftLeft_eq]

theorem shiftRightZ_eq (x : Word) (n : Nat) :
    shiftRightZ x n = if 32 ≤ n then 0 else BitVec.ofNat 32 (x.toNat / 2 ^ n) := by
  unfold shiftRightZ
  congr 1
  apply BitVec.eq_of_toNat_eq
  have hle : x.toNat / 2 ^ n ≤ x.toNat := Nat.div_le_self _ _
  rw [BitVec.toNat_ushiftRight, Nat.shiftRight_eq_div_pow, BitVec.toNat_ofNat, Nat.mod_eq_of_lt (by omega)]

theorem shiftLeft_of_lt (x : Word) {n : Nat} (h : n < 32) : shiftLeft x n = BitVec.ofNat 32 (x.toNat * 2 ^ n) :=
  (shiftLeft_eq x n).trans (if_neg (Nat.not_le.mpr h))

theorem shiftRightZ_of_lt (x : Word) {n : Nat} (h : n < 32) : shiftRightZ x n = BitVec.ofNat 32 (x.toNat / 2 ^ n) :=
  (shiftRightZ_eq x n).trans (if_neg (Nat.not_le.mpr h))

theorem sshiftRight_eq_ofInt_div (x : Word) (n : Nat) : x.sshiftRight n = BitVec.ofInt 32 (x.toInt / 2 ^ n) := by
  simp [BitVec.sshiftRight_eq, Int.shiftRight_eq_div_pow]

theorem shiftRightS_of_lt (x : Word) {n : Nat} (h : n < 32) : shiftRightS x n = BitVec.ofInt 32 (x.toInt / 2 ^ n) := by
  rw [shiftRightS, show (if 31 ≤ n then 31 else n) = n by split <;> omega, sshiftRight_eq_ofInt_div]

/-- A shift by 31 already fills the word with the sign. -/
theorem shiftRightS_eq (x : Word) (n : Nat) :
    shiftRightS x n =
      if 32 ≤ n then (if x.msb then 0xFFFFFFFF#32 else 0) else BitVec.ofInt 32 (x.toInt / 2 ^ n) := by
  split
  case isFalse h => exact shiftRightS_of_lt x (by omega)
  case isTrue h =>
    have hlt := x.isLt
    rw [shiftRightS, if_pos (by omega), sshiftRight_eq_ofInt_div, BitVec.toInt_eq_msb_cond]
    cases hm : x.msb with
    | true =>
      have hge : 2 ^ 31 ≤ x.toNat := by simpa [BitVec.msb_eq_decide] using hm
      rw [if_pos rfl, if_pos rfl, show ((x.toNat : Int) - (2 ^ 32 : Nat)) / 2 ^ 31 = -1 by omega]
      rfl
    | false =>
      have hsmall : x.toNat < 2 ^ 31 := by simpa [BitVec.msb_eq_decide] using hm
      rw [if_neg Bool.false_ne_true, if_neg Bool.false_ne_true, show (x.toNat : Int) / 2 ^ 31 = 0 by omega]
      rfl

/-! ## Division and remainder (R106) -/

theorem divSigned_eq (x y : Word) :
    divSigned x y =
      if y = 0 then (if x.toInt < 0 then 1 else 0xFFFFFFFF#32) else BitVec.ofInt 32 (x.toInt.tdiv y.toInt) := by
  unfold divSigned
  congr 1
  split
  case isTrue h => obtain ⟨rfl, rfl⟩ := h; decide
  case isFalse => rfl

/-- For every divisor but 0 the signed remainder is what the quotient leaves: the one overflow, of the least integer by −1,
leaves 0 too. -/
theorem remSigned_eq_sub (x : Word) {y : Word} (hy : y ≠ 0) : remSigned x y = x - y * divSigned x y := by
  unfold remSigned
  rw [if_neg hy]
  split
  case isTrue h => obtain ⟨rfl, rfl⟩ := h; decide
  case isFalse => rfl

theorem remSigned_eq (x y : Word) : remSigned x y = if y = 0 then x else BitVec.ofInt 32 (x.toInt.tmod y.toInt) := by
  split
  case isTrue h => simp [remSigned, h]
  case isFalse h =>
    calc remSigned x y = x - y * BitVec.ofInt 32 (x.toInt.tdiv y.toInt) := by rw [remSigned_eq_sub x h, divSigned_eq, if_neg h]
      _ = BitVec.ofInt 32 (x.toInt - y.toInt * x.toInt.tdiv y.toInt) := by
        rw [Int.sub_eq_add_neg, BitVec.ofInt_add, BitVec.ofInt_neg, BitVec.ofInt_mul, BitVec.ofInt_toInt, BitVec.ofInt_toInt,
          BitVec.sub_eq_add_neg]
      _ = BitVec.ofInt 32 (x.toInt.tmod y.toInt) := by rw [Int.tmod_def]

theorem mul_divUnsigned_add_remUnsigned (a : Word) {b : Word} (hb : b ≠ 0) : b * divUnsigned a b + remUnsigned a b = a := by
  calc b * divUnsigned a b + remUnsigned a b
      = BitVec.ofNat 32 (b.toNat * (a.toNat / b.toNat) + a.toNat % b.toNat) := by
        rw [divUnsigned, remUnsigned, if_neg hb, if_neg hb, BitVec.ofNat_add, BitVec.ofNat_mul, BitVec.ofNat_toNat,
          BitVec.setWidth_eq]
    _ = a := by rw [Nat.div_add_mod, BitVec.ofNat_toNat, BitVec.setWidth_eq]

theorem mul_divSigned_add_remSigned (a : Word) {b : Word} (hb : b ≠ 0) : b * divSigned a b + remSigned a b = a := by
  rw [remSigned_eq_sub a hb, BitVec.add_comm, BitVec.sub_add_cancel]

/-! ## Immediates (R107 - R109) -/

theorem add_signExtend (x : Word) (i : BitVec 14) : x + i.signExtend 32 = BitVec.ofInt 32 (x.toInt + i.toInt) := by
  rw [BitVec.ofInt_add, BitVec.ofInt_toInt]
  rfl

theorem b2w_slt_signExtend (x : Word) (i : BitVec 14) :
    b2w (x.slt (i.signExtend 32)) = if x.toInt < i.toInt then 1 else 0 := by
  rw [b2w_slt, BitVec.toInt_signExtend_of_le (by omega)]

theorem rotateRight_toNat (x : Word) (n : BitVec 5) : rotateRight x n.toNat = x.rotateRight n.toNat := by
  rw [rotateRight, Nat.mod_eq_of_lt n.isLt]

theorem append_eq_ofNat (i j : BitVec 16) : (i ++ j : Word) = BitVec.ofNat 32 (i.toNat * 2 ^ 16 + j.toNat) := by
  apply BitVec.eq_of_toNat_eq
  have hi := i.isLt
  have hj := j.isLt
  rw [BitVec.toNat_append, ← Nat.shiftLeft_add_eq_or_of_lt hj, Nat.shiftLeft_eq, BitVec.toNat_ofNat]
  omega

/-! ## Bit fields (R110) -/

theorem bitField_eq_toNat (x : Word) (w p : Nat) : bitField x w p = (x.extractLsb' p w).toNat := by
  simp [bitField, fld, BitVec.extractLsb'_toNat, Nat.shiftRight_eq_div_pow]

/-- A positive width's two's-complement reading is the bit vector's own. -/
theorem toSigned_toNat {n : Nat} (hn : 0 < n) (v : BitVec n) : toSigned n v.toNat = v.toInt := by
  obtain ⟨m, rfl⟩ := Nat.exists_eq_succ_of_ne_zero (Nat.ne_of_gt hn)
  have hiff : v.toNat < 2 ^ m ↔ 2 * v.toNat < 2 ^ (m + 1) := by rw [Nat.pow_succ]; omega
  simp [toSigned, BitVec.toInt_eq_toNat_cond, Nat.mod_eq_of_lt v.isLt, hiff]

theorem ofNat_bitField (x : Word) (w p : Nat) : BitVec.ofNat 32 (bitField x w p) = (x.extractLsb' p w).setWidth 32 := by
  rw [bitField_eq_toNat, BitVec.ofNat_toNat]

theorem ofInt_toSigned_bitField (x : Word) {w : Nat} (hw : 0 < w) (p : Nat) :
    BitVec.ofInt 32 (toSigned w (bitField x w p)) = (x.extractLsb' p w).signExtend 32 := by
  rw [bitField_eq_toNat, toSigned_toNat hw]
  rfl

theorem ofNat_setFld_eq_bfiValue (w : BitVec 6) (p : BitVec 5) (old x : Word) :
    BitVec.ofNat 32 (setFld old.toNat p.toNat w.toNat x.toNat) = Claims.bfiValue w p old x := by
  apply BitVec.eq_of_getLsbD_eq
  intro i hi
  simp only [Claims.bfiValue, BitVec.getLsbD_ofNat, testBit_setFld, BitVec.getLsbD_or, BitVec.getLsbD_and,
    BitVec.getLsbD_not, BitVec.getLsbD_shiftLeft, BitVec.getLsbD_setWidth, BitVec.getLsbD_allOnes, BitVec.testBit_toNat]
  by_cases h₁ : i < p.toNat
  · simp [h₁, hi]
  · by_cases h₂ : i < p.toNat + w.toNat
    · simp [h₁, h₂, hi, show i - p.toNat < w.toNat by omega, show i - p.toNat < 32 by omega]
    · simp [h₁, h₂, show ¬ i - p.toNat < w.toNat by omega, hi]

end Sys2Proof.Machine
end

section
/-! SUPPORT. The shared scalar operation: what it writes, what it leaves, and which rows of the tables it computes. -/

namespace Sys2Proof.Machine

open Sys2Proof Sys2Proof.Claims

/-! ## The acting stream -/

theorem withCtx_eq {s : State} {x : Ctx} (hx : ctx? s = some x) (f : Ctx → State) : withCtx s f = .next (f x) := by
  simp [withCtx, hx]

/-- The acting stream is a group of a team that stands on its core. -/
theorem teamOf_group_of_ctx {s : State} {x : Ctx} (hx : ctx? s = some x) :
    teamOf s x.core = some x.team ∧ groupIn x.team x.gi = some x.g := by
  unfold ctx? at hx
  split at hx
  · simp at hx
  next t ht =>
    split at hx
    · simp at hx
    next g hg =>
      split at hx
      · simp at hx
      obtain rfl := Option.some.inj hx
      exact ⟨ht, hg⟩

theorem groupOf_putG_of_ctx {s : State} {x : Ctx} (hx : ctx? s = some x) (g : Group) :
    groupOf (putG s x g) x.core x.gi = some g := by
  obtain ⟨hteam, -⟩ := teamOf_group_of_ctx hx
  exact groupOf_setGroup_self s _ _ _ (by simp [hteam])

/-! ## The register written -/

/-- What any scalar register reads after a write of it: s0 stays 0, and the mask is stored under the live mask (R25). -/
theorem rdS_wrS_eq (g : Group) (n : Nat) (v : Word) : rdS (wrS g n v) n = if n = 0 then 0 else maskedS g n v := by
  unfold rdS wrS
  split
  · rfl
  · simp

@[simp] theorem markS_sregs (x : Ctx) (g : Group) (n : Nat) (inv : Bool) : (markS x g n inv).sregs = g.sregs := by
  unfold markS; split <;> rfl

@[simp] theorem markS_spc (x : Ctx) (g : Group) (n : Nat) (inv : Bool) : (markS x g n inv).spc = g.spc := by
  unfold markS; split <;> rfl

@[simp] theorem rdS_markS (x : Ctx) (g : Group) (n : Nat) (inv : Bool) (m : Nat) : rdS (markS x g n inv) m = rdS g m := by
  simp [rdS]

/-! ## The shared operation -/

/-- An operation that may complete completes, with its destination marked as its sources are. -/
theorem scalarOp_of_aluFree {s : State} {x : Ctx} {regs : List Nat} {d : Nat} (v : Group → Word)
    (hx : ctx? s = some x) (hfree : AluFree s x regs d) :
    scalarOp s regs d v = .next (scalarDone s x (markS x (wrS x.g d (v x.g)) d (regs.any fun r => invS x r))) := by
  obtain ⟨hwait, hvalid⟩ := hfree
  have hkeep : (regs.any (fun r => invS x r) && decide (61 ≤ d)) = false := by
    by_cases hd : 61 ≤ d
    · simpa [hd] using hvalid hd
    · simp [hd]
  rw [scalarOp, withCtx_eq hx, hwait, hkeep]
  rfl

/-- It then has written its value, and goes on at the next word. -/
theorem scalarWrites_of_exec {s : State} {x : Ctx} {i : Instr} {regs : List Nat} {d : Nat} {v : Group → Word}
    (hx : ctx? s = some x) (hfree : AluFree s x regs d) (hi : exec i s = scalarOp s regs d v) :
    ScalarWrites s x i d (v x.g) := by
  refine ⟨_, _, hi.trans (scalarOp_of_aluFree v hx hfree), groupOf_putG_of_ctx hx _, ?_, ?_, fun n hn => ?_⟩
  · simp [issuedG]
  · exact (rdS_markS ..).trans (rdS_wrS_eq ..)
  · exact (rdS_markS ..).trans (rdS_wrS_other _ _ (by simpa using hn))

/-! ## The rows of the tables -/

/-- In a group `g`, the instruction `i` is the shared operation over `regs` into `d`, with the value `v`. -/
def Computes (g : Group) (regs : List Nat) (d : Nat) (i : Instr) (v : Word) : Prop :=
  ∃ f : Group → Word, (∀ s, exec i s = scalarOp s regs d f) ∧ f g = v

theorem Computes.scalarWrites {s : State} {x : Ctx} {regs : List Nat} {d : Nat} {i : Instr} {v : Word}
    (h : Computes x.g regs d i v) (hx : ctx? s = some x) (hfree : AluFree s x regs d) : ScalarWrites s x i d v := by
  obtain ⟨f, hexec, rfl⟩ := h
  exact scalarWrites_of_exec hx hfree (hexec s)

section
variable {g : Group} {d a b : BitVec 6}

theorem Computes.of_alu2 {i : Instr} {f : Word → Word → Word} {v : Word} (hi : ∀ s, exec i s = alu2 s d a b f)
    (hv : f (rdS g a.toNat) (rdS g b.toNat) = v) : Computes g [a.toNat, b.toNat] d.toNat i v := ⟨_, hi, hv⟩

theorem Computes.of_alu1 {i : Instr} {f : Word → Word} {v : Word} (hi : ∀ s, exec i s = alu1 s d a f)
    (hv : f (rdS g a.toNat) = v) : Computes g [a.toNat] d.toNat i v := ⟨_, hi, hv⟩

theorem Computes.of_aluI {i : Instr} {imm : BitVec 14} {f : Word → Word → Word} {v : Word}
    (hi : ∀ s, exec i s = aluI s d a imm f) (hv : f (rdS g a.toNat) (imm.signExtend 32) = v) :
    Computes g [a.toNat] d.toNat i v := ⟨_, hi, hv⟩

end

section
variable (g : Group) (d a b c : BitVec 6)

theorem aluTable_computes :
    ∀ row ∈ aluTable d a b (rdS g a.toNat) (rdS g b.toNat), Computes g [a.toNat, b.toNat] d.toNat row.1 row.2 := by
  simp only [aluTable, List.forall_mem_cons]
  exact ⟨.of_alu2 (exec_add d a b) (BitVec.add_def _ _), .of_alu2 (exec_sub d a b) (sub_eq_ofInt _ _),
    .of_alu2 (exec_andR d a b) rfl, .of_alu2 (exec_orR d a b) rfl, .of_alu2 (exec_xorR d a b) rfl,
    .of_alu2 (exec_andn d a b) rfl, .of_alu2 (exec_rotr d a b) rfl, .of_alu2 (exec_slt d a b) (b2w_slt _ _),
    .of_alu2 (exec_sltu d a b) (b2w_ult _ _), .of_alu2 (exec_seq d a b) (b2w_beq _ _),
    .of_alu2 (exec_sne d a b) (b2w_bne _ _), .of_alu2 (exec_minS d a b) (ite_slt_eq_min _ _),
    .of_alu2 (exec_minZ d a b) (ite_ult_eq_min _ _), .of_alu2 (exec_maxS d a b) (ite_slt_eq_max _ _),
    .of_alu2 (exec_maxZ d a b) (ite_ult_eq_max _ _), .of_alu2 (exec_mul d a b) (mul_eq_ofNat _ _),
    .of_alu2 (exec_mulhS d a b) rfl, .of_alu2 (exec_mulhZ d a b) rfl, List.forall_mem_nil _⟩

theorem shiftTable_computes :
    ∀ row ∈ shiftTable d a b (rdS g a.toNat) (rdS g b.toNat), Computes g [a.toNat, b.toNat] d.toNat row.1 row.2 := by
  simp only [shiftTable, List.forall_mem_cons]
  exact ⟨.of_alu2 (exec_shl d a b) (shiftLeft_eq _ _), .of_alu2 (exec_shrZ d a b) (shiftRightZ_eq _ _),
    .of_alu2 (exec_shrS d a b) (shiftRightS_eq _ _), .of_alu2 (exec_divZ d a b) rfl, .of_alu2 (exec_remZ d a b) rfl,
    .of_alu2 (exec_divS d a b) (divSigned_eq _ _), .of_alu2 (exec_remS d a b) (remSigned_eq _ _),
    List.forall_mem_nil _⟩

theorem unaryTable_computes : ∀ row ∈ unaryTable d a (rdS g a.toNat), Computes g [a.toNat] d.toNat row.1 row.2 := by
  simp only [unaryTable, List.forall_mem_cons]
  exact ⟨.of_alu1 (exec_popc d a) (popc32_eq _), .of_alu1 (exec_clz d a) (clz32_eq _),
    .of_alu1 (exec_brev d a) (brev32_eq _), List.forall_mem_nil _⟩

theorem sel_computes :
    Computes g [a.toNat, b.toNat, c.toNat] d.toNat (.sel d a b c)
      (if rdS g c.toNat = 0 then rdS g b.toNat else rdS g a.toNat) :=
  ⟨_, exec_sel d a b c, ite_not ..⟩

theorem immTable_computes (i : BitVec 14) :
    ∀ row ∈ immTable d a i (rdS g a.toNat), Computes g [a.toNat] d.toNat row.1 row.2 := by
  simp only [immTable, List.forall_mem_cons]
  exact ⟨.of_aluI (exec_addi d a i) (add_signExtend _ _), .of_aluI (exec_andi d a i) rfl,
    .of_aluI (exec_ori d a i) rfl, .of_aluI (exec_xori d a i) rfl,
    .of_aluI (exec_slti d a i) (b2w_slt_signExtend _ _), .of_aluI (exec_sltiu d a i) (b2w_ult _ _),
    List.forall_mem_nil _⟩

theorem shiTable_computes (n : BitVec 5) :
    ∀ row ∈ shiTable d a n (rdS g a.toNat), Computes g [a.toNat] d.toNat row.1 row.2 := by
  simp only [shiTable, List.forall_mem_cons]
  exact ⟨.of_alu1 (exec_shli d a n) (shiftLeft_of_lt _ n.isLt),
    .of_alu1 (exec_shriZ d a n) (shiftRightZ_of_lt _ n.isLt),
    .of_alu1 (exec_shriS d a n) (shiftRightS_of_lt _ n.isLt), .of_alu1 (exec_rotri d a n) (rotateRight_toNat _ n),
    List.forall_mem_nil _⟩

theorem li_computes (j : BitVec 16) : Computes g [] d.toNat (.li d j) (BitVec.ofInt 32 j.toInt) := ⟨_, exec_li d j, rfl⟩

theorem liz_computes (j : BitVec 16) : Computes g [] d.toNat (.liz d j) (BitVec.ofNat 32 j.toNat) :=
  ⟨_, exec_liz d j, (BitVec.ofNat_toNat ..).symm⟩

theorem lui_computes (j : BitVec 16) : Computes g [] d.toNat (.lui d j) (BitVec.ofNat 32 (j.toNat * 2 ^ 16)) :=
  ⟨_, exec_lui d j, (append_eq_ofNat j 0#16).trans (by simp)⟩

theorem lih_computes (j : BitVec 16) :
    Computes g [d.toNat] d.toNat (.lih d j) (BitVec.ofNat 32 (j.toNat * 2 ^ 16 + (rdS g d.toNat).toNat % 2 ^ 16)) :=
  ⟨_, exec_lih d j, append_eq_ofNat j _⟩

end

/-- `lih` reads its destination; the other three forms read nothing, so they may complete whenever it may. -/
theorem liTable_writes {s : State} {x : Ctx} (d : BitVec 6) (j : BitVec 16) (hx : ctx? s = some x)
    (hfree : AluFree s x [d.toNat] d.toNat) :
    ∀ row ∈ liTable d j (rdS x.g d.toNat), ScalarWrites s x row.1 d.toNat row.2 := by
  have hfree₀ : AluFree s x [] d.toNat := by
    obtain ⟨hwait, -⟩ := hfree
    exact ⟨by simpa [waitsS] using hwait, fun _ => List.forall_mem_nil _⟩
  simp only [liTable, List.forall_mem_cons]
  exact ⟨(li_computes x.g d j).scalarWrites hx hfree₀, (liz_computes x.g d j).scalarWrites hx hfree₀,
    (lui_computes x.g d j).scalarWrites hx hfree₀, (lih_computes x.g d j).scalarWrites hx hfree, List.forall_mem_nil _⟩

/-! ## Bit fields (R110) -/

section
variable {d a w : BitVec 6} {p : BitVec 5}

theorem bitFieldOk_iff : bitFieldOk w p = true ↔ fieldOk w p := by
  simp only [bitFieldOk, fieldOk, Bool.and_eq_true, decide_eq_true_eq]
  omega

theorem bfeTable_computes (g : Group) (hok : fieldOk w p) :
    ∀ row ∈ bfeTable d a w p (rdS g a.toNat), Computes g [a.toNat] d.toNat row.1 row.2 := by
  have hif := bitFieldOk_iff.mpr hok
  simp only [bfeTable, List.forall_mem_cons]
  exact ⟨⟨_, fun s => (exec_bfeZ d a w p s).trans (if_pos hif), ofNat_bitField _ _ _⟩,
    ⟨_, fun s => (exec_bfeS d a w p s).trans (if_pos hif), ofInt_toSigned_bitField _ hok.1 _⟩, List.forall_mem_nil _⟩

theorem bfi_computes (g : Group) (hok : fieldOk w p) :
    Computes g [a.toNat, d.toNat] d.toNat (.bfi d a w p) (bfiValue w p (rdS g d.toNat) (rdS g a.toNat)) :=
  ⟨_, fun s => (exec_bfi d a w p s).trans (if_pos (bitFieldOk_iff.mpr hok)), ofNat_setFld_eq_bfiValue w p _ _⟩

/-- With an illegal field every form takes the illegal-instruction fault. -/
theorem bitField_illegal {s : State} {x : Ctx} (hx : ctx? s = some x) (hbad : ¬ fieldOk w p) :
    ∀ i ∈ [Instr.bfeZ d a w p, .bfeS d a w p, .bfi d a w p], exec i s = .next (raise s x { code := 0x01 }) := by
  have hno : ¬ bitFieldOk w p = true := fun h => hbad (bitFieldOk_iff.mp h)
  have hraise : withCtx s (fun x => raiseIllegal s x) = .next (raise s x { code := 0x01 }) := withCtx_eq hx _
  simp only [List.forall_mem_cons]
  exact ⟨(exec_bfeZ d a w p s).trans ((if_neg hno).trans hraise), (exec_bfeS d a w p s).trans ((if_neg hno).trans hraise),
    (exec_bfi d a w p s).trans ((if_neg hno).trans hraise), List.forall_mem_nil _⟩

end

end Sys2Proof.Machine
end

section
/-! The obligations about the scalar ALU. -/

namespace Sys2Proof.Machine

open Sys2Proof Sys2Proof.Claims

theorem scalarAluValues : ScalarAluValues := by
  intro s x d a b c hx
  refine ⟨fun hfree row hrow => ?_, fun hfree row hrow => ?_, fun hfree => ?_⟩
  · obtain h | h := List.mem_append.mp hrow
    · exact (aluTable_computes x.g d a b row h).scalarWrites hx hfree
    · exact (shiftTable_computes x.g d a b row h).scalarWrites hx hfree
  · exact (unaryTable_computes x.g d a row hrow).scalarWrites hx hfree
  · exact (sel_computes x.g d a b c).scalarWrites hx hfree

theorem scalarDivisionIdentity : ScalarDivisionIdentity := fun a _ hb =>
  ⟨(mul_divUnsigned_add_remUnsigned a hb).symm, (mul_divSigned_add_remSigned a hb).symm⟩

/-- Settles O29: every row is the shared scalar operation with the table's value, and what the quotient leaves is the remainder. -/
theorem scalarAluResult : Obligations.ScalarAluResult := ⟨scalarAluValues, scalarDivisionIdentity⟩

theorem scalarImmediateResult : ScalarImmediateResult := by
  intro s x d a i n j hx
  refine ⟨fun hfree row hrow => ?_, fun hfree => liTable_writes d j hx hfree⟩
  obtain h | h := List.mem_append.mp hrow
  · exact (immTable_computes x.g d a i row h).scalarWrites hx hfree
  · exact (shiTable_computes x.g d a n row h).scalarWrites hx hfree

theorem scalarBitFieldResult : ScalarBitFieldResult := by
  intro s x d a w p hx
  exact ⟨fun hok hfree row hrow => (bfeTable_computes x.g hok row hrow).scalarWrites hx hfree,
    fun hok hfree => (bfi_computes x.g hok).scalarWrites hx hfree, bitField_illegal hx⟩

/-- Settles O30: every immediate and legal bit-field form is the shared scalar operation with its row's value; an illegal field
faults before it. -/
theorem scalarImmediates : Obligations.ScalarImmediates := ⟨scalarImmediateResult, scalarBitFieldResult⟩

end Sys2Proof.Machine
end

section
/-! SUPPORT. A 64-bit value written to a scalar pair: what the pair then reads, and what the write leaves. -/

namespace Sys2Proof.Machine

open Sys2Proof

/-! ## What a write of a scalar register leaves -/

theorem sameButScalars_refl (g : Group) : SameButScalars g g := by
  simp [SameButScalars]

theorem sameButScalars_trans {g h k : Group} (hgh : SameButScalars g h) (hhk : SameButScalars h k) : SameButScalars g k := by
  simp_all only [SameButScalars, and_self]

theorem sameButScalars_wrS (g : Group) (n : Nat) (v : Word) : SameButScalars g (wrS g n v) := by
  simp [SameButScalars]

theorem sameButScalars_markS (x : Ctx) (g : Group) (n : Nat) (inv : Bool) : SameButScalars g (markS x g n inv) := by
  unfold markS
  split <;> simp [SameButScalars]

theorem sameButScalars_issuedG (now : Nat) (g : Group) (pc : Word) : SameButScalars g (issuedG now { g with spc := pc }) := by
  simp [SameButScalars, issuedG]

@[simp] theorem rdS_issuedG (now : Nat) (g : Group) (pc : Word) (n : Nat) : rdS (issuedG now { g with spc := pc }) n = rdS g n := rfl

/-! ## The pair -/

/-- A register written and marked with a value that is valid. -/
def wrValid (x : Ctx) (g : Group) (n : Nat) (v : Word) : Group := markS x (wrS g n v) n false

@[simp] theorem wrValid_spc (x : Ctx) (g : Group) (n : Nat) (v : Word) : (wrValid x g n v).spc = g.spc := by
  simp [wrValid]

theorem rdS_wrValid_self (x : Ctx) (g : Group) {n : Nat} (v : Word) (h0 : n ≠ 0) (h : n < 61) : rdS (wrValid x g n v) n = v := by
  rw [wrValid, rdS_markS, rdS_wrS_self g v h0 h]

theorem rdS_wrValid_other (x : Ctx) (g : Group) {n m : Nat} (v : Word) (h : m ≠ n) : rdS (wrValid x g n v) m = rdS g m := by
  rw [wrValid, rdS_markS, rdS_wrS_other g v h]

theorem sameButScalars_wrValid (x : Ctx) (g : Group) (n : Nat) (v : Word) : SameButScalars g (wrValid x g n v) :=
  sameButScalars_trans (sameButScalars_wrS g n v) (sameButScalars_markS x _ n false)

/-- A pair at s0 is discarded whole. -/
theorem wrWide_zero (x : Ctx) (v : Nat) : wrWide x 0 true v = x.g := rfl

theorem wrWide_pair (x : Ctx) {d : BitVec 6} (hd : d ≠ 0) (v : Nat) :
    wrWide x d true v =
      wrValid x (wrValid x x.g d.toNat (BitVec.ofNat 32 v)) (d.toNat + 1) (BitVec.ofNat 32 (v / 2 ^ 32)) :=
  if_pos (bne_iff_ne.mpr hd)

@[simp] theorem wrWide_pair_spc (x : Ctx) (d : BitVec 6) (v : Nat) : (wrWide x d true v).spc = x.g.spc := by
  by_cases hd : d = 0
  · rw [hd, wrWide_zero]
  · simp [wrWide_pair x hd]

theorem sameButScalars_wrWide_pair (x : Ctx) (d : BitVec 6) (v : Nat) : SameButScalars x.g (wrWide x d true v) := by
  by_cases hd : d = 0
  · rw [hd, wrWide_zero]
    exact sameButScalars_refl _
  · rw [wrWide_pair x hd]
    exact sameButScalars_trans (sameButScalars_wrValid ..) (sameButScalars_wrValid ..)

theorem sameScalars_wrWide_pair (x : Ctx) (d : BitVec 6) (v : Nat) :
    SameScalars x.g (wrWide x d true v) [d.toNat, d.toNat + 1] := by
  intro n hn
  obtain ⟨hlow, hhigh⟩ : n ≠ d.toNat ∧ n ≠ d.toNat + 1 := by simpa using hn
  by_cases hd : d = 0
  · rw [hd, wrWide_zero]
  · rw [wrWide_pair x hd, rdS_wrValid_other _ _ _ hhigh, rdS_wrValid_other _ _ _ hlow]

/-- Below the mask registers the pair reads the value's two halves. -/
theorem rdS_wrWide_pair (x : Ctx) {d : BitVec 6} (hd : d ≠ 0) (hlt : d.toNat + 1 < 61) (v : Nat) :
    rdS (wrWide x d true v) d.toNat = BitVec.ofNat 32 v ∧
      rdS (wrWide x d true v) (d.toNat + 1) = BitVec.ofNat 32 (v / 2 ^ 32) := by
  have hpos : d.toNat ≠ 0 := fun h => hd (BitVec.eq_of_toNat_eq h)
  rw [wrWide_pair x hd]
  constructor
  · rw [rdS_wrValid_other _ _ _ (by omega), rdS_wrValid_self _ _ _ hpos (by omega)]
  · exact rdS_wrValid_self _ _ _ (by omega) hlt

/-- The last pair that R404 allows ends at s59. -/
theorem succ_lt_of_pairOrZero {d : BitVec 6} (hpair : pairOrZero d = true) (hd : d ≠ 0) : d.toNat + 1 < 61 := by
  have hle : d.toNat ≤ 58 := by simp_all [pairOrZero, scalPairOk]
  omega

end Sys2Proof.Machine
end

section
/-! The obligation about DCLK. -/

namespace Sys2Proof.Machine

open Sys2Proof

/-- The Dayclock wraps at 64 bits, which neither of its halves shows. -/
theorem ofNat_mod_halves (n : Nat) :
    BitVec.ofNat 32 (n % 2 ^ 64) = BitVec.ofNat 32 n ∧
      BitVec.ofNat 32 (n % 2 ^ 64 / 2 ^ 32) = BitVec.ofNat 32 (n / 2 ^ 32) := by
  constructor <;> apply BitVec.eq_of_toNat_eq <;> simp only [BitVec.toNat_ofNat] <;> omega

theorem dayclock_toNat (s : State) (r : Nat) : (dayclock s r).toNat = ((mget 0 s.dcBase r).toNat + s.now / 4) % 2 ^ 64 := by
  simp [dayclock]

theorem exec_dclk_illegal {s : State} {x : Ctx} {d : BitVec 6} (hx : ctx? s = some x) (hpair : pairOrZero d = false) :
    exec (.dclk d) s = .next (raise s x { code := 0x01 }) := by
  rw [exec_dclk, execDclk, withCtx_eq hx, hpair]
  rfl

theorem exec_dclk_done {s : State} {x : Ctx} {d : BitVec 6} (hx : ctx? s = some x) (hpair : pairOrZero d = true)
    (hfree : waitsS s x [d.toNat, d.toNat + 1] = false) :
    exec (.dclk d) s = .next (scalarDone s x (wrWide x d true (dayclock s (coreRegion x.core)).toNat)) := by
  have hregs : waitsS s x (wideRegs d true) = false := hfree
  rw [exec_dclk, execDclk, withCtx_eq hx, hpair, hregs]
  rfl

/-- Settles O53: DCLK completes as the write of the Dayclock to its pair, whose halves do not show that the Dayclock wraps. -/
theorem dclkResult : Obligations.DclkResult := by
  intro s x d hx
  refine ⟨exec_dclk_illegal hx, fun hpair hfree => ?_⟩
  refine ⟨_, _, exec_dclk_done hx hpair hfree, rfl, ?_, fun n hn => ?_, ?_, fun hd => ?_, ?_⟩
  · simp [issuedG]
  · rw [rdS_issuedG, sameScalars_wrWide_pair x d _ n hn]
  · exact sameButScalars_trans (sameButScalars_wrWide_pair x d _) (sameButScalars_issuedG ..)
  · obtain ⟨hlow, hhigh⟩ := rdS_wrWide_pair x hd (succ_lt_of_pairOrZero hpair hd) (dayclock s (coreRegion x.core)).toNat
    obtain ⟨hlowWrap, hhighWrap⟩ := ofNat_mod_halves ((mget 0 s.dcBase (coreRegion x.core)).toNat + s.now / 4)
    rw [rdS_issuedG, rdS_issuedG, hlow, hhigh, dayclock_toNat]
    exact ⟨hlowWrap, hhighWrap⟩
  · rintro rfl n -
    rw [rdS_issuedG, wrWide_zero]

end Sys2Proof.Machine
end
